-- ==== Sys2Proof/Word.lean ====
section
/-! DEFINITION. The words of the register space, their fields, the access codes of R7, and the plainest
arithmetic on them: reading and writing a bit field of a word (R4), saturation, and lists used as arrays. -/

namespace Sys2Proof

/-- A 32-bit word of the register space or of a URT message (R37, R47). -/
abbrev Word := BitVec 32

/-- One byte of the address map (R33). -/
abbrev Byte := BitVec 8

/-- Access codes of register fields (R7). -/
inductive Acc where
  | rw | ro | wo | w1c | w1s | rws | rwp | rwl
  deriving DecidableEq, Repr

/-- A field of a register word: the word's key in the register file, its highest and its lowest bit (R4). -/
structure Fld where
  key : Nat
  hi : Nat
  lo : Nat
  deriving DecidableEq, Repr

/-- A row of the access table: the words at `off + s1 * i + s2 * j` for `i < n1`, `j < n2`, their reset word and
the access code of each field; bits in no field are reserved (R7). -/
structure RegRow where
  off : Nat
  s1 : Nat
  n1 : Nat
  s2 : Nat
  n2 : Nat
  reset : Nat
  acc : List (Acc × Nat × Nat)
  deriving DecidableEq, Repr

/-- Bits `hi` to `lo` of a natural number, as a number (R4). -/
def bitsOf (x hi lo : Nat) : Nat := x / 2 ^ lo % 2 ^ (hi + 1 - lo)

/-- `x` with bits `hi` to `lo` replaced by the low bits of `v`. -/
def putBits (x hi lo v : Nat) : Nat :=
  x / 2 ^ (hi + 1) * 2 ^ (hi + 1) + v % 2 ^ (hi + 1 - lo) * 2 ^ lo + x % 2 ^ lo

/-- Bit `i` of a number. -/
def bitOf (x i : Nat) : Bool := x / 2 ^ i % 2 == 1

/-- `x` with bit `i` set to `b`. -/
def putBit (x i : Nat) (b : Bool) : Nat := putBits x i i (if b then 1 else 0)

/-- The mask with ones in bits `hi` to `lo`. -/
def maskBits (hi lo : Nat) : Nat := (2 ^ (hi + 1 - lo) - 1) * 2 ^ lo

/-- A word from a number (its low 32 bits). -/
def word (n : Nat) : Word := BitVec.ofNat 32 n

/-- 1 for true. -/
def b2n (b : Bool) : Nat := if b then 1 else 0

/-- A number in two's complement of 32 bits, saturating (13: TIME_DOFS, TIME_DREL, TIME_ERR). -/
def satInt32 (x : Int) : Nat :=
  if x > 2147483647 then 2147483647
  else if x < -2147483648 then 2147483648
  else (x % 4294967296).toNat

/-- A signed field of `n` bits read as an integer. -/
def toSigned (n v : Nat) : Int := if v ≥ 2 ^ (n - 1) then (v : Int) - 2 ^ n else v

/-- The magnitude of an integer. -/
def absInt (x : Int) : Nat := x.natAbs

/-- Element `i` of a list used as an array, `dflt` outside it. -/
def elemAt {α : Type} (dflt : α) : List α → Nat → α
  | [], _ => dflt
  | a :: _, 0 => a
  | _ :: l, n + 1 => elemAt dflt l n

/-- The list with element `i` replaced; unchanged outside it. -/
def putAt {α : Type} : List α → Nat → α → List α
  | [], _, _ => []
  | _ :: l, 0, b => b :: l
  | a :: l, n + 1, b => a :: putAt l n b

/-- The value under key `k` of an association list, `dflt` when there is none. -/
def lookupD {α : Type} (dflt : α) (k : Nat) : List (Nat × α) → α
  | [] => dflt
  | (k', a) :: l => if k' = k then a else lookupD dflt k l

/-- The association list with `k` bound to `a`. -/
def bindKey {α : Type} (k : Nat) (a : α) : List (Nat × α) → List (Nat × α)
  | [] => [(k, a)]
  | (k', b) :: l => if k' = k then (k, a) :: l else (k', b) :: bindKey k a l

/-- Insert a number into a rising list without repeats. -/
def insertNat (n : Nat) : List Nat → List Nat
  | [] => [n]
  | m :: l => if n < m then n :: m :: l else if n = m then m :: l else m :: insertNat n l

end Sys2Proof
end

