-- ==== Sys2Proof/Wire.lean ====
section
/-! DEFINITION. What travels to the part and inside it: initiators, frames on a segment, URT headers, pennants,
packages, gPTP and twin messages. They are the operands of the commands, or what the part reads out of the bytes that it is
given (Machine/Layouts.lean; log entry 8: the outcome of a signature check is a field beside those of the signed body). -/

namespace Sys2Proof

/-- The four variants of R1. -/
inductive Variant where
  | dn6400 | dn3200 | dn1600 | dn0800
  deriving DecidableEq, Repr

/-- Privilege levels of R24 and R425. -/
inductive Priv where
  | u | s | k
  deriving DecidableEq, Repr, Inhabited

/-- Uplink A or B; also gPTP domain A or B, and PoDL input A or B. -/
inductive Side where
  | a | b
  deriving DecidableEq, Repr

/-- The number of a side: 0 for A, 1 for B. -/
def Side.num : Side → Nat
  | .a => 0
  | .b => 1

/-- The initiators on the interconnect (R24, R425). -/
inductive Who where
  | steward (n : Nat) (p : Priv)
  | session (s : Nat)
  | mill (m : Nat)
  | bootRom
  | vigil
  | security
  deriving DecidableEq, Repr

/-- The straps of R475, as sampled: 1 is true. -/
structure Straps where
  phya : Bool
  phyb : Bool
  main : Bool
  vaux : Bool
  deriving DecidableEq, Repr

/-- TAP instructions of R487, and the Test-Logic-Reset state. -/
inductive TapOp where
  | bypass | idcode | sample | extest | clamp | highz | testLogicReset
  deriving DecidableEq, Repr

/-- How the frame ran on the line (R99, R111): to its end; `cut`, the levels sampled from SOF, true for recessive, up to the
place where the sender stopped, or with another station's flag in them, after which the bus stays recessive; with a form
error in the tail, in EOF bits 1 to 6 or before them. The head looks for the stuff error in the levels of a cut frame itself. -/
inductive RxLine where
  | clean
  | cut (bits : List Bool)
  | tail (inEof : Bool)
  deriving DecidableEq, Repr

/-- A frame that a station puts on a segment, as the head samples it (R100). `sof` is the SOF edge in ns after the
nominal bell instant of the tick in force, below zero when the frame started before it (R77); `eof7`, `authDom` and `copiesDiffer` are what the head samples in EOF
bit 7 (R112), in the AUTH slot it left recessive (R110), and between its verdict copies (R242). -/
structure RxFrame where
  c : Nat
  mid : Nat
  src : Nat
  ft : Nat
  a : Bool
  dps : Bool
  len : Nat
  seq : Nat
  hcrc : Nat
  payload : List Byte
  tag : BitVec 64
  crc : Nat
  line : RxLine
  sof : Int
  eof7 : Bool
  authDom : Bool
  copiesDiffer : Bool
  deriving DecidableEq, Repr

/-- Transmit errors of R141: a bit error, in the data phase (R95) or outside it; an ACK error; a dominant level where the
tail is recessive, in EOF bits 1 to 6 or before them; an error flag of another station; AUTH_FORGE (R110). -/
inductive TxErr where
  | bit (data : Bool)
  | ack
  | form (inEof : Bool)
  | flag
  | authForge
  deriving DecidableEq, Repr

/-- What the line makes of a head frame: delivered under R112 with ACK dominant, lost in C, MID or SRC (R142), or
ended by a transmit error. -/
inductive TxLine where
  | delivered
  | lost
  | error (e : TxErr)
  deriving DecidableEq, Repr

/-- What of a frame on the wire a command tells: all of it, its start up to the end of arbitration, or its end. -/
inductive Part where
  | whole | start | finish
  deriving DecidableEq, Repr

/-- An attempt on the wire: its SOF in ns after the nominal bell instant, the end of the frame in the same measure, an error
flag and its delimiter included, the outcome, and EOF bit 7 as sampled. Other commands may come between its start and its
end. -/
structure Attempt where
  part : Part
  sof : Nat
  fin : Nat
  line : TxLine
  eof7 : Bool
  deriving DecidableEq, Repr

/-- The fields of a frame that the head sends, as they stand on the wire (R100). -/
structure HeadFrame where
  c : Nat
  mid : Nat
  ft : Nat
  dps : Bool
  seq : Nat
  payload : List Byte
  tag : Option (BitVec 64)
  hcrc : Nat
  crc : Nat
  deriving DecidableEq, Repr

/-- An uncorrectable memory error that the mill meets while it handles a frame (R177, FILT_MEM of 06): in a hashed entry, or in the
placement. -/
inductive MemErr where
  | none | entry | slot
  deriving DecidableEq, Repr

/-- Where an error flag starts (R111). -/
inductive FlagAt where
  | nextBit | afterDps | endOfDataBit | endOfHcrc | firstEof
  deriving DecidableEq, Repr

/-- The line of one channel at a bell: busy at Bn (R72), the outcome of the bell frame, the loop delay measured
at its SOF in ns (R95), and EOF bit 7 as sampled (R112). -/
structure BellLine where
  ch : Nat
  busy : Bool
  line : TxLine
  loopNs : Nat
  eof7 : Bool
  deriving DecidableEq, Repr

/-- The line of each segment at Bn, and, in order, the channels of which a mill completes a piece of work between Cn and Bn (R75). -/
structure BellRun where
  bells : List BellLine
  between : List Nat
  deriving DecidableEq, Repr

/-- The channel whose held frame the mill takes, and the memory error that it meets there. -/
structure PlaceWork where
  ch : Nat
  err : MemErr
  deriving DecidableEq, Repr

/-- The descriptor that the mill copies, and whether it meets an uncorrectable memory error in it (R134). -/
structure CopyWork where
  idx : Nat
  ecc : Bool
  deriving DecidableEq, Repr

/-- The channel within the hamlet at which the halves of a mill disagree, and what other mills disagree at in the same cycle: mill,
port and channel of each (R211, R223). -/
structure Mismatch where
  ch : Nat
  more : List (Nat × Nat × Nat)
  deriving DecidableEq, Repr

/-- The scope of a pennant: what a session or an operation may touch (R263, R272). -/
structure Scope where
  priv : Priv
  segments : BitVec 64
  pages : BitVec 512
  midr : List (Nat × Nat)
  svcops : BitVec 32
  deriving DecidableEq, Repr, Inhabited

/-- The operand of an operation pennant (R276). That of ENROLL holds the key that its WRAP gives, and whether the integrity check of
the unwrap passes (R277). `noMatch` stands for an operand whose length fits no operation. -/
inductive Operand where
  | none
  | digestTick (d : BitVec 384) (tick : Nat)
  | digest (d : BitVec 384)
  | enroll (ch node : Nat) (key : BitVec 256) (wrapOk : Bool)
  | chNode (ch node : Nat)
  | page (p : Nat)
  | floor (v : Nat)
  | slot (k : Nat)
  | slotHash (k : Nat) (h : BitVec 384)
  | noMatch
  deriving DecidableEq, Repr, Inhabited

/-- A pennant (R263). `formOk` says that NMID, OPLEN, the reserved bytes and the length agree (check 1); `apkHash` is the SHA-384 of
its two authority keys; `sigOk` is the outcome of both signature checks (check 10). -/
structure Pennant where
  pver : Nat
  kind : Nat
  auth : Nat
  seq : Nat
  notBefore : Nat
  notAfter : Nat
  device : BitVec 128
  host : BitVec 384
  opcode : Nat
  operand : Operand
  scope : Scope
  formOk : Bool
  apkHash : BitVec 384
  sigOk : Bool
  deriving DecidableEq, Repr, Inhabited

/-- A HELLO body (R268): the session pennant, the hash of the host keys in it, the outcome of the check of both host signatures, the
host's ephemeral keys and nonce, and what the answer needs of it: the SHA-384 of the body and the XID. -/
structure Hello where
  pennant : Pennant
  hostHash : BitVec 384
  hostSigOk : Bool
  kemKey : List Byte
  ecdhKey : List Byte
  nonce : List Byte
  bodyHash : BitVec 384
  xid : Nat
  deriving DecidableEq, Repr

/-- A reassembled PXM body (R267): HELLO, COMMISSION with its 48-byte hash and its XID, or a body of another TYPE. -/
inductive PxmBody where
  | hello (h : Hello)
  | commission (hash : BitVec 384) (xid : Nat)
  | other
  deriving DecidableEq, Repr

/-- A PXM as it arrives (R267): its uplink, source MAC address and PRP number, the fields of its 12-byte header, bytes 10 to 11 of
it as `rsvd`, and its fragment data. -/
structure PxmFrag where
  side : Side
  mac : Nat
  prp : Nat
  ver : Nat
  type : Nat
  frag : Nat
  nfrag : Nat
  sess : Nat
  reason : Nat
  xid : Nat
  total : Nat
  offset : Nat
  rsvd : Nat
  data : List Byte
  deriving DecidableEq, Repr

/-- The header of a URT message (R47), the session of its secure association with the association number and packet number of the
frame (R271), its uplink, source MAC address and PRP number; `count` is the COUNT field. -/
structure UrtHdr where
  side : Side
  mac : Nat
  prp : Nat
  assoc : Option Nat
  an : Nat
  pn : Nat
  ver : Nat
  sess : Nat
  xid : Nat
  count : Nat
  deriving DecidableEq, Repr

/-- A receive descriptor of a DESC section: index and words 0 to 2 (R171, R285). -/
structure RxDescInit where
  d : Nat
  w0 : Word
  w1 : Word
  w2 : Word
  deriving DecidableEq, Repr, Inhabited

/-- One channel of a DESC section (R285). -/
structure ChanDesc where
  ch : Nat
  txBase : Nat
  txCnt : Nat
  rxBase : Nat
  rxCnt : Nat
  rx : List RxDescInit
  deriving DecidableEq, Repr, Inhabited

/-- One channel of a NODES section: the node set as a mask and each node's quiet group (R285, R373). -/
structure ChanNodes where
  ch : Nat
  mask : Nat
  groups : List (Nat × Nat)
  deriving DecidableEq, Repr, Inhabited

/-- A hashed filter entry of an HFILT section: hamlet, index and its four words (R163, R285). -/
structure HashEntry where
  ham : Nat
  idx : Nat
  w0 : Word
  w1 : Word
  w2 : Word
  w3 : Word
  deriving DecidableEq, Repr, Inhabited

/-- A map directory entry (R309). -/
structure PiMap where
  nrec : Nat
  age : Nat
  first : Nat
  ch : Nat
  src : Nat
  deriving DecidableEq, Repr, Inhabited

/-- A map entry (R309). -/
structure PiEnt where
  fmt : Nat
  bit : Nat
  offset : Nat
  record : Nat
  deriving DecidableEq, Repr, Inhabited

/-- The SVC section's entry of one channel (R331). -/
structure SvcRange where
  ch : Nat
  toBase : Nat
  toCnt : Nat
  toGran : Nat
  deriving DecidableEq, Repr, Inhabited

/-- A Glonath package (R284, R285). `digest` is the SHA-384 of its bytes and `apkHash` that of its two authority keys; `formOk` and
`expandOk` are the outcomes of R291 checks 1 and 9 over its bytes, `sigOk` that of check 7. BUDGET is not interpreted. -/
structure Package where
  auth : Nat
  kmax : Nat
  version : Nat
  device : BitVec 128
  compat : BitVec 384
  total : Nat
  fwver : Nat
  prob : Nat
  digest : BitVec 384
  formOk : Bool
  apkHash : BitVec 384
  sigOk : Bool
  expandOk : Bool
  regs : List (Nat × Word)
  hfilt : List HashEntry
  desc : List ChanDesc
  nodes : List ChanNodes
  maps : List PiMap
  ents : List PiEnt
  svc : List SvcRange
  gate : Option (List (Nat × Word × Word))
  deriving DecidableEq, Repr, Inhabited

/-- One evaluation's inputs of a gPTP Sync (R344): the 48-bit origin seconds, the origin nanoseconds and the path
delay PD. The ingress instant is the instant of the command (log entry 2). -/
structure SyncMsg where
  sec : Nat
  ns : Nat
  pd : Nat
  deriving DecidableEq, Repr

/-- A Sync, and that of the other domain which arrives in the same cycle, if one does (R354). -/
structure SyncIn where
  msg : SyncMsg
  also : Option SyncMsg
  deriving DecidableEq, Repr

/-- What an Announce tells beside its grandmaster: currentUtcOffset and stepsRemoved (R343). -/
structure AnnounceIn where
  utc : Nat
  steps : Nat
  deriving DecidableEq, Repr

/-- An in-flight record of an HB frame (R445): channel, descriptor index, outcome 0 on the wire, 1 delivered,
2 ended by error. -/
structure InFlight where
  ch : Nat
  idx : Nat
  outcome : Nat
  deriving DecidableEq, Repr

/-- An HB frame of the partner (R442, R445). -/
structure HbFrame where
  head : Bool
  ready : Bool
  safe : Bool
  vigil : Bool
  wake : Bool
  tick : Nat
  recs : List InFlight
  /-- The tag fails (R442). -/
  badTag : Bool
  deriving DecidableEq, Repr

/-- What the head tells of the epoch of a segment beside its keys (R245, R446): whether a change is asked for or due, its start
tick and deadline, the last activation tick (R250 to R252), POSTP, and the confirmations (R251). -/
structure EpochWire where
  want : Nat
  start : Nat
  deadline : Nat
  last : Nat
  postp : Nat
  confirm : Nat
  deriving DecidableEq, Repr

/-- What a DELTA message carries (R446). -/
inductive Delta where
  | shadow (key : Nat) (mask : Nat) (val : Word)
  | confine (ch tec recv fence : Nat) (scores : List (Nat × Nat))
  | curfew (ch state awake veto : Nat)
  | txDesc (ch idx : Nat) (w0 w1 w2 w3 : Word) (queued : Bool) (payload : List Byte)
  | keys (ch : Nat) (old cur next : Option (Nat × BitVec 256)) (ep : EpochWire)
  | enroll (ch node : Nat) (key : Option (BitVec 256))
  | opSeq (slot seq : Nat)
  | deviceTime (sec ns : Nat)
  | timedOutput (handle sess ch mid apply tick : Nat) (policy late : Bool) (data : List Byte) (ended : Bool)
  | commit (tick deltas : Nat) (digest : Option (BitVec 384))
  | damaged (badTag : Bool)
  deriving DecidableEq, Repr

/-- What a BULK message carries (R447, R456). -/
inductive Bulk where
  | active (p : Package) (headOk : Bool)
  | previous (p : Package) (headOk : Bool)
  | staged (p : Package) (headOk : Bool)
  | arm (tick : Nat)
  | disarm
  | erase
  | rollback (tick : Nat)
  | enrollKeys (ks : List (Nat × Nat × BitVec 256))
  | snapshot (l : List Delta)
  | damaged (packageData badTag : Bool)
  deriving DecidableEq, Repr

/-- The partner's PAIR message: its identity value, whether its signatures verify, and whether all fragments
arrived in order (R443, R444). -/
structure PairMsg where
  peer : BitVec 128
  sigOk : Bool
  whole : Bool
  deriving DecidableEq, Repr

/-- Why a domain is lost (R345). -/
inductive SyncLoss where
  | noSync | notCapable | linkDown
  deriving DecidableEq, Repr

/-- Why an uplink frame is discarded (R60). -/
inductive DiscardKind where
  | noSecTag | macsec
  deriving DecidableEq, Repr

/-- The causes that end vigil (R379). -/
inductive VigilCause where
  | wakePattern (ch : Nat)
  | uplink
  | twin
  | fault
  deriving DecidableEq, Repr

end Sys2Proof
end

