-- ==== Sys2Proof/Syntax.lean ====
section
/-! DEFINITION. The commands: one constructor for each row of spec/opcode_table.json. `w` is the initiator of a
register access, `c` a channel, `p` a page number, `h` a hamlet, `m` a mill, `ses` a session, `rsvd` what a write puts into the reserved bits above its fields. -/

namespace Sys2Proof

inductive Instr where
  -- power and reset (19, 20)
  | powerOnReset (st : Straps)
  | rstN (st : Straps)
  | deviceReset (w : Who) (val : Word) (st : Straps)
  | tapInstruction (t : TapOp) (st : Straps)
  | thermalTrip
  | thermalRecovery (st : Straps)
  | inputLost (a b : Bool)
  | lastGaspRecord
  | holdExhausted
  | inputReturn (x : Side) (st : Straps)
  | revert
  | holdLow (capUf : Nat)
  | vauxOc
  | vauxRetry
  | vauxSwitch (w : Who) (on : Bool)
  | railDev (r : Nat)
  -- registers and faults (02, 16)
  | registerWrite (w : Who) (addr : Nat) (val : Word)
  | blockEnable (w : Who) (p : Nat) (en : Bool)
  | blockSoftReset (w : Who) (p : Nat)
  | freeze (w : Who) (p : Nat) (on : Bool)
  | interruptForce (w : Who) (p : Nat) (bits : Word)
  | faultForce (w : Who) (p : Nat) (bits : Word)
  | faultAck (w : Who) (p : Nat)
  | escalationTimerExpiry (p : Nat)
  | shadowEnd (p : Nat)
  | quietPeriodEnd (p : Nat)
  | safeStateAbdication
  | faultPinPulseEnd (k : Nat)
  -- uplink register transport (02)
  | read (u : UrtHdr) (addr : Nat)
  | write (u : UrtHdr) (addr : Nat) (val : Word)
  | bread (u : UrtHdr) (addr : Nat)
  | bwrite (u : UrtHdr) (addr : Nat) (data : List Word)
  | evack (u : UrtHdr) (seq : Nat)
  | ping (u : UrtHdr)
  | event (ses n : Nat)
  | eventResend (ses : Nat)
  | linkUp (x : Side)
  | linkDown (x : Side)
  -- sessions and pennants (10)
  | pxmFragment (f : PxmFrag)
  | pxmTimeout (x : Side) (mac xid : Nat)
  | hello
  | accept
  | commission
  | sessionOpenTimeout (ses : Nat)
  | sessionLiveTimeout (ses : Nat)
  | sessionExpiry (ses : Nat)
  | penClose (w : Who) (val : Word)
  | keyIndexRollover (ses : Nat) (x : Side) (deviceSends : Bool)
  | oldSakRetire (ses : Nat) (x : Side)
  | penOpgo (w : Who) (len rsvd : Nat)
  | arm
  | rollback
  | enroll
  | revoke
  | rekey
  | unfence
  | release
  | gate
  | debug
  | floor
  | authrev
  | authadd
  | certify
  | rngHealth (apt : Bool)
  | rngRecovery
  -- packages (11)
  | cfgLoadFirst (w : Who) (len rsvd : Nat)
  | cfgLoad (w : Who) (len : Nat)
  | chunkAppended (flashOk : Bool)
  | verify (w : Who)
  | verifyComplete
  | disarm (w : Who)
  | erase (w : Who)
  -- the bell and probation (03, 11)
  | commitPoint (line : BellRun)
  | roleRecordWrite
  | probationEnd
  | sesswaitExpiry
  | returnPkg
  | manualReturn
  | lateBell (lag : Nat) (l : BellLine)
  | bellMissed (c : Nat)
  -- segments (04 to 07)
  | frameAttempt (c : Nat) (t : Attempt)
  | oneShotExpiry (c idx : Nat)
  | timedOutputMissed (handle : Nat)
  | txdTimeout (c : Nat)
  | frameReception (c : Nat) (f : RxFrame)
  | framePlacement (c : PlaceWork)
  | transmitCopy (c : Nat) (idx : CopyWork)
  | tickBoundWork (c : Nat)
  | push (w : Who) (c idx : Nat)
  | abort (w : Who) (c idx : Nat)
  | abortAll (w : Who) (c : Nat)
  | rxrel (w : Who) (c idx count : Nat)
  | pfpop (w : Who) (h count : Nat)
  | boctlRestart (w : Who) (c : Nat)
  | rclr (w : Who) (c : Nat)
  | busOffRecovery (c : Nat)
  | recessiveBitsSampled (c : Nat)
  | stuckDom (c : Nat)
  | stuckEnd (c durUs : Nat)
  | autoUnfence (c a : Nat)
  -- mills (08)
  | lockstepMismatch (m port : Nat) (chInHam : Mismatch)
  | migrateGo (w : Who) (h : Nat)
  | migrationComplete (h durNs : Nat)
  | hamMigtime (h : Nat)
  | hamCtxmem (h : Nat)
  | bistStart (w : Option Who) (m : Nat)
  | bistComplete (m : Nat) (pass : Bool)
  -- keys (09)
  | epochChangeStart (c : Nat) (key : BitVec 256)
  | keyLifeExpiry (c : Nat)
  | keyUseCheck (c : Nat)
  | keyGen (c : Nat)
  | epochDeadline (c : Nat)
  | oldKeyErase (c : Nat)
  | keyFramePush (c a idx : Nat)
  -- services (12)
  | servicesTickWork
  | timedOutputRequest (w : Who) (ses : Nat) (w7 : Word)
  | tocan (w : Who) (val : Word)
  | soerel (w : Who) (count : Nat)
  -- interrupt controller (15)
  | swdb (w : Who) (src : Nat)
  | sourceMask (w : Who) (n : Nat) (en : Bool)
  | delivery (n : Nat)
  | claim (w : Who) (t src tag : Nat)
  | complete (w : Who) (t src : Nat)
  | retraction (t : Nat)
  | coalescingRelease (g : Nat)
  -- gates, counters and captured reads (17, 03, 13)
  | gateCommit (w : Who)
  | gateDrainComplete
  | bslackRestart (w : Who)
  | devTickloRead (w : Who)
  | timeNowloRead (w : Who)
  -- time (13)
  | sync (x : Side) (m : SyncIn)
  | announce (x : Side) (gm : Nat) (utc : AnnounceIn)
  | pdelayReq (x : Side)
  | pdelaySend (x : Side)
  | syncTimeout (x : Side) (why : SyncLoss)
  | timeHoldlim
  -- curfew and vigil (14)
  | curfewCall (c : Nat)
  | curfewCommit (c : Nat)
  | sleep (c : Nat)
  | wakePattern (c : Nat)
  | falseWake (c : Nat)
  | curctlWake (w : Who) (c : Nat)
  | vetoSet (w : Who) (c : Nat)
  | vetoClear (w : Who) (c : Nat)
  | vigilEntry
  | vigilExit (v : VigilCause) (restoreOk : Bool) (st : Straps)
  -- twin (18)
  | hbSend
  | hbReceived (f : HbFrame)
  | hbMissed
  | takeover
  | abdicateFrame
  | abdicate (w : Who)
  | startTimeout
  | twinLinkUp
  | pair (m : PairMsg)
  | delta (m : Delta)
  | bulk (m : Bulk)
  | twinRekey
  | joinTimeout
  -- further rows of the table
  | uplinkFrameDiscard (x : Side) (k : DiscardKind)
  | unknownOp (u : UrtHdr) (op : Nat)
  | sessionLivenessLost (ses : Nat)
  | pdelayResp (x : Side) (mld : Nat) (ratioPpm : Int)
  | holdCharged (capUf : Nat)
  | inputValid (x : Side)
  | railReturn (r : Nat)
  | debugPortClose
  | twinLinkDown
  | headshipLow
  | vigilEntryComplete
  deriving DecidableEq, Repr

end Sys2Proof
end

