-- ==== Sys2Proof/Config.lean ====
section
/-! DEFINITION. The free values: what the spec leaves open and the part fills in some way of its own. Each is a
constant without a body, so that no proof can lean on a value of it (log entry 6). -/

namespace Sys2Proof.Config

open Sys2Proof

/-- DESIGN CHOICE (log entry 6): a fresh open value, applied to the counter `fresh` of the state. -/
opaque freeNat : Nat → Nat

/-- DESIGN CHOICE (log entry 6): an open byte: the bytes of a granule beyond the payload (R173: undefined), those that a vigil entry
writes to the hayloft (R377), applied to the counter and the address. -/
opaque freeByte : Nat → Nat → Byte

/-- DESIGN CHOICE (log entry 6): a byte of the flash window (R13): what of the flash stands where is open, but one flash holds one byte
there. It is applied to the state of the flash, of the type `α`, and the address. -/
opaque flashByte {α : Type} : α → Nat → Byte

/-- DESIGN CHOICE (log entry 6): how many records a host event queue has room for (R318 gives no figure). -/
opaque queueRoom : Nat

/-- DESIGN CHOICE (log entry 6): the power class that the part gives in SCCP classification (PWR_STAT.CLASS: the variant's,
no figure given). -/
opaque powerClass : Nat

/-- The calculations of ML-DSA-65 (scheme 0), ECDSA P-384 (1), ML-KEM-768 (2) and ECDH P-384 (3), which the spec takes from their
standards and the model does not compute (DESIGN CHOICE: log entry 8). A signature check: scheme, public key, message, context
string, signature. -/
opaque verify : Nat → List Byte → List Byte → List Byte → List Byte → Bool

/-- A signature: scheme, private key, message, draw of the random source (log entry 8). -/
opaque sign : Nat → List Byte → List Byte → Nat → List Byte

/-- A key pair of a scheme, private and public key, from a draw of the random source (log entry 8). -/
opaque keyPair : Nat → Nat → List Byte × List Byte

/-- ML-KEM-768 encapsulation: ciphertext and shared secret, from the encapsulation key and a draw; its decapsulation with the private
key (log entry 8). -/
opaque encapsulate : List Byte → Nat → List Byte × List Byte
opaque decapsulate : List Byte → List Byte → List Byte

/-- ECDH P-384 of a private and a public key (log entry 8). -/
opaque ecdh : List Byte → List Byte → List Byte

/-- DESIGN CHOICE (log entry 6): the byte `i` of the draw `n` of the random source (R282). -/
opaque randomByte : Nat → Nat → Byte

/-- DESIGN CHOICE (log entry 6): the storage key that the vault derives from the private identity keys (R244 names no derivation). -/
opaque storageKey : List (List Byte) → BitVec 256

/-- DESIGN CHOICE (log entry 6): the hash of the Zontamen firmware key in the boot ROM mask (R259). -/
opaque firmwareKeyHash : BitVec 384

end Sys2Proof.Config
end

