-- ==== Sys2Proof/Machine/RegMap.lean ====
section
/-! DEFINITION. The register map: every register and every field of the register tables of spec/02 to spec/19,
by the names of R5 (register and field joined by an underscore), each as a place in the register file; and the
access table of R7 that says, page kind by page kind, which fields a register has and what its reset word is. -/

namespace Sys2Proof.Machine

open Sys2Proof

/-- Key of the register word at byte offset `off` of page `p` (R34, R45): 1,024 words a page. -/
def rkey (p off : Nat) : Nat := p * 1024 + off / 4

/-- PG_ID (all pages, +0x000, RO, reset: page constant). -/
def PG_ID (p : Nat) : Nat := rkey p 0x000
def PG_ID_TYPE (p : Nat) : Fld := ⟨PG_ID p, 31, 24⟩
def PG_ID_INST (p : Nat) : Fld := ⟨PG_ID p, 23, 16⟩
def PG_ID_VER (p : Nat) : Fld := ⟨PG_ID p, 7, 0⟩
/-- PG_CTL (all pages, +0x004, RW, reset 0x0000_0000). -/
def PG_CTL (p : Nat) : Nat := rkey p 0x004
def PG_CTL_FREEZE (p : Nat) : Fld := ⟨PG_CTL p, 2, 2⟩
def PG_CTL_SRST (p : Nat) : Fld := ⟨PG_CTL p, 1, 1⟩
def PG_CTL_EN (p : Nat) : Fld := ⟨PG_CTL p, 0, 0⟩
/-- PG_STAT (all pages, +0x008, RO, reset 0x0000_0000). -/
def PG_STAT (p : Nat) : Nat := rkey p 0x008
def PG_STAT_COMMITPEND (p : Nat) : Fld := ⟨PG_STAT p, 4, 4⟩
def PG_STAT_WIGN (p : Nat) : Fld := ⟨PG_STAT p, 3, 3⟩
def PG_STAT_FLIVE (p : Nat) : Fld := ⟨PG_STAT p, 2, 2⟩
def PG_STAT_BUSY (p : Nat) : Fld := ⟨PG_STAT p, 1, 1⟩
def PG_STAT_RUN (p : Nat) : Fld := ⟨PG_STAT p, 0, 0⟩
/-- PG_GEN (all pages, +0x00C, RO, reset 0x0000_0000). -/
def PG_GEN (p : Nat) : Nat := rkey p 0x00C
def PG_GEN_GEN (p : Nat) : Fld := ⟨PG_GEN p, 31, 0⟩
/-- PG_IST (all pages, +0x010, W1C, reset 0x0000_0000). -/
def PG_IST (p : Nat) : Nat := rkey p 0x010
def PG_IST_FLT (p : Nat) : Fld := ⟨PG_IST p, 31, 31⟩
def PG_IST_IST (p : Nat) : Fld := ⟨PG_IST p, 30, 0⟩
/-- PG_IEN (all pages, +0x014, RW, reset 0x0000_0000). -/
def PG_IEN (p : Nat) : Nat := rkey p 0x014
def PG_IEN_IEN (p : Nat) : Fld := ⟨PG_IEN p, 31, 0⟩
/-- PG_IFRC (all pages, +0x018, WO, reset 0x0000_0000). -/
def PG_IFRC (p : Nat) : Nat := rkey p 0x018
def PG_IFRC_IFRC (p : Nat) : Fld := ⟨PG_IFRC p, 31, 0⟩
/-- PG_FLT (all pages, +0x01C, RO, reset 0x0000_0000). -/
def PG_FLT (p : Nat) : Nat := rkey p 0x01C
def PG_FLT_VALID (p : Nat) : Fld := ⟨PG_FLT p, 31, 31⟩
def PG_FLT_TRANSIENT (p : Nat) : Fld := ⟨PG_FLT p, 30, 30⟩
def PG_FLT_SECONDARY (p : Nat) : Fld := ⟨PG_FLT p, 29, 29⟩
def PG_FLT_SEV (p : Nat) : Fld := ⟨PG_FLT p, 25, 24⟩
def PG_FLT_CAUSE (p : Nat) : Fld := ⟨PG_FLT p, 20, 12⟩
def PG_FLT_CODE (p : Nat) : Fld := ⟨PG_FLT p, 7, 0⟩
/-- PG_FLTX (all pages, +0x020, RO, reset 0x0000_0000). -/
def PG_FLTX (p : Nat) : Nat := rkey p 0x020
def PG_FLTX_MAXSEV (p : Nat) : Fld := ⟨PG_FLTX p, 17, 16⟩
def PG_FLTX_COUNT (p : Nat) : Fld := ⟨PG_FLTX p, 15, 0⟩
/-- PG_FFRC (all pages, +0x024, WO, reset 0x0000_0000). -/
def PG_FFRC (p : Nat) : Nat := rkey p 0x024
def PG_FFRC_FORCE (p : Nat) : Fld := ⟨PG_FFRC p, 31, 0⟩
/-- PG_FACK (all pages, +0x028, WO, reset 0x0000_0000). -/
def PG_FACK (p : Nat) : Nat := rkey p 0x028
def PG_FACK_ACK (p : Nat) : Fld := ⟨PG_FACK p, 0, 0⟩
/-- PG_ESC (all pages, +0x02C, RW, reset: per block). -/
def PG_ESC (p : Nat) : Nat := rkey p 0x02C
def PG_ESC_SHADOW (p : Nat) : Fld := ⟨PG_ESC p, 31, 28⟩
def PG_ESC_LIMIT (p : Nat) : Fld := ⟨PG_ESC p, 27, 26⟩
def PG_ESC_TIME (p : Nat) : Fld := ⟨PG_ESC p, 23, 0⟩
/-- PG_RCNT (all pages, +0x030, RO, reset 0x0000_0000). -/
def PG_RCNT (p : Nat) : Nat := rkey p 0x030
def PG_RCNT_COUNT (p : Nat) : Fld := ⟨PG_RCNT p, 7, 0⟩
/-- PG_QUIET (all pages, +0x034, RW, reset: per block). -/
def PG_QUIET (p : Nat) : Nat := rkey p 0x034
def PG_QUIET_RLIM (p : Nat) : Fld := ⟨PG_QUIET p, 31, 24⟩
def PG_QUIET_QUIET (p : Nat) : Fld := ⟨PG_QUIET p, 23, 0⟩
/-- UPL_LINK (UPLA, +0x040, RO, reset 0x0000_0000 (UPLB_LINK in UPLB)). -/
def UPL_LINK (u : Nat) : Nat := rkey (0x074 + 4 * u) 0x040
def UPL_LINK_UP (u : Nat) : Fld := ⟨UPL_LINK u, 31, 31⟩
def UPL_LINK_MODE (u : Nat) : Fld := ⟨UPL_LINK u, 30, 30⟩
def UPL_LINK_PODL (u : Nat) : Fld := ⟨UPL_LINK u, 29, 28⟩
def UPL_LINK_DOWNS (u : Nat) : Fld := ⟨UPL_LINK u, 15, 0⟩
/-- UPL_DISC0 (UPLA, +0x044, RO, reset 0x0000_0000). -/
def UPL_DISC0 (u : Nat) : Nat := rkey (0x074 + 4 * u) 0x044
def UPL_DISC0_NOSECTAG (u : Nat) : Fld := ⟨UPL_DISC0 u, 31, 16⟩
def UPL_DISC0_MACSEC (u : Nat) : Fld := ⟨UPL_DISC0 u, 15, 0⟩
/-- UPL_DISC1 (UPLA, +0x048, RO, reset 0x0000_0000). -/
def UPL_DISC1 (u : Nat) : Nat := rkey (0x074 + 4 * u) 0x048
def UPL_DISC1_URT (u : Nat) : Fld := ⟨UPL_DISC1 u, 31, 16⟩
def UPL_DISC1_DUP (u : Nat) : Fld := ⟨UPL_DISC1 u, 15, 0⟩
/-- UPL_DISC2 (UPLA, +0x04C, RO, reset 0x0000_0000). -/
def UPL_DISC2 (u : Nat) : Nat := rkey (0x074 + 4 * u) 0x04C
def UPL_DISC2_PXMTO (u : Nat) : Fld := ⟨UPL_DISC2 u, 15, 0⟩
/-- UPL_RXCNT (UPLA, +0x050, RO, reset 0x0000_0000). -/
def UPL_RXCNT (u : Nat) : Nat := rkey (0x074 + 4 * u) 0x050
def UPL_RXCNT_COUNT (u : Nat) : Fld := ⟨UPL_RXCNT u, 31, 0⟩
/-- UPL_TXCNT (UPLA, +0x054, RO, reset 0x0000_0000). -/
def UPL_TXCNT (u : Nat) : Nat := rkey (0x074 + 4 * u) 0x054
def UPL_TXCNT_COUNT (u : Nat) : Fld := ⟨UPL_TXCNT u, 31, 0⟩
/-- DEV_BPERIOD (DEV, +0x040, RO, reset 0x0000_0010). -/
def DEV_BPERIOD : Nat := rkey 0x002 0x040
def DEV_BPERIOD_STEPS : Fld := ⟨DEV_BPERIOD, 8, 0⟩
/-- DEV_TICKLO (DEV, +0x044, RO, reset 0x0000_0000). -/
def DEV_TICKLO : Nat := rkey 0x002 0x044
def DEV_TICKLO_TICK : Fld := ⟨DEV_TICKLO, 31, 0⟩
/-- DEV_TICKHI (DEV, +0x048, RO, reset 0x0000_0000). -/
def DEV_TICKHI : Nat := rkey 0x002 0x048
def DEV_TICKHI_TICK : Fld := ⟨DEV_TICKHI, 15, 0⟩
/-- DEV_TOVRCNT (DEV, +0x04C, RO, reset 0x0000_0000). -/
def DEV_TOVRCNT : Nat := rkey 0x002 0x04C
def DEV_TOVRCNT_COUNT : Fld := ⟨DEV_TOVRCNT, 31, 0⟩
/-- DEV_TOVRSRC (DEV, +0x050, RO, reset 0x0000_0000). -/
def DEV_TOVRSRC : Nat := rkey 0x002 0x050
def DEV_TOVRSRC_TICK : Fld := ⟨DEV_TOVRSRC, 31, 16⟩
def DEV_TOVRSRC_SVC : Fld := ⟨DEV_TOVRSRC, 8, 8⟩
def DEV_TOVRSRC_HAM : Fld := ⟨DEV_TOVRSRC, 7, 0⟩
/-- DEV_BSLACK (DEV, +0x054, RO, reset 0x00FF_FFFF). -/
def DEV_BSLACK : Nat := rkey 0x002 0x054
def DEV_BSLACK_RESTART : Fld := ⟨DEV_BSLACK, 31, 31⟩
def DEV_BSLACK_MIN : Fld := ⟨DEV_BSLACK, 23, 0⟩
/-- CHC_WIN (CHC, +0x0C0, RO, reset 0x0000_0000). -/
def CHC_WIN (c : Nat) : Nat := rkey (0x100 + 4 * c + 0) 0x0C0
def CHC_WIN_SCHED_END (c : Nat) : Fld := ⟨CHC_WIN c, 31, 16⟩
def CHC_WIN_ARB_END (c : Nat) : Fld := ⟨CHC_WIN c, 15, 0⟩
/-- CHC_BELLCNT (CHC, +0x0C4, RO, reset 0x0000_0000). -/
def CHC_BELLCNT (c : Nat) : Nat := rkey (0x100 + 4 * c + 0) 0x0C4
def CHC_BELLCNT_LATE (c : Nat) : Fld := ⟨CHC_BELLCNT c, 31, 16⟩
def CHC_BELLCNT_MISS (c : Nat) : Fld := ⟨CHC_BELLCNT c, 15, 0⟩
/-- CHC_BELLLAG (CHC, +0x0C8, RO, reset 0x0000_0000). -/
def CHC_BELLLAG (c : Nat) : Nat := rkey (0x100 + 4 * c + 0) 0x0C8
def CHC_BELLLAG_LAST (c : Nat) : Fld := ⟨CHC_BELLLAG c, 31, 16⟩
def CHC_BELLLAG_MAX (c : Nat) : Fld := ⟨CHC_BELLLAG c, 15, 0⟩
/-- CHC_LINE (CHC, +0x040, RWS, reset 0x0000_0000). -/
def CHC_LINE (c : Nat) : Nat := rkey (0x100 + 4 * c + 0) 0x040
def CHC_LINE_SLOWOK (c : Nat) : Fld := ⟨CHC_LINE c, 31, 31⟩
def CHC_LINE_ARATE (c : Nat) : Fld := ⟨CHC_LINE c, 30, 28⟩
def CHC_LINE_DRATE (c : Nat) : Fld := ⟨CHC_LINE c, 27, 25⟩
/-- CHC_ABT (CHC, +0x044, RWS, reset 0xA014_5099). -/
def CHC_ABT (c : Nat) : Nat := rkey (0x100 + 4 * c + 0) 0x044
def CHC_ABT_BRP (c : Nat) : Fld := ⟨CHC_ABT c, 31, 24⟩
def CHC_ABT_PROP (c : Nat) : Fld := ⟨CHC_ABT c, 23, 16⟩
def CHC_ABT_PH1 (c : Nat) : Fld := ⟨CHC_ABT c, 15, 10⟩
def CHC_ABT_PH2 (c : Nat) : Fld := ⟨CHC_ABT c, 9, 4⟩
def CHC_ABT_SJW (c : Nat) : Fld := ⟨CHC_ABT c, 3, 0⟩
/-- CHC_DBT (CHC, +0x048, RWS, reset 0x100E_2A8F). -/
def CHC_DBT (c : Nat) : Nat := rkey (0x100 + 4 * c + 0) 0x048
def CHC_DBT_BRP (c : Nat) : Fld := ⟨CHC_DBT c, 31, 24⟩
def CHC_DBT_PH1 (c : Nat) : Fld := ⟨CHC_DBT c, 21, 16⟩
def CHC_DBT_PH2 (c : Nat) : Fld := ⟨CHC_DBT c, 15, 10⟩
def CHC_DBT_SJW (c : Nat) : Fld := ⟨CHC_DBT c, 9, 6⟩
def CHC_DBT_SSPOFF (c : Nat) : Fld := ⟨CHC_DBT c, 5, 0⟩
/-- CHC_LDLY (CHC, +0x04C, RO, reset 0x0000_0000). -/
def CHC_LDLY (c : Nat) : Nat := rkey (0x100 + 4 * c + 0) 0x04C
def CHC_LDLY_MAX (c : Nat) : Fld := ⟨CHC_LDLY c, 31, 24⟩
def CHC_LDLY_MIN (c : Nat) : Fld := ⟨CHC_LDLY c, 23, 16⟩
def CHC_LDLY_LAST (c : Nat) : Fld := ⟨CHC_LDLY c, 7, 0⟩
/-- CHC_XCVR (CHC, +0x050, RW, reset 0x0000_0000). -/
def CHC_XCVR (c : Nat) : Nat := rkey (0x100 + 4 * c + 0) 0x050
def CHC_XCVR_HBSTOP (c : Nat) : Fld := ⟨CHC_XCVR c, 1, 1⟩
def CHC_XCVR_STBYFORCE (c : Nat) : Fld := ⟨CHC_XCVR c, 0, 0⟩
/-- CHC_XSTAT (CHC, +0x054, RO, reset 0x0000_0000). -/
def CHC_XSTAT (c : Nat) : Nat := rkey (0x100 + 4 * c + 0) 0x054
def CHC_XSTAT_TXDTOCNT (c : Nat) : Fld := ⟨CHC_XSTAT c, 15, 8⟩
def CHC_XSTAT_HEAD (c : Nat) : Fld := ⟨CHC_XSTAT c, 6, 6⟩
def CHC_XSTAT_HB (c : Nat) : Fld := ⟨CHC_XSTAT c, 5, 5⟩
def CHC_XSTAT_WAKE (c : Nat) : Fld := ⟨CHC_XSTAT c, 4, 4⟩
def CHC_XSTAT_STBY (c : Nat) : Fld := ⟨CHC_XSTAT c, 3, 3⟩
def CHC_XSTAT_MODE (c : Nat) : Fld := ⟨CHC_XSTAT c, 2, 2⟩
def CHC_XSTAT_RXD (c : Nat) : Fld := ⟨CHC_XSTAT c, 1, 1⟩
def CHC_XSTAT_TXD (c : Nat) : Fld := ⟨CHC_XSTAT c, 0, 0⟩
/-- CHT_TXRANGE (CHT, +0x040, RO, reset 0x0000_0000). -/
def CHT_TXRANGE (c : Nat) : Nat := rkey (0x100 + 4 * c + 1) 0x040
def CHT_TXRANGE_CNT (c : Nat) : Fld := ⟨CHT_TXRANGE c, 30, 16⟩
def CHT_TXRANGE_BASE (c : Nat) : Fld := ⟨CHT_TXRANGE c, 13, 0⟩
/-- CHT_TXADDR (CHT, +0x044, RO, reset 0x0000_0000). -/
def CHT_TXADDR (c : Nat) : Nat := rkey (0x100 + 4 * c + 1) 0x044
def CHT_TXADDR_ADDR (c : Nat) : Fld := ⟨CHT_TXADDR c, 31, 0⟩
/-- CHT_AGELIM (CHT, +0x048, RWS, reset 0x0000_0010). -/
def CHT_AGELIM (c : Nat) : Nat := rkey (0x100 + 4 * c + 1) 0x048
def CHT_AGELIM_AGELIM (c : Nat) : Fld := ⟨CHT_AGELIM c, 7, 0⟩
/-- CHT_QPUSH (CHT, +0x04C, WO, reset 0x0000_0000). -/
def CHT_QPUSH (c : Nat) : Nat := rkey (0x100 + 4 * c + 1) 0x04C
def CHT_QPUSH_INDEX (c : Nat) : Fld := ⟨CHT_QPUSH c, 13, 0⟩
/-- CHT_ABORT (CHT, +0x050, WO, reset 0x0000_0000). -/
def CHT_ABORT (c : Nat) : Nat := rkey (0x100 + 4 * c + 1) 0x050
def CHT_ABORT_ALL (c : Nat) : Fld := ⟨CHT_ABORT c, 31, 31⟩
def CHT_ABORT_INDEX (c : Nat) : Fld := ⟨CHT_ABORT c, 13, 0⟩
/-- CHT_QSTAT (CHT, +0x054, RO, reset 0x0000_0000). -/
def CHT_QSTAT (c : Nat) : Nat := rkey (0x100 + 4 * c + 1) 0x054
def CHT_QSTAT_INFL (c : Nat) : Fld := ⟨CHT_QSTAT c, 31, 31⟩
def CHT_QSTAT_PRI (c : Nat) : Fld := ⟨CHT_QSTAT c, 29, 16⟩
def CHT_QSTAT_SCHED (c : Nat) : Fld := ⟨CHT_QSTAT c, 15, 8⟩
def CHT_QSTAT_ONESHOT (c : Nat) : Fld := ⟨CHT_QSTAT c, 7, 0⟩
/-- CHT_CUR (CHT, +0x058, RO, reset 0x0000_0000). -/
def CHT_CUR (c : Nat) : Nat := rkey (0x100 + 4 * c + 1) 0x058
def CHT_CUR_VALID (c : Nat) : Fld := ⟨CHT_CUR c, 31, 31⟩
def CHT_CUR_EC (c : Nat) : Fld := ⟨CHT_CUR c, 30, 28⟩
def CHT_CUR_ATT (c : Nat) : Fld := ⟨CHT_CUR c, 27, 24⟩
def CHT_CUR_INDEX (c : Nat) : Fld := ⟨CHT_CUR c, 13, 0⟩
/-- CHT_SENTCNT (CHT, +0x05C, RO, reset 0x0000_0000). -/
def CHT_SENTCNT (c : Nat) : Nat := rkey (0x100 + 4 * c + 1) 0x05C
def CHT_SENTCNT_COUNT (c : Nat) : Fld := ⟨CHT_SENTCNT c, 31, 0⟩
/-- CHT_ERRCNT (CHT, +0x060, RO, reset 0x0000_0000). -/
def CHT_ERRCNT (c : Nat) : Nat := rkey (0x100 + 4 * c + 1) 0x060
def CHT_ERRCNT_COUNT (c : Nat) : Fld := ⟨CHT_ERRCNT c, 31, 0⟩
/-- CHT_LOSTCNT (CHT, +0x064, RO, reset 0x0000_0000). -/
def CHT_LOSTCNT (c : Nat) : Nat := rkey (0x100 + 4 * c + 1) 0x064
def CHT_LOSTCNT_COUNT (c : Nat) : Fld := ⟨CHT_LOSTCNT c, 31, 0⟩
/-- CHT_MISC (CHT, +0x068, RO, reset 0x0000_0000). -/
def CHT_MISC (c : Nat) : Nat := rkey (0x100 + 4 * c + 1) 0x068
def CHT_MISC_PROM (c : Nat) : Fld := ⟨CHT_MISC c, 31, 16⟩
def CHT_MISC_SKIP (c : Nat) : Fld := ⟨CHT_MISC c, 15, 0⟩
/-- CHT_ENDCNT (CHT, +0x06C, RO, reset 0x0000_0000). -/
def CHT_ENDCNT (c : Nat) : Nat := rkey (0x100 + 4 * c + 1) 0x06C
def CHT_ENDCNT_SCOPE (c : Nat) : Fld := ⟨CHT_ENDCNT c, 31, 24⟩
def CHT_ENDCNT_FAILED (c : Nat) : Fld := ⟨CHT_ENDCNT c, 23, 16⟩
def CHT_ENDCNT_EXPIRED (c : Nat) : Fld := ⟨CHT_ENDCNT c, 15, 8⟩
def CHT_ENDCNT_ABORTED (c : Nat) : Fld := ⟨CHT_ENDCNT c, 7, 0⟩
/-- CHX_RXRANGE (CHX, +0x040, RO, reset 0x0000_0000). -/
def CHX_RXRANGE (c : Nat) : Nat := rkey (0x100 + 4 * c + 2) 0x040
def CHX_RXRANGE_CNT (c : Nat) : Fld := ⟨CHX_RXRANGE c, 30, 16⟩
def CHX_RXRANGE_BASE (c : Nat) : Fld := ⟨CHX_RXRANGE c, 13, 0⟩
/-- CHX_RXADDR (CHX, +0x044, RO, reset 0x0000_0000). -/
def CHX_RXADDR (c : Nat) : Nat := rkey (0x100 + 4 * c + 2) 0x044
def CHX_RXADDR_ADDR (c : Nat) : Fld := ⟨CHX_RXADDR c, 31, 0⟩
/-- CHX_RXCFG (CHX, +0x048, RWS, reset 0x0000_0000). -/
def CHX_RXCFG (c : Nat) : Nat := rkey (0x100 + 4 * c + 2) 0x048
def CHX_RXCFG_NOMATCH (c : Nat) : Fld := ⟨CHX_RXCFG c, 31, 31⟩
def CHX_RXCFG_DEFDESC (c : Nat) : Fld := ⟨CHX_RXCFG c, 13, 0⟩
/-- CHX_RXREL (CHX, +0x04C, WO, reset 0x0000_0000). -/
def CHX_RXREL (c : Nat) : Nat := rkey (0x100 + 4 * c + 2) 0x04C
def CHX_RXREL_COUNT (c : Nat) : Fld := ⟨CHX_RXREL c, 31, 24⟩
def CHX_RXREL_INDEX (c : Nat) : Fld := ⟨CHX_RXREL c, 13, 0⟩
/-- CHX_RXCNT (CHX, +0x050, RO, reset 0x0000_0000). -/
def CHX_RXCNT (c : Nat) : Nat := rkey (0x100 + 4 * c + 2) 0x050
def CHX_RXCNT_COUNT (c : Nat) : Fld := ⟨CHX_RXCNT c, 31, 0⟩
/-- CHX_MATCH (CHX, +0x054, RO, reset 0x0000_0000). -/
def CHX_MATCH (c : Nat) : Nat := rkey (0x100 + 4 * c + 2) 0x054
def CHX_MATCH_HASH (c : Nat) : Fld := ⟨CHX_MATCH c, 31, 16⟩
def CHX_MATCH_MASK (c : Nat) : Fld := ⟨CHX_MATCH c, 15, 0⟩
/-- CHX_MISSCNT (CHX, +0x058, RO, reset 0x0000_0000). -/
def CHX_MISSCNT (c : Nat) : Nat := rkey (0x100 + 4 * c + 2) 0x058
def CHX_MISSCNT_NOMATCH (c : Nat) : Fld := ⟨CHX_MISSCNT c, 31, 16⟩
def CHX_MISSCNT_DROP (c : Nat) : Fld := ⟨CHX_MISSCNT c, 15, 0⟩
/-- CHX_OVFCNT (CHX, +0x05C, RO, reset 0x0000_0000). -/
def CHX_OVFCNT (c : Nat) : Nat := rkey (0x100 + 4 * c + 2) 0x05C
def CHX_OVFCNT_OVF (c : Nat) : Fld := ⟨CHX_OVFCNT c, 31, 16⟩
def CHX_OVFCNT_TRUNC (c : Nat) : Fld := ⟨CHX_OVFCNT c, 15, 0⟩
/-- CHX_REFCNT (CHX, +0x060, RO, reset 0x0000_0000). -/
def CHX_REFCNT (c : Nat) : Nat := rkey (0x100 + 4 * c + 2) 0x060
def CHX_REFCNT_UNTAG (c : Nat) : Fld := ⟨CHX_REFCNT c, 31, 24⟩
def CHX_REFCNT_TAG (c : Nat) : Fld := ⟨CHX_REFCNT c, 23, 16⟩
def CHX_REFCNT_REPLAY (c : Nat) : Fld := ⟨CHX_REFCNT c, 15, 8⟩
def CHX_REFCNT_FENCED (c : Nat) : Fld := ⟨CHX_REFCNT c, 7, 0⟩
/-- CHX_LOSSCNT (CHX, +0x064, RO, reset 0x0000_0000). -/
def CHX_LOSSCNT (c : Nat) : Nat := rkey (0x100 + 4 * c + 2) 0x064
def CHX_LOSSCNT_IGNQ (c : Nat) : Fld := ⟨CHX_LOSSCNT c, 31, 16⟩
def CHX_LOSSCNT_HOLDOVF (c : Nat) : Fld := ⟨CHX_LOSSCNT c, 15, 0⟩
/-- CHX_MF (CHX, +0x400 + 16 × i, i = 0 to 63, four words, RWS, reset 0x0000_0000). -/
def CHX_MF (c : Nat) (i : Nat) (j : Nat) : Nat := rkey (0x100 + 4 * c + 2) (0x400 + 16 * i + 4 * j)
def CHX_MF_W (c : Nat) (i : Nat) (j : Nat) : Fld := ⟨CHX_MF c i j, 31, 0⟩
/-- CHX_MHIT (CHX, +0x800 + 4 × i, i = 0 to 63, RO, reset 0x0000_0000). -/
def CHX_MHIT (c : Nat) (i : Nat) : Nat := rkey (0x100 + 4 * c + 2) (0x800 + 4 * i)
def CHX_MHIT_COUNT (c : Nat) (i : Nat) : Fld := ⟨CHX_MHIT c i, 31, 0⟩
/-- HAM_FILTADDR (HAM, +0x100, RO, reset 0x0000_0000). -/
def HAM_FILTADDR (h : Nat) : Nat := rkey (0x090 + h) 0x100
def HAM_FILTADDR_ADDR (h : Nat) : Fld := ⟨HAM_FILTADDR h, 31, 0⟩
/-- HAM_PFCTL (HAM, +0x104, RW, reset 0x0000_0000). -/
def HAM_PFCTL (h : Nat) : Nat := rkey (0x090 + h) 0x104
def HAM_PFCTL_OVW (h : Nat) : Fld := ⟨HAM_PFCTL h, 1, 1⟩
def HAM_PFCTL_FENCEPF (h : Nat) : Fld := ⟨HAM_PFCTL h, 0, 0⟩
/-- HAM_PFSTAT (HAM, +0x108, RO, reset 0x0000_0000). -/
def HAM_PFSTAT (h : Nat) : Nat := rkey (0x090 + h) 0x108
def HAM_PFSTAT_LOST (h : Nat) : Fld := ⟨HAM_PFSTAT h, 31, 16⟩
def HAM_PFSTAT_RD (h : Nat) : Fld := ⟨HAM_PFSTAT h, 13, 8⟩
def HAM_PFSTAT_FILL (h : Nat) : Fld := ⟨HAM_PFSTAT h, 6, 0⟩
/-- HAM_PFPOP (HAM, +0x10C, WO, reset 0x0000_0000). -/
def HAM_PFPOP (h : Nat) : Nat := rkey (0x090 + h) 0x10C
def HAM_PFPOP_COUNT (h : Nat) : Fld := ⟨HAM_PFPOP h, 6, 0⟩
/-- HAM_PF (HAM, +0x800 + 32 × i, i = 0 to 63, eight words, RO, reset 0x0000_0000). -/
def HAM_PF (h : Nat) (i : Nat) (j : Nat) : Nat := rkey (0x090 + h) (0x800 + 32 * i + 4 * j)
def HAM_PF_W (h : Nat) (i : Nat) (j : Nat) : Fld := ⟨HAM_PF h i j, 31, 0⟩
/-- CHS_TEC (CHS, +0x040, RO, reset 0x0000_0000). -/
def CHS_TEC (c : Nat) : Nat := rkey (0x100 + 4 * c + 3) 0x040
def CHS_TEC_STATE (c : Nat) : Fld := ⟨CHS_TEC c, 31, 30⟩
def CHS_TEC_STUCK (c : Nat) : Fld := ⟨CHS_TEC c, 29, 29⟩
def CHS_TEC_WARN (c : Nat) : Fld := ⟨CHS_TEC c, 28, 28⟩
def CHS_TEC_TEC (c : Nat) : Fld := ⟨CHS_TEC c, 8, 0⟩
/-- CHS_REC (CHS, +0x044, RO, reset 0x0000_0000). -/
def CHS_REC (c : Nat) : Nat := rkey (0x100 + 4 * c + 3) 0x044
def CHS_REC_REC (c : Nat) : Fld := ⟨CHS_REC c, 7, 0⟩
/-- CHS_BOCFG (CHS, +0x048, RWS, reset 0x0000_0208). -/
def CHS_BOCFG (c : Nat) : Nat := rkey (0x100 + 4 * c + 3) 0x048
def CHS_BOCFG_MODE (c : Nat) : Fld := ⟨CHS_BOCFG c, 9, 8⟩
def CHS_BOCFG_BOLIM (c : Nat) : Fld := ⟨CHS_BOCFG c, 7, 0⟩
/-- CHS_BOCTL (CHS, +0x04C, W1S, reset 0x0000_0000). -/
def CHS_BOCTL (c : Nat) : Nat := rkey (0x100 + 4 * c + 3) 0x04C
def CHS_BOCTL_RCLR (c : Nat) : Fld := ⟨CHS_BOCTL c, 1, 1⟩
def CHS_BOCTL_RESTART (c : Nat) : Fld := ⟨CHS_BOCTL c, 0, 0⟩
/-- CHS_BOSTAT (CHS, +0x050, RO, reset 0x0000_0000). -/
def CHS_BOSTAT (c : Nat) : Nat := rkey (0x100 + 4 * c + 3) 0x050
def CHS_BOSTAT_RCNT (c : Nat) : Fld := ⟨CHS_BOSTAT c, 31, 24⟩
def CHS_BOSTAT_SEQ (c : Nat) : Fld := ⟨CHS_BOSTAT c, 21, 16⟩
def CHS_BOSTAT_ENTRIES (c : Nat) : Fld := ⟨CHS_BOSTAT c, 15, 0⟩
/-- CHS_NSCFG (CHS, +0x054, RWP, reset 0x0000_0001). -/
def CHS_NSCFG (c : Nat) : Nat := rkey (0x100 + 4 * c + 3) 0x054
def CHS_NSCFG_AUTOUNF (c : Nat) : Fld := ⟨CHS_NSCFG c, 1, 1⟩
def CHS_NSCFG_REFSC (c : Nat) : Fld := ⟨CHS_NSCFG c, 0, 0⟩
/-- CHS_FENCEHOLD (CHS, +0x058, RWP, reset 0x0000_2710). -/
def CHS_FENCEHOLD (c : Nat) : Nat := rkey (0x100 + 4 * c + 3) 0x058
def CHS_FENCEHOLD_HOLD (c : Nat) : Fld := ⟨CHS_FENCEHOLD c, 23, 0⟩
/-- CHS_FENCE (CHS, +0x05C, RO, reset 0x0000_0000). -/
def CHS_FENCE (c : Nat) : Nat := rkey (0x100 + 4 * c + 3) 0x05C
def CHS_FENCE_MASK (c : Nat) : Fld := ⟨CHS_FENCE c, 31, 1⟩
/-- CHS_WARNM (CHS, +0x060, RO, reset 0x0000_0000). -/
def CHS_WARNM (c : Nat) : Nat := rkey (0x100 + 4 * c + 3) 0x060
def CHS_WARNM_MASK (c : Nat) : Fld := ⟨CHS_WARNM c, 31, 1⟩
/-- CHS_FCNT (CHS, +0x064, RO, reset 0x0000_0000). -/
def CHS_FCNT (c : Nat) : Nat := rkey (0x100 + 4 * c + 3) 0x064
def CHS_FCNT_FENCE (c : Nat) : Fld := ⟨CHS_FCNT c, 31, 16⟩
def CHS_FCNT_UNFAUTO (c : Nat) : Fld := ⟨CHS_FCNT c, 15, 8⟩
def CHS_FCNT_UNFPEN (c : Nat) : Fld := ⟨CHS_FCNT c, 7, 0⟩
/-- CHS_ECNT0 (CHS, +0x068, RO, reset 0x0000_0000). -/
def CHS_ECNT0 (c : Nat) : Nat := rkey (0x100 + 4 * c + 3) 0x068
def CHS_ECNT0_BIT (c : Nat) : Fld := ⟨CHS_ECNT0 c, 31, 16⟩
def CHS_ECNT0_STUFF (c : Nat) : Fld := ⟨CHS_ECNT0 c, 15, 0⟩
/-- CHS_ECNT1 (CHS, +0x06C, RO, reset 0x0000_0000). -/
def CHS_ECNT1 (c : Nat) : Nat := rkey (0x100 + 4 * c + 3) 0x06C
def CHS_ECNT1_FORM (c : Nat) : Fld := ⟨CHS_ECNT1 c, 31, 16⟩
def CHS_ECNT1_HCRC (c : Nat) : Fld := ⟨CHS_ECNT1 c, 15, 0⟩
/-- CHS_ECNT2 (CHS, +0x070, RO, reset 0x0000_0000). -/
def CHS_ECNT2 (c : Nat) : Nat := rkey (0x100 + 4 * c + 3) 0x070
def CHS_ECNT2_CRC (c : Nat) : Fld := ⟨CHS_ECNT2 c, 31, 16⟩
def CHS_ECNT2_ACK (c : Nat) : Fld := ⟨CHS_ECNT2 c, 15, 8⟩
def CHS_ECNT2_GUARD (c : Nat) : Fld := ⟨CHS_ECNT2 c, 7, 0⟩
/-- CHS_ANOM (CHS, +0x074, RO, reset 0x0000_0000). -/
def CHS_ANOM (c : Nat) : Nat := rkey (0x100 + 4 * c + 3) 0x074
def CHS_ANOM_SRC0SPOOF (c : Nat) : Fld := ⟨CHS_ANOM c, 31, 24⟩
def CHS_ANOM_AUTHFORGE (c : Nat) : Fld := ⟨CHS_ANOM c, 23, 16⟩
def CHS_ANOM_EOF7 (c : Nat) : Fld := ⟨CHS_ANOM c, 15, 8⟩
def CHS_ANOM_FROZEN (c : Nat) : Fld := ⟨CHS_ANOM c, 7, 0⟩
/-- CHS_STUCK (CHS, +0x078, RO, reset 0x0000_0000). -/
def CHS_STUCK (c : Nat) : Nat := rkey (0x100 + 4 * c + 3) 0x078
def CHS_STUCK_COUNT (c : Nat) : Fld := ⟨CHS_STUCK c, 31, 24⟩
def CHS_STUCK_MAXDUR (c : Nat) : Fld := ⟨CHS_STUCK c, 23, 0⟩
/-- CHS_NODE (CHS, +0x100 + 4 × a, a = 0 to 31, RO, reset 0x0000_0000). -/
def CHS_NODE (c : Nat) (a : Nat) : Nat := rkey (0x100 + 4 * c + 3) (0x100 + 4 * a)
def CHS_NODE_FENCED (c : Nat) (a : Nat) : Fld := ⟨CHS_NODE c a, 31, 31⟩
def CHS_NODE_WARN (c : Nat) (a : Nat) : Fld := ⟨CHS_NODE c a, 30, 30⟩
def CHS_NODE_ASLEEP (c : Nat) (a : Nat) : Fld := ⟨CHS_NODE c a, 29, 29⟩
def CHS_NODE_FENCES (c : Nat) (a : Nat) : Fld := ⟨CHS_NODE c a, 23, 16⟩
def CHS_NODE_SCORE (c : Nat) (a : Nat) : Fld := ⟨CHS_NODE c a, 7, 0⟩
/-- MILL_STAT (MILL, +0x040, RO, reset: per mill under R19). -/
def MILL_STAT (m : Nat) : Nat := rkey (0x080 + m) 0x040
def MILL_STAT_HAM (m : Nat) : Fld := ⟨MILL_STAT m, 27, 24⟩
def MILL_STAT_STATE (m : Nat) : Fld := ⟨MILL_STAT m, 2, 0⟩
/-- MILL_MMCNT (MILL, +0x044, RO, reset 0x0000_0000). -/
def MILL_MMCNT (m : Nat) : Nat := rkey (0x080 + m) 0x044
def MILL_MMCNT_COUNT (m : Nat) : Fld := ⟨MILL_MMCNT m, 15, 0⟩
/-- MILL_MMINFO (MILL, +0x048, RO, reset 0x0000_0000). -/
def MILL_MMINFO (m : Nat) : Nat := rkey (0x080 + m) 0x048
def MILL_MMINFO_PORT (m : Nat) : Fld := ⟨MILL_MMINFO m, 31, 28⟩
def MILL_MMINFO_CH (m : Nat) : Fld := ⟨MILL_MMINFO m, 27, 25⟩
def MILL_MMINFO_TICK (m : Nat) : Fld := ⟨MILL_MMINFO m, 15, 0⟩
/-- MILL_BIST (MILL, +0x04C, RWP, reset 0x0000_0000). -/
def MILL_BIST (m : Nat) : Nat := rkey (0x080 + m) 0x04C
def MILL_BIST_START (m : Nat) : Fld := ⟨MILL_BIST m, 31, 31⟩
def MILL_BIST_RESULT (m : Nat) : Fld := ⟨MILL_BIST m, 30, 29⟩
def MILL_BIST_RUNS (m : Nat) : Fld := ⟨MILL_BIST m, 15, 0⟩
/-- MILL_USE (MILL, +0x050, RO, reset 0x0000_0000). -/
def MILL_USE (m : Nat) : Nat := rkey (0x080 + m) 0x050
def MILL_USE_PEAK (m : Nat) : Fld := ⟨MILL_USE m, 15, 8⟩
def MILL_USE_LOAD (m : Nat) : Fld := ⟨MILL_USE m, 7, 0⟩
/-- HAM_MILL (HAM, +0x040, RO, reset: 0xhF00_0000 for hamlet h, with h in bits 31:28 and 0xF in bits 27:). -/
def HAM_MILL (h : Nat) : Nat := rkey (0x090 + h) 0x040
def HAM_MILL_MILL (h : Nat) : Fld := ⟨HAM_MILL h, 31, 28⟩
def HAM_MILL_PREV (h : Nat) : Fld := ⟨HAM_MILL h, 27, 24⟩
def HAM_MILL_MIGCNT (h : Nat) : Fld := ⟨HAM_MILL h, 15, 0⟩
/-- HAM_MIGRATE (HAM, +0x044, RWP, reset 0x0000_0000). -/
def HAM_MIGRATE (h : Nat) : Nat := rkey (0x090 + h) 0x044
def HAM_MIGRATE_GO (h : Nat) : Fld := ⟨HAM_MIGRATE h, 0, 0⟩
/-- HAM_MIGLAST (HAM, +0x048, RO, reset 0x0000_0000). -/
def HAM_MIGLAST (h : Nat) : Nat := rkey (0x090 + h) 0x048
def HAM_MIGLAST_CAUSE (h : Nat) : Fld := ⟨HAM_MIGLAST h, 31, 28⟩
def HAM_MIGLAST_DUR (h : Nat) : Fld := ⟨HAM_MIGLAST h, 23, 0⟩
/-- HAM_WHEEL (HAM, +0x04C, RO, reset 0x0000_0000). -/
def HAM_WHEEL (h : Nat) : Nat := rkey (0x090 + h) 0x04C
def HAM_WHEEL_LENT (h : Nat) : Fld := ⟨HAM_WHEEL h, 31, 16⟩
def HAM_WHEEL_PEND (h : Nat) : Fld := ⟨HAM_WHEEL h, 7, 0⟩
/-- CHX_AUTHCFG (CHX, +0x080, RWS, reset 0x0000_0056). -/
def CHX_AUTHCFG (c : Nat) : Nat := rkey (0x100 + 4 * c + 2) 0x080
def CHX_AUTHCFG_ENFORCE (c : Nat) : Fld := ⟨CHX_AUTHCFG c, 31, 31⟩
def CHX_AUTHCFG_PROT (c : Nat) : Fld := ⟨CHX_AUTHCFG c, 7, 0⟩
/-- CHX_KEYCFG (CHX, +0x084, RWP, reset 0x4000_0000). -/
def CHX_KEYCFG (c : Nat) : Nat := rkey (0x100 + 4 * c + 2) 0x084
def CHX_KEYCFG_LEAD (c : Nat) : Fld := ⟨CHX_KEYCFG c, 31, 24⟩
def CHX_KEYCFG_POSTPONE (c : Nat) : Fld := ⟨CHX_KEYCFG c, 20, 20⟩
def CHX_KEYCFG_LIFE (c : Nat) : Fld := ⟨CHX_KEYCFG c, 19, 0⟩
/-- CHX_EPOCH (CHX, +0x088, RO, reset 0x0000_0000). -/
def CHX_EPOCH (c : Nat) : Nat := rkey (0x100 + 4 * c + 2) 0x088
def CHX_EPOCH_CUR (c : Nat) : Fld := ⟨CHX_EPOCH c, 31, 16⟩
def CHX_EPOCH_NEXT (c : Nat) : Fld := ⟨CHX_EPOCH c, 15, 0⟩
/-- CHX_EPSTAT (CHX, +0x08C, RO, reset 0x1000_0000). -/
def CHX_EPSTAT (c : Nat) : Nat := rkey (0x100 + 4 * c + 2) 0x08C
def CHX_EPSTAT_NOKEY (c : Nat) : Fld := ⟨CHX_EPSTAT c, 28, 28⟩
def CHX_EPSTAT_PEND (c : Nat) : Fld := ⟨CHX_EPSTAT c, 27, 27⟩
def CHX_EPSTAT_OVL (c : Nat) : Fld := ⟨CHX_EPSTAT c, 26, 26⟩
def CHX_EPSTAT_POSTP (c : Nat) : Fld := ⟨CHX_EPSTAT c, 25, 24⟩
def CHX_EPSTAT_ACT (c : Nat) : Fld := ⟨CHX_EPSTAT c, 23, 0⟩
/-- CHX_KEYUSE (CHX, +0x090, RO, reset 0x0000_0000). -/
def CHX_KEYUSE (c : Nat) : Nat := rkey (0x100 + 4 * c + 2) 0x090
def CHX_KEYUSE_SOFT (c : Nat) : Fld := ⟨CHX_KEYUSE c, 31, 31⟩
def CHX_KEYUSE_CAP (c : Nat) : Fld := ⟨CHX_KEYUSE c, 30, 30⟩
def CHX_KEYUSE_COUNT (c : Nat) : Fld := ⟨CHX_KEYUSE c, 28, 0⟩
/-- CHX_KEYUSEN (CHX, +0x094, RO, reset 0x0000_0000). -/
def CHX_KEYUSEN (c : Nat) : Nat := rkey (0x100 + 4 * c + 2) 0x094
def CHX_KEYUSEN_COUNT (c : Nat) : Fld := ⟨CHX_KEYUSEN c, 28, 0⟩
/-- CHX_ENROLL (CHX, +0x098, RO, reset: from flash at start-up). -/
def CHX_ENROLL (c : Nat) : Nat := rkey (0x100 + 4 * c + 2) 0x098
def CHX_ENROLL_MASK (c : Nat) : Fld := ⟨CHX_ENROLL c, 31, 1⟩
/-- CHX_CONFIRM (CHX, +0x09C, RO, reset 0x0000_0000). -/
def CHX_CONFIRM (c : Nat) : Nat := rkey (0x100 + 4 * c + 2) 0x09C
def CHX_CONFIRM_MASK (c : Nat) : Fld := ⟨CHX_CONFIRM c, 31, 1⟩
/-- CHX_AUTHCNT (CHX, +0x0A0, RO, reset 0x0000_0000). -/
def CHX_AUTHCNT (c : Nat) : Nat := rkey (0x100 + 4 * c + 2) 0x0A0
def CHX_AUTHCNT_COUNT (c : Nat) : Fld := ⟨CHX_AUTHCNT c, 31, 0⟩
/-- CHX_AUTHSTAT (CHX, +0x0A4, RO, reset 0x0000_0000). -/
def CHX_AUTHSTAT (c : Nat) : Nat := rkey (0x100 + 4 * c + 2) 0x0A4
def CHX_AUTHSTAT_OLDKEY (c : Nat) : Fld := ⟨CHX_AUTHSTAT c, 31, 16⟩
def CHX_AUTHSTAT_PREVTICK (c : Nat) : Fld := ⟨CHX_AUTHSTAT c, 15, 0⟩
/-- CHX_EPCNT (CHX, +0x0A8, RO, reset 0x0000_0000). -/
def CHX_EPCNT (c : Nat) : Nat := rkey (0x100 + 4 * c + 2) 0x0A8
def CHX_EPCNT_CHANGES (c : Nat) : Fld := ⟨CHX_EPCNT c, 31, 16⟩
def CHX_EPCNT_POSTPONED (c : Nat) : Fld := ⟨CHX_EPCNT c, 15, 8⟩
def CHX_EPCNT_CAPHIT (c : Nat) : Fld := ⟨CHX_EPCNT c, 7, 0⟩
/-- SEC_MODE (SEC, +0x040, RO, reset: from fuses). -/
def SEC_MODE : Nat := rkey 0x020 0x040
def SEC_MODE_CERT : Fld := ⟨SEC_MODE, 31, 31⟩
def SEC_MODE_COMM : Fld := ⟨SEC_MODE, 30, 30⟩
def SEC_MODE_DEBUG : Fld := ⟨SEC_MODE, 29, 29⟩
def SEC_MODE_TIMEOK : Fld := ⟨SEC_MODE, 28, 28⟩
/-- SEC_AUTH (SEC, +0x044, RO, reset: from OTP). -/
def SEC_AUTH : Nat := rkey 0x020 0x044
def SEC_AUTH_REVOKED : Fld := ⟨SEC_AUTH, 7, 4⟩
def SEC_AUTH_PROG : Fld := ⟨SEC_AUTH, 3, 0⟩
/-- SEC_RNG (SEC, +0x048, RO, reset 0x0000_0000). -/
def SEC_RNG : Nat := rkey 0x020 0x048
def SEC_RNG_OK : Fld := ⟨SEC_RNG, 31, 31⟩
def SEC_RNG_APTFAIL : Fld := ⟨SEC_RNG, 23, 16⟩
def SEC_RNG_RCTFAIL : Fld := ⟨SEC_RNG, 15, 8⟩
/-- SEC_IDHASH (SEC, +0x080 + 4 × i, i = 0 to 11, RO, reset: identity). -/
def SEC_IDHASH (i : Nat) : Nat := rkey 0x020 (0x080 + 4 * i)
def SEC_IDHASH_W (i : Nat) : Fld := ⟨SEC_IDHASH i, 31, 0⟩
/-- SEC_AHASH (SEC, +0x100 + 0x40 × k + 4 × i, k = 0 to 3, i = 0 to 11, RO, reset: from OTP). -/
def SEC_AHASH (k : Nat) (i : Nat) : Nat := rkey 0x020 (0x100 + 0x40 * k + 4 * i)
def SEC_AHASH_W (k : Nat) (i : Nat) : Fld := ⟨SEC_AHASH k i, 31, 0⟩
/-- SEC_SEQ (SEC, +0x200 + 16 × k, k = 0 to 3, four words, RO, reset: from flash). -/
def SEC_SEQ (k : Nat) (j : Nat) : Nat := rkey 0x020 (0x200 + 16 * k + 4 * j)
def SEC_SEQ_W (k : Nat) (j : Nat) : Fld := ⟨SEC_SEQ k j, 31, 0⟩
/-- SEC_IDPUB (SEC page 0x021, +0x040 to +0xD44, RO, reset: identity). -/
def SEC_IDPUB (i : Nat) : Nat := rkey 0x021 (0x040 + 4 * i)
def SEC_IDPUB_W (i : Nat) : Fld := ⟨SEC_IDPUB i, 31, 0⟩
/-- PEN_SESS (PEN, +0x040 + 4 × s, s = 0 to 7, RO, reset 0x0000_0000). -/
def PEN_SESS (s : Nat) : Nat := rkey 0x028 (0x040 + 4 * s)
def PEN_SESS_VALID (s : Nat) : Fld := ⟨PEN_SESS s, 31, 31⟩
def PEN_SESS_LIVE (s : Nat) : Fld := ⟨PEN_SESS s, 30, 30⟩
def PEN_SESS_PRIV (s : Nat) : Fld := ⟨PEN_SESS s, 29, 29⟩
def PEN_SESS_AUTH (s : Nat) : Fld := ⟨PEN_SESS s, 27, 26⟩
def PEN_SESS_UPA (s : Nat) : Fld := ⟨PEN_SESS s, 25, 25⟩
def PEN_SESS_UPB (s : Nat) : Fld := ⟨PEN_SESS s, 24, 24⟩
def PEN_SESS_UNACK (s : Nat) : Fld := ⟨PEN_SESS s, 6, 0⟩
/-- PEN_SEXP (PEN, +0x060 + 4 × s, s = 0 to 7, RO, reset 0x0000_0000). -/
def PEN_SEXP (s : Nat) : Nat := rkey 0x028 (0x060 + 4 * s)
def PEN_SEXP_NOTAFTER (s : Nat) : Fld := ⟨PEN_SEXP s, 31, 0⟩
/-- PEN_CLOSE (PEN, +0x080, WO, reset 0x0000_0000). -/
def PEN_CLOSE : Nat := rkey 0x028 0x080
def PEN_CLOSE_GO : Fld := ⟨PEN_CLOSE, 3, 3⟩
def PEN_CLOSE_SESS : Fld := ⟨PEN_CLOSE, 2, 0⟩
/-- PEN_BUFADDR (PEN, +0x084, RO, reset 0x00FF_0000). -/
def PEN_BUFADDR : Nat := rkey 0x028 0x084
def PEN_BUFADDR_ADDR : Fld := ⟨PEN_BUFADDR, 31, 0⟩
/-- PEN_OPGO (PEN, +0x088, WO, reset 0x0000_0000). -/
def PEN_OPGO : Nat := rkey 0x028 0x088
def PEN_OPGO_LEN : Fld := ⟨PEN_OPGO, 12, 0⟩
/-- PEN_REFLAST (PEN, +0x090, RO, reset 0x0000_0000). -/
def PEN_REFLAST : Nat := rkey 0x028 0x090
def PEN_REFLAST_REASON : Fld := ⟨PEN_REFLAST, 31, 24⟩
def PEN_REFLAST_TYPE : Fld := ⟨PEN_REFLAST, 23, 20⟩
def PEN_REFLAST_AUTH : Fld := ⟨PEN_REFLAST, 19, 18⟩
def PEN_REFLAST_SESS : Fld := ⟨PEN_REFLAST, 15, 12⟩
/-- PEN_REFTICK (PEN, +0x094, RO, reset 0x0000_0000). -/
def PEN_REFTICK : Nat := rkey 0x028 0x094
def PEN_REFTICK_TICK : Fld := ⟨PEN_REFTICK, 31, 0⟩
/-- PEN_CNT (PEN, +0x098, RO, reset 0x0000_0000). -/
def PEN_CNT : Nat := rkey 0x028 0x098
def PEN_CNT_OPENED : Fld := ⟨PEN_CNT, 31, 24⟩
def PEN_CNT_OPS : Fld := ⟨PEN_CNT, 23, 16⟩
def PEN_CNT_REFUSED : Fld := ⟨PEN_CNT, 15, 0⟩
/-- PEN_OPSTAT (PEN, +0x0C0 + 4 × s, s = 0 to 7, RO, reset 0x0000_0000). -/
def PEN_OPSTAT (s : Nat) : Nat := rkey 0x028 (0x0C0 + 4 * s)
def PEN_OPSTAT_STATE (s : Nat) : Fld := ⟨PEN_OPSTAT s, 31, 28⟩
def PEN_OPSTAT_OPCODE (s : Nat) : Fld := ⟨PEN_OPSTAT s, 23, 8⟩
def PEN_OPSTAT_REASON (s : Nat) : Fld := ⟨PEN_OPSTAT s, 7, 0⟩
/-- CFG_STAT (CFG, +0x040, RO, reset 0x0000_0000). -/
def CFG_STAT : Nat := rkey 0x060 0x040
def CFG_STAT_STAGED : Fld := ⟨CFG_STAT, 31, 28⟩
def CFG_STAT_PROB : Fld := ⟨CFG_STAT, 27, 27⟩
def CFG_STAT_PREV : Fld := ⟨CFG_STAT, 26, 26⟩
def CFG_STAT_PERMIT : Fld := ⟨CFG_STAT, 25, 25⟩
def CFG_STAT_NOPKG : Fld := ⟨CFG_STAT, 24, 24⟩
def CFG_STAT_LASTERR : Fld := ⟨CFG_STAT, 23, 16⟩
def CFG_STAT_LSESS : Fld := ⟨CFG_STAT, 10, 8⟩
/-- CFG_CMD (CFG, +0x044, RWP, reset 0x0000_0000). -/
def CFG_CMD : Nat := rkey 0x060 0x044
def CFG_CMD_CMD : Fld := ⟨CFG_CMD, 1, 0⟩
/-- CFG_LOAD (CFG, +0x048, RWP, reset 0x0000_0000). -/
def CFG_LOAD : Nat := rkey 0x060 0x048
def CFG_LOAD_FIRST : Fld := ⟨CFG_LOAD, 31, 31⟩
def CFG_LOAD_LEN : Fld := ⟨CFG_LOAD, 16, 0⟩
/-- CFG_LOADED (CFG, +0x04C, RO, reset 0x0000_0000). -/
def CFG_LOADED : Nat := rkey 0x060 0x04C
def CFG_LOADED_BYTES : Fld := ⟨CFG_LOADED, 23, 0⟩
/-- CFG_GEN (CFG, +0x050, RO, reset 0x0000_0000). -/
def CFG_GEN : Nat := rkey 0x060 0x050
def CFG_GEN_GEN : Fld := ⟨CFG_GEN, 31, 0⟩
/-- CFG_ARMTICKLO (CFG, +0x054, RO, reset 0x0000_0000). -/
def CFG_ARMTICKLO : Nat := rkey 0x060 0x054
def CFG_ARMTICKLO_TICK : Fld := ⟨CFG_ARMTICKLO, 31, 0⟩
/-- CFG_PROBATION (CFG, +0x05C, RWP, reset 0x0000_EA60). -/
def CFG_PROBATION : Nat := rkey 0x060 0x05C
def CFG_PROBATION_TICKS : Fld := ⟨CFG_PROBATION, 23, 0⟩
/-- CFG_PROBLEFT (CFG, +0x060, RO, reset 0x0000_0000). -/
def CFG_PROBLEFT : Nat := rkey 0x060 0x060
def CFG_PROBLEFT_TICKS : Fld := ⟨CFG_PROBLEFT, 23, 0⟩
/-- CFG_SESSWAIT (CFG, +0x064, RWP, reset 0x0000_2710). -/
def CFG_SESSWAIT : Nat := rkey 0x060 0x064
def CFG_SESSWAIT_TICKS : Fld := ⟨CFG_SESSWAIT, 23, 0⟩
/-- CFG_RETLAST (CFG, +0x068, RO, reset 0x0000_0000). -/
def CFG_RETLAST : Nat := rkey 0x060 0x068
def CFG_RETLAST_CAUSE : Fld := ⟨CFG_RETLAST, 31, 28⟩
def CFG_RETLAST_TICK : Fld := ⟨CFG_RETLAST, 23, 0⟩
/-- CFG_CNT (CFG, +0x06C, RO, reset 0x0000_0000). -/
def CFG_CNT : Nat := rkey 0x060 0x06C
def CFG_CNT_COMMITS : Fld := ⟨CFG_CNT, 31, 16⟩
def CFG_CNT_RETURNS : Fld := ⟨CFG_CNT, 15, 8⟩
def CFG_CNT_SUPERSEDED : Fld := ⟨CFG_CNT, 7, 0⟩
/-- CFG_SLOT (CFG page 0x061, +0x040 + 0x40 × k, k = 0 ACTIVE, 1 PREVIOUS, 2 STAGED, sixteen words, RO, ). -/
def CFG_SLOT (k : Nat) (j : Nat) : Nat := rkey 0x061 (0x040 + 0x40 * k + 4 * j)
def CFG_SLOT_W (k : Nat) (j : Nat) : Fld := ⟨CFG_SLOT k j, 31, 0⟩
/-- CFG_FWVER (CFG page 0x062, +0x040, RO, reset: running firmware). -/
def CFG_FWVER : Nat := rkey 0x062 0x040
def CFG_FWVER_VER : Fld := ⟨CFG_FWVER, 31, 0⟩
/-- CFG_COMPAT (CFG page 0x062, +0x080 + 4 × i, i = 0 to 11, RO, reset: variant). -/
def CFG_COMPAT (i : Nat) : Nat := rkey 0x062 (0x080 + 4 * i)
def CFG_COMPAT_W (i : Nat) : Fld := ⟨CFG_COMPAT i, 31, 0⟩
/-- SVC_LOAD (SVC page 0x050, +0x040, RO, reset 0x0000_0000). -/
def SVC_LOAD : Nat := rkey 0x050 0x040
def SVC_LOAD_PEAK : Fld := ⟨SVC_LOAD, 31, 24⟩
def SVC_LOAD_LAST : Fld := ⟨SVC_LOAD, 23, 16⟩
/-- SVC_PISTAT (SVC page 0x051, +0x040, RO, reset 0x0000_0000). -/
def SVC_PISTAT : Nat := rkey 0x051 0x040
def SVC_PISTAT_DIRTY : Fld := ⟨SVC_PISTAT, 16, 0⟩
/-- SVC_SOECFG (SVC page 0x052, +0x040, RWS, reset 0x0000_003C). -/
def SVC_SOECFG : Nat := rkey 0x052 0x040
def SVC_SOECFG_OVW : Fld := ⟨SVC_SOECFG, 31, 31⟩
def SVC_SOECFG_COMP : Fld := ⟨SVC_SOECFG, 7, 0⟩
/-- SVC_SOESTAT (SVC page 0x052, +0x044, RO, reset 0x0000_0000). -/
def SVC_SOESTAT : Nat := rkey 0x052 0x044
def SVC_SOESTAT_WR : Fld := ⟨SVC_SOESTAT, 31, 16⟩
def SVC_SOESTAT_RD : Fld := ⟨SVC_SOESTAT, 15, 0⟩
/-- SVC_SOEFILL (SVC page 0x052, +0x048, RO, reset 0x0000_0000). -/
def SVC_SOEFILL : Nat := rkey 0x052 0x048
def SVC_SOEFILL_FILL : Fld := ⟨SVC_SOEFILL, 16, 0⟩
/-- SVC_SOEREL (SVC page 0x052, +0x04C, WO, reset 0x0000_0000). -/
def SVC_SOEREL : Nat := rkey 0x052 0x04C
def SVC_SOEREL_COUNT : Fld := ⟨SVC_SOEREL, 15, 0⟩
/-- SVC_TOCFG (SVC page 0x053, +0x040, RWS, reset 0x4000_0000). -/
def SVC_TOCFG : Nat := rkey 0x053 0x040
def SVC_TOCFG_CLASS : Fld := ⟨SVC_TOCFG, 31, 29⟩
/-- SVC_TOSTAT (SVC page 0x053, +0x044, RO, reset 0x0000_0000). -/
def SVC_TOSTAT : Nat := rkey 0x053 0x044
def SVC_TOSTAT_QUEUED : Fld := ⟨SVC_TOSTAT, 12, 0⟩
/-- SVC_TOCAN (SVC page 0x053, +0x048, WO, reset 0x0000_0000). -/
def SVC_TOCAN : Nat := rkey 0x053 0x048
def SVC_TOCAN_GO : Fld := ⟨SVC_TOCAN, 31, 31⟩
def SVC_TOCAN_HANDLE : Fld := ⟨SVC_TOCAN, 12, 0⟩
/-- SVC_TOREQ (SVC page 0x053, +0x100 + 0x20 × s, s = 0 to 7, eight words, RW, reset 0x0000_0000). -/
def SVC_TOREQ (s : Nat) (j : Nat) : Nat := rkey 0x053 (0x100 + 0x20 * s + 4 * j)
def SVC_TOREQ_W (s : Nat) (j : Nat) : Fld := ⟨SVC_TOREQ s j, 31, 0⟩
/-- SVC_TORES (SVC page 0x053, +0x200 + 4 × s, s = 0 to 7, RO, reset 0x0000_0000). -/
def SVC_TORES (s : Nat) : Nat := rkey 0x053 (0x200 + 4 * s)
def SVC_TORES_VALID (s : Nat) : Fld := ⟨SVC_TORES s, 31, 31⟩
def SVC_TORES_STATUS (s : Nat) : Fld := ⟨SVC_TORES s, 27, 24⟩
def SVC_TORES_HANDLE (s : Nat) : Fld := ⟨SVC_TORES s, 12, 0⟩
/-- SVC_TORANGE (SVC page 0x053, +0x300 + 4 × c, c = 0 to 63, RO, reset 0x0000_0000). -/
def SVC_TORANGE (c : Nat) : Nat := rkey 0x053 (0x300 + 4 * c)
def SVC_TORANGE_CNT (c : Nat) : Fld := ⟨SVC_TORANGE c, 31, 24⟩
def SVC_TORANGE_BASE (c : Nat) : Fld := ⟨SVC_TORANGE c, 13, 0⟩
/-- SVC_SUBCTL (SVC page 0x054, +0x040 + 0x80 × s, s = 0 to 7, RWS, reset 0x0000_0000). -/
def SVC_SUBCTL (s : Nat) : Nat := rkey 0x054 (0x040 + 0x80 * s)
def SVC_SUBCTL_LOST (s : Nat) : Fld := ⟨SVC_SUBCTL s, 31, 31⟩
def SVC_SUBCTL_SOE (s : Nat) : Fld := ⟨SVC_SUBCTL s, 30, 30⟩
def SVC_SUBCTL_LOSTSOE (s : Nat) : Fld := ⟨SVC_SUBCTL s, 29, 29⟩
def SVC_SUBCTL_EVERY (s : Nat) : Fld := ⟨SVC_SUBCTL s, 15, 0⟩
/-- SVC_SUBRNG (SVC page 0x054, +0x044 + 0x80 × s + 4 × r, r = 0 to 15, RWS, reset 0x0000_0000). -/
def SVC_SUBRNG (s : Nat) (r : Nat) : Nat := rkey 0x054 (0x044 + 0x80 * s + 4 * r)
def SVC_SUBRNG_HI (s : Nat) (r : Nat) : Fld := ⟨SVC_SUBRNG s r, 31, 16⟩
def SVC_SUBRNG_LO (s : Nat) (r : Nat) : Fld := ⟨SVC_SUBRNG s r, 15, 0⟩
/-- TIME_CFG (TIME page 0x010, +0x040, RWS, reset 0x4000_0032). -/
def TIME_CFG : Nat := rkey 0x010 0x040
def TIME_CFG_PRIM : Fld := ⟨TIME_CFG, 31, 31⟩
def TIME_CFG_REVERT : Fld := ⟨TIME_CFG, 30, 30⟩
def TIME_CFG_SLEW : Fld := ⟨TIME_CFG, 7, 0⟩
/-- TIME_STAT (TIME page 0x010, +0x044, RO, reset 0x0000_0000). -/
def TIME_STAT : Nat := rkey 0x010 0x044
def TIME_STAT_STATE : Fld := ⟨TIME_STAT, 31, 30⟩
def TIME_STAT_SEL : Fld := ⟨TIME_STAT, 29, 29⟩
def TIME_STAT_SLEWING : Fld := ⟨TIME_STAT, 28, 28⟩
def TIME_STAT_SETBY : Fld := ⟨TIME_STAT, 27, 26⟩
/-- TIME_NOWLO (TIME page 0x010, +0x048, RO, reset 0x0000_0000). -/
def TIME_NOWLO : Nat := rkey 0x010 0x048
def TIME_NOWLO_SEC : Fld := ⟨TIME_NOWLO, 31, 0⟩
/-- TIME_NOWHI (TIME page 0x010, +0x04C, RO, reset 0x0000_0000). -/
def TIME_NOWHI : Nat := rkey 0x010 0x04C
def TIME_NOWHI_SEC : Fld := ⟨TIME_NOWHI, 31, 0⟩
/-- TIME_NOWNS (TIME page 0x010, +0x050, RO, reset 0x0000_0000). -/
def TIME_NOWNS : Nat := rkey 0x010 0x050
def TIME_NOWNS_NS : Fld := ⟨TIME_NOWNS, 29, 0⟩
/-- TIME_NOWFRAC (TIME page 0x010, +0x054, RO, reset 0x0000_0000). -/
def TIME_NOWFRAC : Nat := rkey 0x010 0x054
def TIME_NOWFRAC_FRAC : Fld := ⟨TIME_NOWFRAC, 15, 0⟩
/-- TIME_RATE (TIME page 0x010, +0x058, RO, reset 0x0000_0000). -/
def TIME_RATE : Nat := rkey 0x010 0x058
def TIME_RATE_RATE : Fld := ⟨TIME_RATE, 31, 0⟩
/-- TIME_ERR (TIME page 0x010, +0x05C, RO, reset 0x0000_0000). -/
def TIME_ERR : Nat := rkey 0x010 0x05C
def TIME_ERR_OFS : Fld := ⟨TIME_ERR, 31, 0⟩
/-- TIME_ASYMSTEP (TIME page 0x010, +0x060, RWS, reset 0x0000_00C8). -/
def TIME_ASYMSTEP : Nat := rkey 0x010 0x060
def TIME_ASYMSTEP_STEP : Fld := ⟨TIME_ASYMSTEP, 15, 0⟩
/-- TIME_ASYMPD (TIME page 0x010, +0x064, RWS, reset 0x0000_0064). -/
def TIME_ASYMPD : Nat := rkey 0x010 0x064
def TIME_ASYMPD_PD : Fld := ⟨TIME_ASYMPD, 15, 0⟩
/-- TIME_HOLDLIM (TIME page 0x010, +0x068, RWS, reset 0x0000_000A). -/
def TIME_HOLDLIM : Nat := rkey 0x010 0x068
def TIME_HOLDLIM_SEC : Fld := ⟨TIME_HOLDLIM, 23, 0⟩
/-- TIME_HOLDSTAT (TIME page 0x010, +0x06C, RO, reset 0x0000_0000). -/
def TIME_HOLDSTAT : Nat := rkey 0x010 0x06C
def TIME_HOLDSTAT_ENTRIES : Fld := ⟨TIME_HOLDSTAT, 31, 16⟩
def TIME_HOLDSTAT_DUR : Fld := ⟨TIME_HOLDSTAT, 15, 0⟩
/-- TIME_SWCNT (TIME page 0x010, +0x070, RO, reset 0x0000_0000). -/
def TIME_SWCNT : Nat := rkey 0x010 0x070
def TIME_SWCNT_SWITCHES : Fld := ⟨TIME_SWCNT, 15, 0⟩
/-- TIME_DCFG (TIME, +0x040, RWS, reset 0x0000_D000). -/
def TIME_DCFG (x : Nat) : Nat := rkey (0x011 + x) 0x040
def TIME_DCFG_DOMNUM (x : Nat) : Fld := ⟨TIME_DCFG x, 31, 24⟩
def TIME_DCFG_SYNCLOG (x : Nat) : Fld := ⟨TIME_DCFG x, 15, 12⟩
def TIME_DCFG_PDLOG (x : Nat) : Fld := ⟨TIME_DCFG x, 11, 8⟩
def TIME_DCFG_OFF (x : Nat) : Fld := ⟨TIME_DCFG x, 7, 7⟩
/-- TIME_ASYM (TIME, +0x044, RWP, reset 0x0000_0000). -/
def TIME_ASYM (x : Nat) : Nat := rkey (0x011 + x) 0x044
def TIME_ASYM_ASYM (x : Nat) : Fld := ⟨TIME_ASYM x, 15, 0⟩
/-- TIME_DSTAT (TIME, +0x048, RO, reset 0x0000_0000). -/
def TIME_DSTAT (x : Nat) : Nat := rkey (0x011 + x) 0x048
def TIME_DSTAT_STATE (x : Nat) : Fld := ⟨TIME_DSTAT x, 31, 30⟩
def TIME_DSTAT_FROZEN (x : Nat) : Fld := ⟨TIME_DSTAT x, 29, 29⟩
def TIME_DSTAT_ASCAP (x : Nat) : Fld := ⟨TIME_DSTAT x, 28, 28⟩
def TIME_DSTAT_STABLE (x : Nat) : Fld := ⟨TIME_DSTAT x, 20, 16⟩
def TIME_DSTAT_UTCOFS (x : Nat) : Fld := ⟨TIME_DSTAT x, 15, 0⟩
/-- TIME_DOFS (TIME, +0x04C, RO, reset 0x0000_0000). -/
def TIME_DOFS (x : Nat) : Nat := rkey (0x011 + x) 0x04C
def TIME_DOFS_OFS (x : Nat) : Fld := ⟨TIME_DOFS x, 31, 0⟩
/-- TIME_DREL (TIME, +0x050, RO, reset 0x0000_0000). -/
def TIME_DREL (x : Nat) : Nat := rkey (0x011 + x) 0x050
def TIME_DREL_REL (x : Nat) : Fld := ⟨TIME_DREL x, 31, 0⟩
/-- TIME_DPD (TIME, +0x054, RO, reset 0x0000_0000). -/
def TIME_DPD (x : Nat) : Nat := rkey (0x011 + x) 0x054
def TIME_DPD_PD (x : Nat) : Fld := ⟨TIME_DPD x, 31, 0⟩
/-- TIME_DLINK (TIME, +0x058, RO, reset 0x0000_0000). -/
def TIME_DLINK (x : Nat) : Nat := rkey (0x011 + x) 0x058
def TIME_DLINK_MLD (x : Nat) : Fld := ⟨TIME_DLINK x, 15, 0⟩
/-- TIME_GMIDHI (TIME, +0x05C, RO, reset 0x0000_0000, and TIME_GMIDLO — TIME, +0x060, RO, reset 0x0000_0000). -/
def TIME_GMIDHI (x : Nat) : Nat := rkey (0x011 + x) 0x05C
def TIME_GMIDHI_ID (x : Nat) : Fld := ⟨TIME_GMIDHI x, 31, 0⟩
/-- TIME_DCNT (TIME, +0x064, RO, reset 0x0000_0000). -/
def TIME_DCNT (x : Nat) : Nat := rkey (0x011 + x) 0x064
def TIME_DCNT_SUSPECTS (x : Nat) : Fld := ⟨TIME_DCNT x, 31, 24⟩
def TIME_DCNT_STEPS (x : Nat) : Fld := ⟨TIME_DCNT x, 23, 16⟩
def TIME_DCNT_LOSSES (x : Nat) : Fld := ⟨TIME_DCNT x, 15, 8⟩
def TIME_DCNT_GMCHG (x : Nat) : Fld := ⟨TIME_DCNT x, 7, 0⟩
/-- CHC_CURCFG (CHC, +0x100, RWS, reset 0x0000_0040). -/
def CHC_CURCFG (c : Nat) : Nat := rkey (0x100 + 4 * c + 0) 0x100
def CHC_CURCFG_EN (c : Nat) : Fld := ⟨CHC_CURCFG c, 31, 31⟩
def CHC_CURCFG_QGAUTO (c : Nat) : Fld := ⟨CHC_CURCFG c, 30, 30⟩
def CHC_CURCFG_IDLE (c : Nat) : Fld := ⟨CHC_CURCFG c, 15, 0⟩
/-- CHC_WAKEFILT (CHC, +0x104, RWS, reset 0x0000_000A). -/
def CHC_WAKEFILT (c : Nat) : Nat := rkey (0x100 + 4 * c + 0) 0x104
def CHC_WAKEFILT_FILT (c : Nat) : Fld := ⟨CHC_WAKEFILT c, 5, 0⟩
/-- CHC_QGMASK (CHC, +0x108, RWS, reset 0x0000_00FF). -/
def CHC_QGMASK (c : Nat) : Nat := rkey (0x100 + 4 * c + 0) 0x108
def CHC_QGMASK_REQ (c : Nat) : Fld := ⟨CHC_QGMASK c, 15, 8⟩
def CHC_QGMASK_AWAKE (c : Nat) : Fld := ⟨CHC_QGMASK c, 7, 0⟩
/-- CHC_CURCTL (CHC, +0x10C, W1S, reset 0x0000_0000). -/
def CHC_CURCTL (c : Nat) : Nat := rkey (0x100 + 4 * c + 0) 0x10C
def CHC_CURCTL_WAKE (c : Nat) : Fld := ⟨CHC_CURCTL c, 0, 0⟩
/-- CHC_VETO (CHC, +0x110, RW, reset 0x0000_0000). -/
def CHC_VETO (c : Nat) : Nat := rkey (0x100 + 4 * c + 0) 0x110
def CHC_VETO_MASK (c : Nat) : Fld := ⟨CHC_VETO c, 15, 8⟩
def CHC_VETO_SET (c : Nat) : Fld := ⟨CHC_VETO c, 0, 0⟩
/-- CHC_CURSTAT (CHC, +0x114, RO, reset 0x0000_0000). -/
def CHC_CURSTAT (c : Nat) : Nat := rkey (0x100 + 4 * c + 0) 0x114
def CHC_CURSTAT_STATE (c : Nat) : Fld := ⟨CHC_CURSTAT c, 31, 29⟩
def CHC_CURSTAT_CAUSE (c : Nat) : Fld := ⟨CHC_CURSTAT c, 28, 26⟩
def CHC_CURSTAT_IDLE (c : Nat) : Fld := ⟨CHC_CURSTAT c, 15, 0⟩
/-- CHC_CURCNT (CHC, +0x118, RO, reset 0x0000_0000). -/
def CHC_CURCNT (c : Nat) : Nat := rkey (0x100 + 4 * c + 0) 0x118
def CHC_CURCNT_CALLS (c : Nat) : Fld := ⟨CHC_CURCNT c, 31, 16⟩
def CHC_CURCNT_ABORTS (c : Nat) : Fld := ⟨CHC_CURCNT c, 15, 0⟩
/-- CHC_SLPCNT (CHC, +0x11C, RO, reset 0x0000_0000). -/
def CHC_SLPCNT (c : Nat) : Nat := rkey (0x100 + 4 * c + 0) 0x11C
def CHC_SLPCNT_SLEEPS (c : Nat) : Fld := ⟨CHC_SLPCNT c, 31, 16⟩
def CHC_SLPCNT_WAKES (c : Nat) : Fld := ⟨CHC_SLPCNT c, 15, 0⟩
/-- CHC_WAKECNT (CHC, +0x120, RO, reset 0x0000_0000). -/
def CHC_WAKECNT (c : Nat) : Nat := rkey (0x100 + 4 * c + 0) 0x120
def CHC_WAKECNT_FALSE (c : Nat) : Fld := ⟨CHC_WAKECNT c, 15, 0⟩
/-- DEV_VIGCFG (DEV page 0x003, +0x040, RWS, reset 0x0000_0064). -/
def DEV_VIGCFG : Nat := rkey 0x003 0x040
def DEV_VIGCFG_EN : Fld := ⟨DEV_VIGCFG, 31, 31⟩
def DEV_VIGCFG_IDLE : Fld := ⟨DEV_VIGCFG, 15, 0⟩
/-- DEV_VIGSTAT (DEV page 0x003, +0x044, RO, reset 0x0000_0000). -/
def DEV_VIGSTAT : Nat := rkey 0x003 0x044
def DEV_VIGSTAT_STATE : Fld := ⟨DEV_VIGSTAT, 31, 30⟩
def DEV_VIGSTAT_CAUSE : Fld := ⟨DEV_VIGSTAT, 29, 27⟩
def DEV_VIGSTAT_ABORTS : Fld := ⟨DEV_VIGSTAT, 15, 8⟩
def DEV_VIGSTAT_ENTRIES : Fld := ⟨DEV_VIGSTAT, 7, 0⟩
/-- INTC_CFG (INTC page 0x030, +0x040, RWS, reset 0x0000_0000). -/
def INTC_CFG : Nat := rkey 0x030 0x040
def INTC_CFG_DEFTGT : Fld := ⟨INTC_CFG, 5, 4⟩
def INTC_CFG_SPLIT : Fld := ⟨INTC_CFG, 2, 0⟩
/-- INTC_SWDB (INTC page 0x030, +0x044, WO, reset 0x0000_0000). -/
def INTC_SWDB : Nat := rkey 0x030 0x044
def INTC_SWDB_SRC : Fld := ⟨INTC_SWDB, 9, 0⟩
/-- INTC_CNT (INTC page 0x030, +0x048, RO, reset 0x0000_0000). -/
def INTC_CNT : Nat := rkey 0x030 0x048
def INTC_CNT_SPURIOUS : Fld := ⟨INTC_CNT, 31, 16⟩
def INTC_CNT_RETRACT : Fld := ⟨INTC_CNT, 15, 0⟩
/-- INTC_ERRCNT (INTC page 0x030, +0x04C, RO, reset 0x0000_0000). -/
def INTC_ERRCNT : Nat := rkey 0x030 0x04C
def INTC_ERRCNT_BADCOMP : Fld := ⟨INTC_ERRCNT, 31, 16⟩
def INTC_ERRCNT_BADRAISE : Fld := ⟨INTC_ERRCNT, 15, 0⟩
/-- INTC_TGT (INTC page 0x031, +0x100 + 0x40 × t, t = 0 to 11, RW, reset 0x8000_2020 for t = 0 to 3, 0x0). -/
def INTC_TGT (t : Nat) : Nat := rkey 0x031 (0x100 + 0x40 * t)
def INTC_TGT_EN (t : Nat) : Fld := ⟨INTC_TGT t, 31, 31⟩
def INTC_TGT_AWAKE (t : Nat) : Fld := ⟨INTC_TGT t, 30, 30⟩
def INTC_TGT_BUSY (t : Nat) : Fld := ⟨INTC_TGT t, 13, 8⟩
def INTC_TGT_THRESH (t : Nat) : Fld := ⟨INTC_TGT t, 5, 0⟩
/-- INTC_CLAIM (INTC page 0x031, +0x104 + 0x40 × t, WO, reset 0x0000_0000). -/
def INTC_CLAIM (t : Nat) : Nat := rkey 0x031 (0x104 + 0x40 * t)
def INTC_CLAIM_TAG (t : Nat) : Fld := ⟨INTC_CLAIM t, 19, 16⟩
def INTC_CLAIM_SRC (t : Nat) : Fld := ⟨INTC_CLAIM t, 9, 0⟩
/-- INTC_CLAIMED (INTC page 0x031, +0x110 + 0x40 × t, RO, reset 0x0000_03FF). -/
def INTC_CLAIMED (t : Nat) : Nat := rkey 0x031 (0x110 + 0x40 * t)
def INTC_CLAIMED_SRC (t : Nat) : Fld := ⟨INTC_CLAIMED t, 9, 0⟩
/-- INTC_COMPLETE (INTC page 0x031, +0x108 + 0x40 × t, WO, reset 0x0000_0000). -/
def INTC_COMPLETE (t : Nat) : Nat := rkey 0x031 (0x108 + 0x40 * t)
def INTC_COMPLETE_SRC (t : Nat) : Fld := ⟨INTC_COMPLETE t, 9, 0⟩
/-- INTC_OFFER (INTC page 0x031, +0x10C + 0x40 × t, RO, reset 0x0000_0000). -/
def INTC_OFFER (t : Nat) : Nat := rkey 0x031 (0x10C + 0x40 * t)
def INTC_OFFER_VALID (t : Nat) : Fld := ⟨INTC_OFFER t, 31, 31⟩
def INTC_OFFER_UNCL (t : Nat) : Fld := ⟨INTC_OFFER t, 21, 16⟩
def INTC_OFFER_TAG (t : Nat) : Fld := ⟨INTC_OFFER t, 13, 10⟩
def INTC_OFFER_SRC (t : Nat) : Fld := ⟨INTC_OFFER t, 9, 0⟩
/-- INTC_SRC (INTC page 0x032 + n / 256, rounded down, +0x400 + 4 × (n mod 256), n = 0 to 1,022, reset 0). -/
def INTC_SRC (n : Nat) : Nat := rkey (0x032 + n / 256) (0x400 + 4 * (n % 256))
def INTC_SRC_EN (n : Nat) : Fld := ⟨INTC_SRC n, 31, 31⟩
def INTC_SRC_LEVEL (n : Nat) : Fld := ⟨INTC_SRC n, 30, 30⟩
def INTC_SRC_CE (n : Nat) : Fld := ⟨INTC_SRC n, 29, 29⟩
def INTC_SRC_PRIO (n : Nat) : Fld := ⟨INTC_SRC n, 28, 24⟩
def INTC_SRC_COAL (n : Nat) : Fld := ⟨INTC_SRC n, 23, 18⟩
def INTC_SRC_TMASK (n : Nat) : Fld := ⟨INTC_SRC n, 11, 0⟩
/-- INTC_PEND (INTC page 0x036, +0x100 + 4 × w, w = 0 to 31, RO, reset 0x0000_0000). -/
def INTC_PEND (w : Nat) : Nat := rkey 0x036 (0x100 + 4 * w)
def INTC_PEND_MASK (w : Nat) : Fld := ⟨INTC_PEND w, 31, 0⟩
/-- INTC_ACT (INTC page 0x036, +0x200 + 4 × w, w = 0 to 31, RO, reset 0x0000_0000). -/
def INTC_ACT (w : Nat) : Nat := rkey 0x036 (0x200 + 4 * w)
def INTC_ACT_MASK (w : Nat) : Fld := ⟨INTC_ACT w, 31, 0⟩
/-- INTC_COAL (INTC page 0x037, +0x100 + 8 × g, g = 0 to 63, RWS, reset 0x0100_0000). -/
def INTC_COAL (g : Nat) : Nat := rkey 0x037 (0x100 + 8 * g)
def INTC_COAL_COUNT (g : Nat) : Fld := ⟨INTC_COAL g, 31, 24⟩
def INTC_COAL_TIME (g : Nat) : Fld := ⟨INTC_COAL g, 19, 0⟩
/-- INTC_COALST (INTC page 0x037, +0x104 + 8 × g, RO, reset 0x0000_0000). -/
def INTC_COALST (g : Nat) : Nat := rkey 0x037 (0x104 + 8 * g)
def INTC_COALST_HELD (g : Nat) : Fld := ⟨INTC_COALST g, 31, 24⟩
def INTC_COALST_LEFT (g : Nat) : Fld := ⟨INTC_COALST g, 19, 0⟩
/-- DEV_FPMAP (DEV page 0x001, +0x040 + 4 × k, k = 0 to 3, RWL, reset 0x79C0_0000 for k = 0, 0x0000_0000 ). -/
def DEV_FPMAP (k : Nat) : Nat := rkey 0x001 (0x040 + 4 * k)
def DEV_FPMAP_CLS (k : Nat) : Fld := ⟨DEV_FPMAP k, 30, 28⟩
def DEV_FPMAP_MINSEV (k : Nat) : Fld := ⟨DEV_FPMAP k, 27, 26⟩
def DEV_FPMAP_SECOND (k : Nat) : Fld := ⟨DEV_FPMAP k, 25, 25⟩
def DEV_FPMAP_LVL (k : Nat) : Fld := ⟨DEV_FPMAP k, 24, 22⟩
/-- DEV_FPCTL (DEV page 0x001, +0x050, RW, reset 0x0000_0100). -/
def DEV_FPCTL : Nat := rkey 0x001 0x050
def DEV_FPCTL_PIN : Fld := ⟨DEV_FPCTL, 19, 16⟩
def DEV_FPCTL_PULSE : Fld := ⟨DEV_FPCTL, 15, 8⟩
def DEV_FPCTL_OUT : Fld := ⟨DEV_FPCTL, 3, 0⟩
/-- DEV_HEALTH (DEV page 0x001, +0x054, RO, reset 0x0000_0000). -/
def DEV_HEALTH : Nat := rkey 0x001 0x054
def DEV_HEALTH_S0 : Fld := ⟨DEV_HEALTH, 31, 31⟩
def DEV_HEALTH_S1 : Fld := ⟨DEV_HEALTH, 30, 30⟩
def DEV_HEALTH_SCNT : Fld := ⟨DEV_HEALTH, 29, 20⟩
def DEV_HEALTH_ICNT : Fld := ⟨DEV_HEALTH, 19, 10⟩
/-- DEV_HLOW (DEV page 0x001, +0x058, RO, reset 0x0000_0000). -/
def DEV_HLOW : Nat := rkey 0x001 0x058
def DEV_HLOW_SVALID : Fld := ⟨DEV_HLOW, 31, 31⟩
def DEV_HLOW_SPAGE : Fld := ⟨DEV_HLOW, 24, 16⟩
def DEV_HLOW_IVALID : Fld := ⟨DEV_HLOW, 15, 15⟩
def DEV_HLOW_IPAGE : Fld := ⟨DEV_HLOW, 8, 0⟩
/-- DEV_ESCLAST (DEV page 0x001, +0x05C, RO, reset 0x0000_0000). -/
def DEV_ESCLAST : Nat := rkey 0x001 0x05C
def DEV_ESCLAST_ACTION : Fld := ⟨DEV_ESCLAST, 31, 28⟩
def DEV_ESCLAST_PAGE : Fld := ⟨DEV_ESCLAST, 24, 16⟩
def DEV_ESCLAST_TICK : Fld := ⟨DEV_ESCLAST, 15, 0⟩
/-- DEV_ESCCNT (DEV page 0x001, +0x060, RO, reset 0x0000_0000). -/
def DEV_ESCCNT : Nat := rkey 0x001 0x060
def DEV_ESCCNT_L1 : Fld := ⟨DEV_ESCCNT, 31, 24⟩
def DEV_ESCCNT_L2 : Fld := ⟨DEV_ESCCNT, 23, 16⟩
def DEV_ESCCNT_L3 : Fld := ⟨DEV_ESCCNT, 15, 8⟩
def DEV_ESCCNT_LATCH : Fld := ⟨DEV_ESCCNT, 7, 0⟩
/-- DEV_SAFE (DEV page 0x001, +0x064, RO, reset 0x0000_0000). -/
def DEV_SAFE : Nat := rkey 0x001 0x064
def DEV_SAFE_ACTIVE : Fld := ⟨DEV_SAFE, 31, 31⟩
def DEV_SAFE_ABD : Fld := ⟨DEV_SAFE, 30, 30⟩
def DEV_SAFE_PAGE : Fld := ⟨DEV_SAFE, 24, 16⟩
def DEV_SAFE_TICK : Fld := ⟨DEV_SAFE, 15, 0⟩
/-- DEV_FRCCNT (DEV page 0x001, +0x068, RO, reset 0x0000_0000). -/
def DEV_FRCCNT : Nat := rkey 0x001 0x068
def DEV_FRCCNT_COUNT : Fld := ⟨DEV_FRCCNT, 15, 0⟩
/-- CHT_SAFE (CHT, +0x070, RWS, reset 0x0000_0000). -/
def CHT_SAFE (c : Nat) : Nat := rkey (0x100 + 4 * c + 1) 0x070
def CHT_SAFE_CNT (c : Nat) : Fld := ⟨CHT_SAFE c, 20, 16⟩
def CHT_SAFE_BASE (c : Nat) : Fld := ⟨CHT_SAFE c, 13, 0⟩
/-- GATE_GEN (GATE page 0x040, +0x040, RO, reset 0x0000_0000). -/
def GATE_GEN : Nat := rkey 0x040 0x040
def GATE_GEN_GEN : Fld := ⟨GATE_GEN, 31, 0⟩
/-- GATE_COMMIT (GATE page 0x040, +0x044, RWP, reset 0x0000_0000). -/
def GATE_COMMIT : Nat := rkey 0x040 0x044
def GATE_COMMIT_GO : Fld := ⟨GATE_COMMIT, 31, 31⟩
def GATE_COMMIT_BUSY : Fld := ⟨GATE_COMMIT, 30, 30⟩
def GATE_COMMIT_PERMIT : Fld := ⟨GATE_COMMIT, 29, 29⟩
def GATE_COMMIT_ERR : Fld := ⟨GATE_COMMIT, 19, 16⟩
def GATE_COMMIT_ENTA : Fld := ⟨GATE_COMMIT, 15, 8⟩
def GATE_COMMIT_ENTB : Fld := ⟨GATE_COMMIT, 7, 0⟩
/-- GATE_VADDR (GATE page 0x040, +0x050, RO, reset 0x0000_0000). -/
def GATE_VADDR : Nat := rkey 0x040 0x050
def GATE_VADDR_ADDR : Fld := ⟨GATE_VADDR, 31, 0⟩
/-- GATE_VBYTE (GATE page 0x040, +0x054, RO, reset 0x0000_0000). -/
def GATE_VBYTE : Nat := rkey 0x040 0x054
def GATE_VBYTE_ADDR : Fld := ⟨GATE_VBYTE, 31, 0⟩
/-- GATE_VINFO (GATE page 0x040, +0x058, RO, reset 0x0000_0000). -/
def GATE_VINFO : Nat := rkey 0x040 0x058
def GATE_VINFO_VALID : Fld := ⟨GATE_VINFO, 31, 31⟩
def GATE_VINFO_KIND : Fld := ⟨GATE_VINFO, 30, 28⟩
def GATE_VINFO_INUM : Fld := ⟨GATE_VINFO, 27, 24⟩
def GATE_VINFO_PRIV : Fld := ⟨GATE_VINFO, 23, 22⟩
def GATE_VINFO_TYPE : Fld := ⟨GATE_VINFO, 21, 20⟩
def GATE_VINFO_REASON : Fld := ⟨GATE_VINFO, 19, 16⟩
def GATE_VINFO_GATE : Fld := ⟨GATE_VINFO, 15, 12⟩
def GATE_VINFO_GEN : Fld := ⟨GATE_VINFO, 7, 0⟩
/-- GATE_VCNT (GATE page 0x040, +0x05C, RO, reset 0x0000_0000). -/
def GATE_VCNT : Nat := rkey 0x040 0x05C
def GATE_VCNT_COUNT : Fld := ⟨GATE_VCNT, 31, 0⟩
/-- GATE_RXGRAN (GATE page 0x040, +0x060 + 4 × w, w = 0 to 1, RO, reset 0x0000_0000). -/
def GATE_RXGRAN (w : Nat) : Nat := rkey 0x040 (0x060 + 4 * w)
def GATE_RXGRAN_MARK (w : Nat) : Fld := ⟨GATE_RXGRAN w, 31, 0⟩
/-- GATE_TBL (GATE page 0x041, +0x800 + 8 × i, i = 0 to 255, two words, RO, reset: under R428 and R429). -/
def GATE_TBL (i : Nat) (j : Nat) : Nat := rkey 0x041 (0x800 + 8 * i + 4 * j)
def GATE_TBL_W (i : Nat) (j : Nat) : Fld := ⟨GATE_TBL i j, 31, 0⟩
/-- GATE_STG (GATE page 0x042, +0x800 + 8 × i, i = 16 to 255, two words, RWP, reset: as GATE_TBL). -/
def GATE_STG (i : Nat) (j : Nat) : Nat := rkey 0x042 (0x800 + 8 * i + 4 * j)
def GATE_STG_W (i : Nat) (j : Nat) : Fld := ⟨GATE_STG i j, 31, 0⟩
/-- TWIN_CFG (TWIN page 0x070, +0x040, RWS, reset 0x0000_0000). -/
def TWIN_CFG : Nat := rkey 0x070 0x040
def TWIN_CFG_PREF : Fld := ⟨TWIN_CFG, 0, 0⟩
/-- TWIN_PEER (TWIN page 0x070, +0x044 + 4 × i, i = 0 to 3, RWP, reset 0x0000_0000). -/
def TWIN_PEER (i : Nat) : Nat := rkey 0x070 (0x044 + 4 * i)
def TWIN_PEER_ID (i : Nat) : Fld := ⟨TWIN_PEER i, 31, 0⟩
/-- TWIN_CTL (TWIN page 0x070, +0x054, RWP, reset 0x0000_0000). -/
def TWIN_CTL : Nat := rkey 0x070 0x054
def TWIN_CTL_ABDICATE : Fld := ⟨TWIN_CTL, 0, 0⟩
/-- TWIN_STAT (TWIN page 0x070, +0x058, RO, reset 0x0000_0000). -/
def TWIN_STAT : Nat := rkey 0x070 0x058
def TWIN_STAT_ROLE : Fld := ⟨TWIN_STAT, 31, 30⟩
def TWIN_STAT_LINK : Fld := ⟨TWIN_STAT, 29, 29⟩
def TWIN_STAT_PREADY : Fld := ⟨TWIN_STAT, 28, 28⟩
def TWIN_STAT_READY : Fld := ⟨TWIN_STAT, 27, 27⟩
def TWIN_STAT_HSLINE : Fld := ⟨TWIN_STAT, 26, 26⟩
def TWIN_STAT_MISSED : Fld := ⟨TWIN_STAT, 7, 0⟩
/-- TWIN_CNT (TWIN page 0x070, +0x05C, RO, reset 0x0000_0000). -/
def TWIN_CNT : Nat := rkey 0x070 0x05C
def TWIN_CNT_TAKEOVERS : Fld := ⟨TWIN_CNT, 31, 24⟩
def TWIN_CNT_ABDICATIONS : Fld := ⟨TWIN_CNT, 23, 16⟩
def TWIN_CNT_SPLITS : Fld := ⟨TWIN_CNT, 15, 8⟩
def TWIN_CNT_JOINS : Fld := ⟨TWIN_CNT, 7, 0⟩
/-- TWIN_LNKCNT (TWIN page 0x070, +0x060, RO, reset 0x0000_0000). -/
def TWIN_LNKCNT : Nat := rkey 0x070 0x060
def TWIN_LNKCNT_BADTAG : Fld := ⟨TWIN_LNKCNT, 31, 16⟩
def TWIN_LNKCNT_DROPS : Fld := ⟨TWIN_LNKCNT, 15, 0⟩
/-- TWIN_SYNC (TWIN page 0x071, +0x040, RO, reset 0x0000_0000). -/
def TWIN_SYNC : Nat := rkey 0x071 0x040
def TWIN_SYNC_PHASE : Fld := ⟨TWIN_SYNC, 31, 29⟩
def TWIN_SYNC_PCT : Fld := ⟨TWIN_SYNC, 7, 0⟩
/-- DEV_PART (DEV page 0x000, +0x040, RO, reset: variant). -/
def DEV_PART : Nat := rkey 0x000 0x040
def DEV_PART_PART : Fld := ⟨DEV_PART, 31, 16⟩
def DEV_PART_STEP : Fld := ⟨DEV_PART, 15, 8⟩
def DEV_PART_HAMLETS : Fld := ⟨DEV_PART, 7, 4⟩
def DEV_PART_MILLS : Fld := ⟨DEV_PART, 3, 0⟩
/-- DEV_STRAP (DEV page 0x000, +0x044, RO, reset: sampled). -/
def DEV_STRAP : Nat := rkey 0x000 0x044
def DEV_STRAP_VAUX : Fld := ⟨DEV_STRAP, 3, 3⟩
def DEV_STRAP_MAIN : Fld := ⟨DEV_STRAP, 2, 2⟩
def DEV_STRAP_PHYB : Fld := ⟨DEV_STRAP, 1, 1⟩
def DEV_STRAP_PHYA : Fld := ⟨DEV_STRAP, 0, 0⟩
/-- DEV_RSTCAUSE (DEV page 0x000, +0x048, RO, reset: kept in the always-on domain). -/
def DEV_RSTCAUSE : Nat := rkey 0x000 0x048
def DEV_RSTCAUSE_CAUSE : Fld := ⟨DEV_RSTCAUSE, 31, 28⟩
def DEV_RSTCAUSE_TIMEKEPT : Fld := ⟨DEV_RSTCAUSE, 27, 27⟩
def DEV_RSTCAUSE_BELLMS : Fld := ⟨DEV_RSTCAUSE, 15, 0⟩
/-- DEV_RST (DEV page 0x000, +0x04C, RWP, reset 0x0000_0000). -/
def DEV_RST : Nat := rkey 0x000 0x04C
def DEV_RST_GO : Fld := ⟨DEV_RST, 31, 31⟩
def DEV_RST_KEY : Fld := ⟨DEV_RST, 7, 0⟩
/-- DEV_LGREC (DEV page 0x000, +0x100, 68 words, RO, reset: from flash). -/
def DEV_LGREC (j : Nat) : Nat := rkey 0x000 (0x100 + 4 * j)
def DEV_LGREC_W (j : Nat) : Fld := ⟨DEV_LGREC j, 31, 0⟩
/-- PWR_STAT (PWR page 0x008, +0x040, RO, reset 0x0000_0000). -/
def PWR_STAT : Nat := rkey 0x008 0x040
def PWR_STAT_LG : Fld := ⟨PWR_STAT, 31, 31⟩
def PWR_STAT_HOLDOK : Fld := ⟨PWR_STAT, 30, 30⟩
def PWR_STAT_SRC : Fld := ⟨PWR_STAT, 29, 28⟩
def PWR_STAT_AOK : Fld := ⟨PWR_STAT, 27, 27⟩
def PWR_STAT_BOK : Fld := ⟨PWR_STAT, 26, 26⟩
def PWR_STAT_VAUXON : Fld := ⟨PWR_STAT, 25, 25⟩
def PWR_STAT_VAUXOC : Fld := ⟨PWR_STAT, 24, 24⟩
def PWR_STAT_CLASS : Fld := ⟨PWR_STAT, 7, 0⟩
/-- PWR_CFG (PWR page 0x008, +0x044, RW, reset 0x8000_0000 with VAUXEN from STRAP_VAUX). -/
def PWR_CFG : Nat := rkey 0x008 0x044
def PWR_CFG_REVERT : Fld := ⟨PWR_CFG, 31, 31⟩
def PWR_CFG_VAUXEN : Fld := ⟨PWR_CFG, 30, 30⟩
/-- PWR_VIN (PWR page 0x008, +0x048, RO, reset 0x0000_0000). -/
def PWR_VIN : Nat := rkey 0x008 0x048
def PWR_VIN_A : Fld := ⟨PWR_VIN, 31, 16⟩
def PWR_VIN_B : Fld := ⟨PWR_VIN, 15, 0⟩
/-- PWR_HOLD (PWR page 0x008, +0x04C, RO, reset 0x0000_0000). -/
def PWR_HOLD : Nat := rkey 0x008 0x04C
def PWR_HOLD_CAP : Fld := ⟨PWR_HOLD, 31, 16⟩
def PWR_HOLD_VOLT : Fld := ⟨PWR_HOLD, 15, 0⟩
/-- PWR_LOAD (PWR page 0x008, +0x050, RO, reset 0x0000_0000). -/
def PWR_LOAD : Nat := rkey 0x008 0x050
def PWR_LOAD_PIN : Fld := ⟨PWR_LOAD, 31, 16⟩
def PWR_LOAD_VAUX : Fld := ⟨PWR_LOAD, 15, 0⟩
/-- PWR_CNT (PWR page 0x008, +0x054, RO, reset 0x0000_0000). -/
def PWR_CNT : Nat := rkey 0x008 0x054
def PWR_CNT_SWITCH : Fld := ⟨PWR_CNT, 31, 24⟩
def PWR_CNT_REVERTS : Fld := ⟨PWR_CNT, 23, 16⟩
def PWR_CNT_BACKLOST : Fld := ⟨PWR_CNT, 15, 8⟩
def PWR_CNT_VAUXOC : Fld := ⟨PWR_CNT, 7, 0⟩
/-- PWR_RAIL (PWR page 0x009, +0x040 + 4 × r, r = 0 to 5 in the order of R470, RO, reset 0x0000_0000). -/
def PWR_RAIL (r : Nat) : Nat := rkey 0x009 (0x040 + 4 * r)
def PWR_RAIL_INREG (r : Nat) : Fld := ⟨PWR_RAIL r, 31, 31⟩
def PWR_RAIL_MV (r : Nat) : Fld := ⟨PWR_RAIL r, 15, 0⟩
/-- CFG_ARMTICKHI (CFG, +0x058, RO, reset 0x0000_0000). -/
def CFG_ARMTICKHI : Nat := rkey 0x060 0x058
def CFG_ARMTICKHI_TICK : Fld := ⟨CFG_ARMTICKHI, 15, 0⟩
/-- TIME_GMIDLO (TIME, +0x060, RO, reset 0x0000_0000). -/
def TIME_GMIDLO (x : Nat) : Nat := rkey (0x011 + x) 0x060
def TIME_GMIDLO_ID (x : Nat) : Fld := ⟨TIME_GMIDLO x, 31, 0⟩
/-- SVC_PIWR (SVC page 0x050, +0x044, RO, reset 0x0000_0000). -/
def SVC_PIWR : Nat := rkey 0x050 0x044
def SVC_PIWR_COUNT : Fld := ⟨SVC_PIWR, 31, 0⟩
/-- SVC_PIPUB (SVC page 0x050, +0x048, RO, reset 0x0000_0000). -/
def SVC_PIPUB : Nat := rkey 0x050 0x048
def SVC_PIPUB_COUNT : Fld := ⟨SVC_PIPUB, 31, 0⟩
/-- SVC_PIMARK (SVC page 0x050, +0x04C, RO, reset 0x0000_0000). -/
def SVC_PIMARK : Nat := rkey 0x050 0x04C
def SVC_PIMARK_COUNT : Fld := ⟨SVC_PIMARK, 31, 0⟩
/-- SVC_BADMAP (SVC page 0x050, +0x050, RO, reset 0x0000_0000). -/
def SVC_BADMAP : Nat := rkey 0x050 0x050
def SVC_BADMAP_COUNT : Fld := ⟨SVC_BADMAP, 31, 0⟩
/-- SVC_SOEWR (SVC page 0x050, +0x054, RO, reset 0x0000_0000). -/
def SVC_SOEWR : Nat := rkey 0x050 0x054
def SVC_SOEWR_COUNT : Fld := ⟨SVC_SOEWR, 31, 0⟩
/-- SVC_SOELOST (SVC page 0x050, +0x058, RO, reset 0x0000_0000). -/
def SVC_SOELOST : Nat := rkey 0x050 0x058
def SVC_SOELOST_COUNT : Fld := ⟨SVC_SOELOST, 31, 0⟩
/-- SVC_EVLOST (SVC page 0x050, +0x05C, RO, reset 0x0000_0000). -/
def SVC_EVLOST : Nat := rkey 0x050 0x05C
def SVC_EVLOST_COUNT : Fld := ⟨SVC_EVLOST, 31, 0⟩
/-- SVC_TOACC (SVC page 0x050, +0x060, RO, reset 0x0000_0000). -/
def SVC_TOACC : Nat := rkey 0x050 0x060
def SVC_TOACC_COUNT : Fld := ⟨SVC_TOACC, 31, 0⟩
/-- SVC_TOSENT (SVC page 0x050, +0x064, RO, reset 0x0000_0000). -/
def SVC_TOSENT : Nat := rkey 0x050 0x064
def SVC_TOSENT_COUNT : Fld := ⟨SVC_TOSENT, 31, 0⟩
/-- SVC_TOLATE (SVC page 0x050, +0x068, RO, reset 0x0000_0000). -/
def SVC_TOLATE : Nat := rkey 0x050 0x068
def SVC_TOLATE_COUNT : Fld := ⟨SVC_TOLATE, 31, 0⟩
/-- SVC_TOMISS (SVC page 0x050, +0x06C, RO, reset 0x0000_0000). -/
def SVC_TOMISS : Nat := rkey 0x050 0x06C
def SVC_TOMISS_COUNT : Fld := ⟨SVC_TOMISS, 31, 0⟩
/-- SVC_TOCANC (SVC page 0x050, +0x070, RO, reset 0x0000_0000). -/
def SVC_TOCANC : Nat := rkey 0x050 0x070
def SVC_TOCANC_COUNT : Fld := ⟨SVC_TOCANC, 31, 0⟩

/-- Registers of the hdr page kind. -/
def rows_hdr : List RegRow :=
  [⟨0x000, 0, 1, 0, 1, 0x00000000, [(.ro, 31, 24), (.ro, 23, 16), (.ro, 7, 0)]⟩,  -- PG_ID
   ⟨0x004, 0, 1, 0, 1, 0x00000000, [(.rw, 2, 2), (.w1s, 1, 1), (.rw, 0, 0)]⟩,  -- PG_CTL
   ⟨0x008, 0, 1, 0, 1, 0x00000000, [(.ro, 4, 4), (.w1c, 3, 3), (.ro, 2, 2), (.ro, 1, 1), (.ro, 0, 0)]⟩,  -- PG_STAT
   ⟨0x00C, 0, 1, 0, 1, 0x00000000, [(.ro, 31, 0)]⟩,  -- PG_GEN
   ⟨0x010, 0, 1, 0, 1, 0x00000000, [(.w1c, 31, 31), (.w1c, 30, 0)]⟩,  -- PG_IST
   ⟨0x014, 0, 1, 0, 1, 0x00000000, [(.rw, 31, 0)]⟩,  -- PG_IEN
   ⟨0x018, 0, 1, 0, 1, 0x00000000, [(.wo, 31, 0)]⟩,  -- PG_IFRC
   ⟨0x01C, 0, 1, 0, 1, 0x00000000, [(.ro, 31, 31), (.ro, 30, 30), (.ro, 29, 29), (.ro, 25, 24), (.ro, 20, 12), (.ro, 7, 0)]⟩,  -- PG_FLT
   ⟨0x020, 0, 1, 0, 1, 0x00000000, [(.ro, 17, 16), (.ro, 15, 0)]⟩,  -- PG_FLTX
   ⟨0x024, 0, 1, 0, 1, 0x00000000, [(.wo, 31, 0)]⟩,  -- PG_FFRC
   ⟨0x028, 0, 1, 0, 1, 0x00000000, [(.wo, 0, 0)]⟩,  -- PG_FACK
   ⟨0x02C, 0, 1, 0, 1, 0x00000000, [(.rw, 31, 28), (.rw, 27, 26), (.rw, 23, 0)]⟩,  -- PG_ESC
   ⟨0x030, 0, 1, 0, 1, 0x00000000, [(.ro, 7, 0)]⟩,  -- PG_RCNT
   ⟨0x034, 0, 1, 0, 1, 0x00000000, [(.rw, 31, 24), (.rw, 23, 0)]⟩]  -- PG_QUIET

/-- Registers of the upl page kind. -/
def rows_upl : List RegRow :=
  [⟨0x040, 0, 1, 0, 1, 0x00000000, [(.ro, 31, 31), (.ro, 30, 30), (.ro, 29, 28), (.ro, 15, 0)]⟩,  -- UPL_LINK
   ⟨0x044, 0, 1, 0, 1, 0x00000000, [(.ro, 31, 16), (.ro, 15, 0)]⟩,  -- UPL_DISC0
   ⟨0x048, 0, 1, 0, 1, 0x00000000, [(.ro, 31, 16), (.ro, 15, 0)]⟩,  -- UPL_DISC1
   ⟨0x04C, 0, 1, 0, 1, 0x00000000, [(.ro, 15, 0)]⟩,  -- UPL_DISC2
   ⟨0x050, 0, 1, 0, 1, 0x00000000, [(.ro, 31, 0)]⟩,  -- UPL_RXCNT
   ⟨0x054, 0, 1, 0, 1, 0x00000000, [(.ro, 31, 0)]⟩]  -- UPL_TXCNT

/-- Registers of the p002 page kind. -/
def rows_p002 : List RegRow :=
  [⟨0x040, 0, 1, 0, 1, 0x00000010, [(.ro, 8, 0)]⟩,  -- DEV_BPERIOD
   ⟨0x044, 0, 1, 0, 1, 0x00000000, [(.ro, 31, 0)]⟩,  -- DEV_TICKLO
   ⟨0x048, 0, 1, 0, 1, 0x00000000, [(.ro, 15, 0)]⟩,  -- DEV_TICKHI
   ⟨0x04C, 0, 1, 0, 1, 0x00000000, [(.ro, 31, 0)]⟩,  -- DEV_TOVRCNT
   ⟨0x050, 0, 1, 0, 1, 0x00000000, [(.ro, 31, 16), (.ro, 8, 8), (.ro, 7, 0)]⟩,  -- DEV_TOVRSRC
   ⟨0x054, 0, 1, 0, 1, 0x00FFFFFF, [(.w1s, 31, 31), (.ro, 23, 0)]⟩]  -- DEV_BSLACK

/-- Registers of the chc page kind. -/
def rows_chc : List RegRow :=
  [⟨0x0C0, 0, 1, 0, 1, 0x00000000, [(.ro, 31, 16), (.ro, 15, 0)]⟩,  -- CHC_WIN
   ⟨0x0C4, 0, 1, 0, 1, 0x00000000, [(.ro, 31, 16), (.ro, 15, 0)]⟩,  -- CHC_BELLCNT
   ⟨0x0C8, 0, 1, 0, 1, 0x00000000, [(.ro, 31, 16), (.ro, 15, 0)]⟩,  -- CHC_BELLLAG
   ⟨0x040, 0, 1, 0, 1, 0x00000000, [(.rws, 31, 31), (.rws, 30, 28), (.rws, 27, 25)]⟩,  -- CHC_LINE
   ⟨0x044, 0, 1, 0, 1, 0xA0145099, [(.rws, 31, 24), (.rws, 23, 16), (.rws, 15, 10), (.rws, 9, 4), (.rws, 3, 0)]⟩,  -- CHC_ABT
   ⟨0x048, 0, 1, 0, 1, 0x100E2A8F, [(.rws, 31, 24), (.rws, 21, 16), (.rws, 15, 10), (.rws, 9, 6), (.rws, 5, 0)]⟩,  -- CHC_DBT
   ⟨0x04C, 0, 1, 0, 1, 0x00000000, [(.ro, 31, 24), (.ro, 23, 16), (.ro, 7, 0)]⟩,  -- CHC_LDLY
   ⟨0x050, 0, 1, 0, 1, 0x00000000, [(.rwl, 1, 1), (.rwl, 0, 0)]⟩,  -- CHC_XCVR
   ⟨0x054, 0, 1, 0, 1, 0x00000000, [(.ro, 15, 8), (.ro, 6, 6), (.ro, 5, 5), (.ro, 4, 4), (.ro, 3, 3), (.ro, 2, 2), (.ro, 1, 1), (.ro, 0, 0)]⟩,  -- CHC_XSTAT
   ⟨0x100, 0, 1, 0, 1, 0x00000040, [(.rws, 31, 31), (.rws, 30, 30), (.rws, 15, 0)]⟩,  -- CHC_CURCFG
   ⟨0x104, 0, 1, 0, 1, 0x0000000A, [(.rws, 5, 0)]⟩,  -- CHC_WAKEFILT
   ⟨0x108, 0, 1, 0, 1, 0x000000FF, [(.w1c, 15, 8), (.rws, 7, 0)]⟩,  -- CHC_QGMASK
   ⟨0x10C, 0, 1, 0, 1, 0x00000000, [(.w1s, 0, 0)]⟩,  -- CHC_CURCTL
   ⟨0x110, 0, 1, 0, 1, 0x00000000, [(.ro, 15, 8), (.wo, 0, 0)]⟩,  -- CHC_VETO
   ⟨0x114, 0, 1, 0, 1, 0x00000000, [(.ro, 31, 29), (.ro, 28, 26), (.ro, 15, 0)]⟩,  -- CHC_CURSTAT
   ⟨0x118, 0, 1, 0, 1, 0x00000000, [(.ro, 31, 16), (.ro, 15, 0)]⟩,  -- CHC_CURCNT
   ⟨0x11C, 0, 1, 0, 1, 0x00000000, [(.ro, 31, 16), (.ro, 15, 0)]⟩,  -- CHC_SLPCNT
   ⟨0x120, 0, 1, 0, 1, 0x00000000, [(.ro, 15, 0)]⟩]  -- CHC_WAKECNT

/-- Registers of the cht page kind. -/
def rows_cht : List RegRow :=
  [⟨0x040, 0, 1, 0, 1, 0x00000000, [(.ro, 30, 16), (.ro, 13, 0)]⟩,  -- CHT_TXRANGE
   ⟨0x044, 0, 1, 0, 1, 0x00000000, [(.ro, 31, 0)]⟩,  -- CHT_TXADDR
   ⟨0x048, 0, 1, 0, 1, 0x00000010, [(.rws, 7, 0)]⟩,  -- CHT_AGELIM
   ⟨0x04C, 0, 1, 0, 1, 0x00000000, [(.wo, 13, 0)]⟩,  -- CHT_QPUSH
   ⟨0x050, 0, 1, 0, 1, 0x00000000, [(.wo, 31, 31), (.wo, 13, 0)]⟩,  -- CHT_ABORT
   ⟨0x054, 0, 1, 0, 1, 0x00000000, [(.ro, 31, 31), (.ro, 29, 16), (.ro, 15, 8), (.ro, 7, 0)]⟩,  -- CHT_QSTAT
   ⟨0x058, 0, 1, 0, 1, 0x00000000, [(.ro, 31, 31), (.ro, 30, 28), (.ro, 27, 24), (.ro, 13, 0)]⟩,  -- CHT_CUR
   ⟨0x05C, 0, 1, 0, 1, 0x00000000, [(.ro, 31, 0)]⟩,  -- CHT_SENTCNT
   ⟨0x060, 0, 1, 0, 1, 0x00000000, [(.ro, 31, 0)]⟩,  -- CHT_ERRCNT
   ⟨0x064, 0, 1, 0, 1, 0x00000000, [(.ro, 31, 0)]⟩,  -- CHT_LOSTCNT
   ⟨0x068, 0, 1, 0, 1, 0x00000000, [(.ro, 31, 16), (.ro, 15, 0)]⟩,  -- CHT_MISC
   ⟨0x06C, 0, 1, 0, 1, 0x00000000, [(.ro, 31, 24), (.ro, 23, 16), (.ro, 15, 8), (.ro, 7, 0)]⟩,  -- CHT_ENDCNT
   ⟨0x070, 0, 1, 0, 1, 0x00000000, [(.rws, 20, 16), (.rws, 13, 0)]⟩]  -- CHT_SAFE

/-- Registers of the chx page kind. -/
def rows_chx : List RegRow :=
  [⟨0x040, 0, 1, 0, 1, 0x00000000, [(.ro, 30, 16), (.ro, 13, 0)]⟩,  -- CHX_RXRANGE
   ⟨0x044, 0, 1, 0, 1, 0x00000000, [(.ro, 31, 0)]⟩,  -- CHX_RXADDR
   ⟨0x048, 0, 1, 0, 1, 0x00000000, [(.rws, 31, 31), (.rws, 13, 0)]⟩,  -- CHX_RXCFG
   ⟨0x04C, 0, 1, 0, 1, 0x00000000, [(.wo, 31, 24), (.wo, 13, 0)]⟩,  -- CHX_RXREL
   ⟨0x050, 0, 1, 0, 1, 0x00000000, [(.ro, 31, 0)]⟩,  -- CHX_RXCNT
   ⟨0x054, 0, 1, 0, 1, 0x00000000, [(.ro, 31, 16), (.ro, 15, 0)]⟩,  -- CHX_MATCH
   ⟨0x058, 0, 1, 0, 1, 0x00000000, [(.ro, 31, 16), (.ro, 15, 0)]⟩,  -- CHX_MISSCNT
   ⟨0x05C, 0, 1, 0, 1, 0x00000000, [(.ro, 31, 16), (.ro, 15, 0)]⟩,  -- CHX_OVFCNT
   ⟨0x060, 0, 1, 0, 1, 0x00000000, [(.ro, 31, 24), (.ro, 23, 16), (.ro, 15, 8), (.ro, 7, 0)]⟩,  -- CHX_REFCNT
   ⟨0x064, 0, 1, 0, 1, 0x00000000, [(.ro, 31, 16), (.ro, 15, 0)]⟩,  -- CHX_LOSSCNT
   ⟨0x400, 16, 64, 0, 1, 0x00000000, [(.rws, 31, 31), (.rws, 29, 0)]⟩,  -- CHX_MF
   ⟨0x404, 16, 64, 0, 1, 0x00000000, [(.rws, 29, 0)]⟩,  -- CHX_MF
   ⟨0x408, 16, 64, 0, 1, 0x00000000, [(.rws, 31, 16), (.rws, 13, 0)]⟩,  -- CHX_MF
   ⟨0x40C, 16, 64, 0, 1, 0x00000000, [(.rws, 31, 24), (.rws, 15, 0)]⟩,  -- CHX_MF
   ⟨0x800, 4, 64, 0, 1, 0x00000000, [(.ro, 31, 0)]⟩,  -- CHX_MHIT
   ⟨0x080, 0, 1, 0, 1, 0x00000056, [(.rws, 31, 31), (.rws, 7, 0)]⟩,  -- CHX_AUTHCFG
   ⟨0x084, 0, 1, 0, 1, 0x40000000, [(.rwp, 31, 24), (.rwp, 20, 20), (.rwp, 19, 0)]⟩,  -- CHX_KEYCFG
   ⟨0x088, 0, 1, 0, 1, 0x00000000, [(.ro, 31, 16), (.ro, 15, 0)]⟩,  -- CHX_EPOCH
   ⟨0x08C, 0, 1, 0, 1, 0x10000000, [(.ro, 28, 28), (.ro, 27, 27), (.ro, 26, 26), (.ro, 25, 24), (.ro, 23, 0)]⟩,  -- CHX_EPSTAT
   ⟨0x090, 0, 1, 0, 1, 0x00000000, [(.ro, 31, 31), (.ro, 30, 30), (.ro, 28, 0)]⟩,  -- CHX_KEYUSE
   ⟨0x094, 0, 1, 0, 1, 0x00000000, [(.ro, 28, 0)]⟩,  -- CHX_KEYUSEN
   ⟨0x098, 0, 1, 0, 1, 0x00000000, [(.ro, 31, 1)]⟩,  -- CHX_ENROLL
   ⟨0x09C, 0, 1, 0, 1, 0x00000000, [(.ro, 31, 1)]⟩,  -- CHX_CONFIRM
   ⟨0x0A0, 0, 1, 0, 1, 0x00000000, [(.ro, 31, 0)]⟩,  -- CHX_AUTHCNT
   ⟨0x0A4, 0, 1, 0, 1, 0x00000000, [(.ro, 31, 16), (.ro, 15, 0)]⟩,  -- CHX_AUTHSTAT
   ⟨0x0A8, 0, 1, 0, 1, 0x00000000, [(.ro, 31, 16), (.ro, 15, 8), (.ro, 7, 0)]⟩]  -- CHX_EPCNT

/-- Registers of the ham page kind. -/
def rows_ham : List RegRow :=
  [⟨0x100, 0, 1, 0, 1, 0x00000000, [(.ro, 31, 0)]⟩,  -- HAM_FILTADDR
   ⟨0x104, 0, 1, 0, 1, 0x00000000, [(.rwl, 1, 1), (.rwl, 0, 0)]⟩,  -- HAM_PFCTL
   ⟨0x108, 0, 1, 0, 1, 0x00000000, [(.ro, 31, 16), (.ro, 13, 8), (.ro, 6, 0)]⟩,  -- HAM_PFSTAT
   ⟨0x10C, 0, 1, 0, 1, 0x00000000, [(.wo, 6, 0)]⟩,  -- HAM_PFPOP
   ⟨0x800, 32, 64, 4, 8, 0x00000000, [(.ro, 31, 0)]⟩,  -- HAM_PF
   ⟨0x040, 0, 1, 0, 1, 0x0F000000, [(.ro, 31, 28), (.ro, 27, 24), (.ro, 15, 0)]⟩,  -- HAM_MILL
   ⟨0x044, 0, 1, 0, 1, 0x00000000, [(.rwp, 0, 0)]⟩,  -- HAM_MIGRATE
   ⟨0x048, 0, 1, 0, 1, 0x00000000, [(.ro, 31, 28), (.ro, 23, 0)]⟩,  -- HAM_MIGLAST
   ⟨0x04C, 0, 1, 0, 1, 0x00000000, [(.ro, 31, 16), (.ro, 7, 0)]⟩]  -- HAM_WHEEL

/-- Registers of the chs page kind. -/
def rows_chs : List RegRow :=
  [⟨0x040, 0, 1, 0, 1, 0x00000000, [(.ro, 31, 30), (.ro, 29, 29), (.ro, 28, 28), (.ro, 8, 0)]⟩,  -- CHS_TEC
   ⟨0x044, 0, 1, 0, 1, 0x00000000, [(.ro, 7, 0)]⟩,  -- CHS_REC
   ⟨0x048, 0, 1, 0, 1, 0x00000208, [(.rws, 9, 8), (.rws, 7, 0)]⟩,  -- CHS_BOCFG
   ⟨0x04C, 0, 1, 0, 1, 0x00000000, [(.w1s, 1, 1), (.w1s, 0, 0)]⟩,  -- CHS_BOCTL
   ⟨0x050, 0, 1, 0, 1, 0x00000000, [(.ro, 31, 24), (.ro, 21, 16), (.ro, 15, 0)]⟩,  -- CHS_BOSTAT
   ⟨0x054, 0, 1, 0, 1, 0x00000001, [(.rwp, 1, 1), (.rwp, 0, 0)]⟩,  -- CHS_NSCFG
   ⟨0x058, 0, 1, 0, 1, 0x00002710, [(.rwp, 23, 0)]⟩,  -- CHS_FENCEHOLD
   ⟨0x05C, 0, 1, 0, 1, 0x00000000, [(.ro, 31, 1)]⟩,  -- CHS_FENCE
   ⟨0x060, 0, 1, 0, 1, 0x00000000, [(.ro, 31, 1)]⟩,  -- CHS_WARNM
   ⟨0x064, 0, 1, 0, 1, 0x00000000, [(.ro, 31, 16), (.ro, 15, 8), (.ro, 7, 0)]⟩,  -- CHS_FCNT
   ⟨0x068, 0, 1, 0, 1, 0x00000000, [(.ro, 31, 16), (.ro, 15, 0)]⟩,  -- CHS_ECNT0
   ⟨0x06C, 0, 1, 0, 1, 0x00000000, [(.ro, 31, 16), (.ro, 15, 0)]⟩,  -- CHS_ECNT1
   ⟨0x070, 0, 1, 0, 1, 0x00000000, [(.ro, 31, 16), (.ro, 15, 8), (.ro, 7, 0)]⟩,  -- CHS_ECNT2
   ⟨0x074, 0, 1, 0, 1, 0x00000000, [(.ro, 31, 24), (.ro, 23, 16), (.ro, 15, 8), (.ro, 7, 0)]⟩,  -- CHS_ANOM
   ⟨0x078, 0, 1, 0, 1, 0x00000000, [(.ro, 31, 24), (.ro, 23, 0)]⟩,  -- CHS_STUCK
   ⟨0x100, 4, 32, 0, 1, 0x00000000, [(.ro, 31, 31), (.ro, 30, 30), (.ro, 29, 29), (.ro, 23, 16), (.ro, 7, 0)]⟩]  -- CHS_NODE

/-- Registers of the mill page kind. -/
def rows_mill : List RegRow :=
  [⟨0x040, 0, 1, 0, 1, 0x00000001, [(.ro, 27, 24), (.ro, 2, 0)]⟩,  -- MILL_STAT
   ⟨0x044, 0, 1, 0, 1, 0x00000000, [(.ro, 15, 0)]⟩,  -- MILL_MMCNT
   ⟨0x048, 0, 1, 0, 1, 0x00000000, [(.ro, 31, 28), (.ro, 27, 25), (.ro, 15, 0)]⟩,  -- MILL_MMINFO
   ⟨0x04C, 0, 1, 0, 1, 0x00000000, [(.rwp, 31, 31), (.ro, 30, 29), (.ro, 15, 0)]⟩,  -- MILL_BIST
   ⟨0x050, 0, 1, 0, 1, 0x00000000, [(.ro, 15, 8), (.ro, 7, 0)]⟩]  -- MILL_USE

/-- Registers of the p020 page kind. -/
def rows_p020 : List RegRow :=
  [⟨0x040, 0, 1, 0, 1, 0x00000000, [(.ro, 31, 31), (.ro, 30, 30), (.ro, 29, 29), (.ro, 28, 28)]⟩,  -- SEC_MODE
   ⟨0x044, 0, 1, 0, 1, 0x00000000, [(.ro, 7, 4), (.ro, 3, 0)]⟩,  -- SEC_AUTH
   ⟨0x048, 0, 1, 0, 1, 0x00000000, [(.ro, 31, 31), (.ro, 23, 16), (.ro, 15, 8)]⟩,  -- SEC_RNG
   ⟨0x080, 4, 12, 0, 1, 0x00000000, [(.ro, 31, 0)]⟩,  -- SEC_IDHASH
   ⟨0x100, 64, 4, 4, 12, 0x00000000, [(.ro, 31, 0)]⟩,  -- SEC_AHASH
   ⟨0x200, 16, 4, 4, 4, 0x00000000, [(.ro, 31, 0)]⟩]  -- SEC_SEQ

/-- Registers of the p021 page kind. -/
def rows_p021 : List RegRow :=
  [⟨0x040, 4, 833, 0, 1, 0x00000000, [(.ro, 31, 0)]⟩]  -- SEC_IDPUB

/-- Registers of the p028 page kind. -/
def rows_p028 : List RegRow :=
  [⟨0x040, 4, 8, 0, 1, 0x00000000, [(.ro, 31, 31), (.ro, 30, 30), (.ro, 29, 29), (.ro, 27, 26), (.ro, 25, 25), (.ro, 24, 24), (.ro, 6, 0)]⟩,  -- PEN_SESS
   ⟨0x060, 4, 8, 0, 1, 0x00000000, [(.ro, 31, 0)]⟩,  -- PEN_SEXP
   ⟨0x080, 0, 1, 0, 1, 0x00000000, [(.wo, 3, 3), (.wo, 2, 0)]⟩,  -- PEN_CLOSE
   ⟨0x084, 0, 1, 0, 1, 0x00FF0000, [(.ro, 31, 0)]⟩,  -- PEN_BUFADDR
   ⟨0x088, 0, 1, 0, 1, 0x00000000, [(.wo, 12, 0)]⟩,  -- PEN_OPGO
   ⟨0x090, 0, 1, 0, 1, 0x00000000, [(.ro, 31, 24), (.ro, 23, 20), (.ro, 19, 18), (.ro, 15, 12)]⟩,  -- PEN_REFLAST
   ⟨0x094, 0, 1, 0, 1, 0x00000000, [(.ro, 31, 0)]⟩,  -- PEN_REFTICK
   ⟨0x098, 0, 1, 0, 1, 0x00000000, [(.ro, 31, 24), (.ro, 23, 16), (.ro, 15, 0)]⟩,  -- PEN_CNT
   ⟨0x0C0, 4, 8, 0, 1, 0x00000000, [(.ro, 31, 28), (.ro, 23, 8), (.ro, 7, 0)]⟩]  -- PEN_OPSTAT

/-- Registers of the p060 page kind. -/
def rows_p060 : List RegRow :=
  [⟨0x040, 0, 1, 0, 1, 0x00000000, [(.ro, 31, 28), (.ro, 27, 27), (.ro, 26, 26), (.ro, 25, 25), (.ro, 24, 24), (.ro, 23, 16), (.ro, 10, 8)]⟩,  -- CFG_STAT
   ⟨0x044, 0, 1, 0, 1, 0x00000000, [(.rwp, 1, 0)]⟩,  -- CFG_CMD
   ⟨0x048, 0, 1, 0, 1, 0x00000000, [(.rwp, 31, 31), (.rwp, 16, 0)]⟩,  -- CFG_LOAD
   ⟨0x04C, 0, 1, 0, 1, 0x00000000, [(.ro, 23, 0)]⟩,  -- CFG_LOADED
   ⟨0x050, 0, 1, 0, 1, 0x00000000, [(.ro, 31, 0)]⟩,  -- CFG_GEN
   ⟨0x054, 0, 1, 0, 1, 0x00000000, [(.ro, 31, 0)]⟩,  -- CFG_ARMTICKLO
   ⟨0x05C, 0, 1, 0, 1, 0x0000EA60, [(.rwp, 23, 0)]⟩,  -- CFG_PROBATION
   ⟨0x060, 0, 1, 0, 1, 0x00000000, [(.ro, 23, 0)]⟩,  -- CFG_PROBLEFT
   ⟨0x064, 0, 1, 0, 1, 0x00002710, [(.rwp, 23, 0)]⟩,  -- CFG_SESSWAIT
   ⟨0x068, 0, 1, 0, 1, 0x00000000, [(.ro, 31, 28), (.ro, 23, 0)]⟩,  -- CFG_RETLAST
   ⟨0x06C, 0, 1, 0, 1, 0x00000000, [(.ro, 31, 16), (.ro, 15, 8), (.ro, 7, 0)]⟩,  -- CFG_CNT
   ⟨0x058, 0, 1, 0, 1, 0x00000000, [(.ro, 15, 0)]⟩]  -- CFG_ARMTICKHI

/-- Registers of the p061 page kind. -/
def rows_p061 : List RegRow :=
  [⟨0x040, 64, 3, 4, 16, 0x00000000, [(.ro, 31, 0)]⟩]  -- CFG_SLOT

/-- Registers of the p062 page kind. -/
def rows_p062 : List RegRow :=
  [⟨0x040, 0, 1, 0, 1, 0x00000000, [(.ro, 31, 0)]⟩,  -- CFG_FWVER
   ⟨0x080, 4, 12, 0, 1, 0x00000000, [(.ro, 31, 0)]⟩]  -- CFG_COMPAT

/-- Registers of the p050 page kind. -/
def rows_p050 : List RegRow :=
  [⟨0x040, 0, 1, 0, 1, 0x00000000, [(.ro, 31, 24), (.ro, 23, 16)]⟩,  -- SVC_LOAD
   ⟨0x044, 0, 1, 0, 1, 0x00000000, [(.ro, 31, 0)]⟩,  -- SVC_PIWR
   ⟨0x048, 0, 1, 0, 1, 0x00000000, [(.ro, 31, 0)]⟩,  -- SVC_PIPUB
   ⟨0x04C, 0, 1, 0, 1, 0x00000000, [(.ro, 31, 0)]⟩,  -- SVC_PIMARK
   ⟨0x050, 0, 1, 0, 1, 0x00000000, [(.ro, 31, 0)]⟩,  -- SVC_BADMAP
   ⟨0x054, 0, 1, 0, 1, 0x00000000, [(.ro, 31, 0)]⟩,  -- SVC_SOEWR
   ⟨0x058, 0, 1, 0, 1, 0x00000000, [(.ro, 31, 0)]⟩,  -- SVC_SOELOST
   ⟨0x05C, 0, 1, 0, 1, 0x00000000, [(.ro, 31, 0)]⟩,  -- SVC_EVLOST
   ⟨0x060, 0, 1, 0, 1, 0x00000000, [(.ro, 31, 0)]⟩,  -- SVC_TOACC
   ⟨0x064, 0, 1, 0, 1, 0x00000000, [(.ro, 31, 0)]⟩,  -- SVC_TOSENT
   ⟨0x068, 0, 1, 0, 1, 0x00000000, [(.ro, 31, 0)]⟩,  -- SVC_TOLATE
   ⟨0x06C, 0, 1, 0, 1, 0x00000000, [(.ro, 31, 0)]⟩,  -- SVC_TOMISS
   ⟨0x070, 0, 1, 0, 1, 0x00000000, [(.ro, 31, 0)]⟩]  -- SVC_TOCANC

/-- Registers of the p051 page kind. -/
def rows_p051 : List RegRow :=
  [⟨0x040, 0, 1, 0, 1, 0x00000000, [(.ro, 16, 0)]⟩]  -- SVC_PISTAT

/-- Registers of the p052 page kind. -/
def rows_p052 : List RegRow :=
  [⟨0x040, 0, 1, 0, 1, 0x0000003C, [(.rwl, 31, 31), (.rws, 7, 0)]⟩,  -- SVC_SOECFG
   ⟨0x044, 0, 1, 0, 1, 0x00000000, [(.ro, 31, 16), (.ro, 15, 0)]⟩,  -- SVC_SOESTAT
   ⟨0x048, 0, 1, 0, 1, 0x00000000, [(.ro, 16, 0)]⟩,  -- SVC_SOEFILL
   ⟨0x04C, 0, 1, 0, 1, 0x00000000, [(.wo, 15, 0)]⟩]  -- SVC_SOEREL

/-- Registers of the p053 page kind. -/
def rows_p053 : List RegRow :=
  [⟨0x040, 0, 1, 0, 1, 0x40000000, [(.rws, 31, 29)]⟩,  -- SVC_TOCFG
   ⟨0x044, 0, 1, 0, 1, 0x00000000, [(.ro, 12, 0)]⟩,  -- SVC_TOSTAT
   ⟨0x048, 0, 1, 0, 1, 0x00000000, [(.wo, 31, 31), (.wo, 12, 0)]⟩,  -- SVC_TOCAN
   ⟨0x100, 32, 8, 0, 1, 0x00000000, [(.rw, 31, 25), (.rw, 21, 0)]⟩,  -- SVC_TOREQ
   ⟨0x104, 32, 8, 0, 1, 0x00000000, [(.rw, 31, 0)]⟩,  -- SVC_TOREQ
   ⟨0x108, 32, 8, 0, 1, 0x00000000, [(.rw, 29, 0)]⟩,  -- SVC_TOREQ
   ⟨0x10C, 32, 8, 4, 4, 0x00000000, [(.rw, 31, 0)]⟩,  -- SVC_TOREQ
   ⟨0x11C, 32, 8, 0, 1, 0x00000000, [(.w1s, 31, 31), (.rw, 4, 0)]⟩,  -- SVC_TOREQ
   ⟨0x200, 4, 8, 0, 1, 0x00000000, [(.ro, 31, 31), (.ro, 27, 24), (.ro, 12, 0)]⟩,  -- SVC_TORES
   ⟨0x300, 4, 64, 0, 1, 0x00000000, [(.ro, 31, 24), (.ro, 13, 0)]⟩]  -- SVC_TORANGE

/-- Registers of the p054 page kind. -/
def rows_p054 : List RegRow :=
  [⟨0x040, 128, 8, 0, 1, 0x00000000, [(.ro, 31, 31), (.rws, 30, 30), (.ro, 29, 29), (.rws, 15, 0)]⟩,  -- SVC_SUBCTL
   ⟨0x044, 128, 8, 4, 16, 0x00000000, [(.rws, 31, 16), (.rws, 15, 0)]⟩]  -- SVC_SUBRNG

/-- Registers of the p010 page kind. -/
def rows_p010 : List RegRow :=
  [⟨0x040, 0, 1, 0, 1, 0x40000032, [(.rws, 31, 31), (.rws, 30, 30), (.rws, 7, 0)]⟩,  -- TIME_CFG
   ⟨0x044, 0, 1, 0, 1, 0x00000000, [(.ro, 31, 30), (.ro, 29, 29), (.ro, 28, 28), (.ro, 27, 26)]⟩,  -- TIME_STAT
   ⟨0x048, 0, 1, 0, 1, 0x00000000, [(.ro, 31, 0)]⟩,  -- TIME_NOWLO
   ⟨0x04C, 0, 1, 0, 1, 0x00000000, [(.ro, 31, 0)]⟩,  -- TIME_NOWHI
   ⟨0x050, 0, 1, 0, 1, 0x00000000, [(.ro, 29, 0)]⟩,  -- TIME_NOWNS
   ⟨0x054, 0, 1, 0, 1, 0x00000000, [(.ro, 15, 0)]⟩,  -- TIME_NOWFRAC
   ⟨0x058, 0, 1, 0, 1, 0x00000000, [(.ro, 31, 0)]⟩,  -- TIME_RATE
   ⟨0x05C, 0, 1, 0, 1, 0x00000000, [(.ro, 31, 0)]⟩,  -- TIME_ERR
   ⟨0x060, 0, 1, 0, 1, 0x000000C8, [(.rws, 15, 0)]⟩,  -- TIME_ASYMSTEP
   ⟨0x064, 0, 1, 0, 1, 0x00000064, [(.rws, 15, 0)]⟩,  -- TIME_ASYMPD
   ⟨0x068, 0, 1, 0, 1, 0x0000000A, [(.rws, 23, 0)]⟩,  -- TIME_HOLDLIM
   ⟨0x06C, 0, 1, 0, 1, 0x00000000, [(.ro, 31, 16), (.ro, 15, 0)]⟩,  -- TIME_HOLDSTAT
   ⟨0x070, 0, 1, 0, 1, 0x00000000, [(.ro, 15, 0)]⟩]  -- TIME_SWCNT

/-- Registers of the timeDom page kind. -/
def rows_timeDom : List RegRow :=
  [⟨0x040, 0, 1, 0, 1, 0x0000D000, [(.rws, 31, 24), (.rws, 15, 12), (.rws, 11, 8), (.rws, 7, 7)]⟩,  -- TIME_DCFG
   ⟨0x044, 0, 1, 0, 1, 0x00000000, [(.rwp, 15, 0)]⟩,  -- TIME_ASYM
   ⟨0x048, 0, 1, 0, 1, 0x00000000, [(.ro, 31, 30), (.ro, 29, 29), (.ro, 28, 28), (.ro, 20, 16), (.ro, 15, 0)]⟩,  -- TIME_DSTAT
   ⟨0x04C, 0, 1, 0, 1, 0x00000000, [(.ro, 31, 0)]⟩,  -- TIME_DOFS
   ⟨0x050, 0, 1, 0, 1, 0x00000000, [(.ro, 31, 0)]⟩,  -- TIME_DREL
   ⟨0x054, 0, 1, 0, 1, 0x00000000, [(.ro, 31, 0)]⟩,  -- TIME_DPD
   ⟨0x058, 0, 1, 0, 1, 0x00000000, [(.ro, 15, 0)]⟩,  -- TIME_DLINK
   ⟨0x05C, 0, 1, 0, 1, 0x00000000, [(.ro, 31, 0)]⟩,  -- TIME_GMIDHI
   ⟨0x064, 0, 1, 0, 1, 0x00000000, [(.ro, 31, 24), (.ro, 23, 16), (.ro, 15, 8), (.ro, 7, 0)]⟩,  -- TIME_DCNT
   ⟨0x060, 0, 1, 0, 1, 0x00000000, [(.ro, 31, 0)]⟩]  -- TIME_GMIDLO

/-- Registers of the p003 page kind. -/
def rows_p003 : List RegRow :=
  [⟨0x040, 0, 1, 0, 1, 0x00000064, [(.rws, 31, 31), (.rws, 15, 0)]⟩,  -- DEV_VIGCFG
   ⟨0x044, 0, 1, 0, 1, 0x00000000, [(.ro, 31, 30), (.ro, 29, 27), (.ro, 15, 8), (.ro, 7, 0)]⟩]  -- DEV_VIGSTAT

/-- Registers of the p030 page kind. -/
def rows_p030 : List RegRow :=
  [⟨0x040, 0, 1, 0, 1, 0x00000000, [(.rws, 5, 4), (.rws, 2, 0)]⟩,  -- INTC_CFG
   ⟨0x044, 0, 1, 0, 1, 0x00000000, [(.wo, 9, 0)]⟩,  -- INTC_SWDB
   ⟨0x048, 0, 1, 0, 1, 0x00000000, [(.ro, 31, 16), (.ro, 15, 0)]⟩,  -- INTC_CNT
   ⟨0x04C, 0, 1, 0, 1, 0x00000000, [(.ro, 31, 16), (.ro, 15, 0)]⟩]  -- INTC_ERRCNT

/-- Registers of the p031 page kind. -/
def rows_p031 : List RegRow :=
  [⟨0x100, 64, 12, 0, 1, 0x00002020, [(.rw, 31, 31), (.ro, 30, 30), (.ro, 13, 8), (.rw, 5, 0)]⟩,  -- INTC_TGT
   ⟨0x104, 64, 12, 0, 1, 0x00000000, [(.wo, 19, 16), (.wo, 9, 0)]⟩,  -- INTC_CLAIM
   ⟨0x110, 64, 12, 0, 1, 0x000003FF, [(.ro, 9, 0)]⟩,  -- INTC_CLAIMED
   ⟨0x108, 64, 12, 0, 1, 0x00000000, [(.wo, 9, 0)]⟩,  -- INTC_COMPLETE
   ⟨0x10C, 64, 12, 0, 1, 0x00000000, [(.ro, 31, 31), (.ro, 21, 16), (.ro, 13, 10), (.ro, 9, 0)]⟩]  -- INTC_OFFER

/-- Registers of the intcSrc page kind. -/
def rows_intcSrc : List RegRow :=
  [⟨0x400, 4, 256, 0, 1, 0x1F000000, [(.rw, 31, 31), (.ro, 30, 30), (.rws, 29, 29), (.rws, 28, 24), (.rws, 23, 18), (.rw, 11, 0)]⟩]  -- INTC_SRC

/-- Registers of the p036 page kind. -/
def rows_p036 : List RegRow :=
  [⟨0x100, 4, 32, 0, 1, 0x00000000, [(.ro, 31, 0)]⟩,  -- INTC_PEND
   ⟨0x200, 4, 32, 0, 1, 0x00000000, [(.ro, 31, 0)]⟩]  -- INTC_ACT

/-- Registers of the p037 page kind. -/
def rows_p037 : List RegRow :=
  [⟨0x100, 8, 64, 0, 1, 0x01000000, [(.rws, 31, 24), (.rws, 19, 0)]⟩,  -- INTC_COAL
   ⟨0x104, 8, 64, 0, 1, 0x00000000, [(.ro, 31, 24), (.ro, 19, 0)]⟩]  -- INTC_COALST

/-- Registers of the p001 page kind. -/
def rows_p001 : List RegRow :=
  [⟨0x040, 4, 4, 0, 1, 0x00000000, [(.rwl, 30, 28), (.rwl, 27, 26), (.rwl, 25, 25), (.rwl, 24, 22)]⟩,  -- DEV_FPMAP
   ⟨0x050, 0, 1, 0, 1, 0x00000100, [(.ro, 19, 16), (.rwl, 15, 8), (.rw, 3, 0)]⟩,  -- DEV_FPCTL
   ⟨0x054, 0, 1, 0, 1, 0x00000000, [(.ro, 31, 31), (.ro, 30, 30), (.ro, 29, 20), (.ro, 19, 10)]⟩,  -- DEV_HEALTH
   ⟨0x058, 0, 1, 0, 1, 0x00000000, [(.ro, 31, 31), (.ro, 24, 16), (.ro, 15, 15), (.ro, 8, 0)]⟩,  -- DEV_HLOW
   ⟨0x05C, 0, 1, 0, 1, 0x00000000, [(.ro, 31, 28), (.ro, 24, 16), (.ro, 15, 0)]⟩,  -- DEV_ESCLAST
   ⟨0x060, 0, 1, 0, 1, 0x00000000, [(.ro, 31, 24), (.ro, 23, 16), (.ro, 15, 8), (.ro, 7, 0)]⟩,  -- DEV_ESCCNT
   ⟨0x064, 0, 1, 0, 1, 0x00000000, [(.ro, 31, 31), (.ro, 30, 30), (.ro, 24, 16), (.ro, 15, 0)]⟩,  -- DEV_SAFE
   ⟨0x068, 0, 1, 0, 1, 0x00000000, [(.ro, 15, 0)]⟩]  -- DEV_FRCCNT

/-- Registers of the p040 page kind. -/
def rows_p040 : List RegRow :=
  [⟨0x040, 0, 1, 0, 1, 0x00000000, [(.ro, 31, 0)]⟩,  -- GATE_GEN
   ⟨0x044, 0, 1, 0, 1, 0x00000000, [(.rwp, 31, 31), (.ro, 30, 30), (.ro, 29, 29), (.ro, 19, 16), (.ro, 15, 8), (.ro, 7, 0)]⟩,  -- GATE_COMMIT
   ⟨0x050, 0, 1, 0, 1, 0x00000000, [(.ro, 31, 0)]⟩,  -- GATE_VADDR
   ⟨0x054, 0, 1, 0, 1, 0x00000000, [(.ro, 31, 0)]⟩,  -- GATE_VBYTE
   ⟨0x058, 0, 1, 0, 1, 0x00000000, [(.ro, 31, 31), (.ro, 30, 28), (.ro, 27, 24), (.ro, 23, 22), (.ro, 21, 20), (.ro, 19, 16), (.ro, 15, 12), (.ro, 7, 0)]⟩,  -- GATE_VINFO
   ⟨0x05C, 0, 1, 0, 1, 0x00000000, [(.ro, 31, 0)]⟩,  -- GATE_VCNT
   ⟨0x060, 4, 2, 0, 1, 0x00000000, [(.ro, 31, 0)]⟩]  -- GATE_RXGRAN

/-- Registers of the p041 page kind. -/
def rows_p041 : List RegRow :=
  [⟨0x800, 8, 256, 4, 2, 0x00000000, [(.ro, 31, 0)]⟩]  -- GATE_TBL

/-- Registers of the p042 page kind. -/
def rows_p042 : List RegRow :=
  [⟨0x800, 8, 256, 4, 2, 0x00000000, [(.rwp, 31, 0)]⟩]  -- GATE_STG

/-- Registers of the p070 page kind. -/
def rows_p070 : List RegRow :=
  [⟨0x040, 0, 1, 0, 1, 0x00000000, [(.rws, 0, 0)]⟩,  -- TWIN_CFG
   ⟨0x044, 4, 4, 0, 1, 0x00000000, [(.rwp, 31, 0)]⟩,  -- TWIN_PEER
   ⟨0x054, 0, 1, 0, 1, 0x00000000, [(.rwp, 0, 0)]⟩,  -- TWIN_CTL
   ⟨0x058, 0, 1, 0, 1, 0x00000000, [(.ro, 31, 30), (.ro, 29, 29), (.ro, 28, 28), (.ro, 27, 27), (.ro, 26, 26), (.ro, 7, 0)]⟩,  -- TWIN_STAT
   ⟨0x05C, 0, 1, 0, 1, 0x00000000, [(.ro, 31, 24), (.ro, 23, 16), (.ro, 15, 8), (.ro, 7, 0)]⟩,  -- TWIN_CNT
   ⟨0x060, 0, 1, 0, 1, 0x00000000, [(.ro, 31, 16), (.ro, 15, 0)]⟩]  -- TWIN_LNKCNT

/-- Registers of the p071 page kind. -/
def rows_p071 : List RegRow :=
  [⟨0x040, 0, 1, 0, 1, 0x00000000, [(.ro, 31, 29), (.ro, 7, 0)]⟩]  -- TWIN_SYNC

/-- Registers of the p000 page kind. -/
def rows_p000 : List RegRow :=
  [⟨0x040, 0, 1, 0, 1, 0x00000000, [(.ro, 31, 16), (.ro, 15, 8), (.ro, 7, 4), (.ro, 3, 0)]⟩,  -- DEV_PART
   ⟨0x044, 0, 1, 0, 1, 0x00000000, [(.ro, 3, 3), (.ro, 2, 2), (.ro, 1, 1), (.ro, 0, 0)]⟩,  -- DEV_STRAP
   ⟨0x048, 0, 1, 0, 1, 0x00000000, [(.ro, 31, 28), (.ro, 27, 27), (.ro, 15, 0)]⟩,  -- DEV_RSTCAUSE
   ⟨0x04C, 0, 1, 0, 1, 0x00000000, [(.rwp, 31, 31), (.rwp, 7, 0)]⟩,  -- DEV_RST
   ⟨0x100, 4, 68, 0, 1, 0x00000000, [(.ro, 31, 0)]⟩]  -- DEV_LGREC

/-- Registers of the p008 page kind. -/
def rows_p008 : List RegRow :=
  [⟨0x040, 0, 1, 0, 1, 0x00000000, [(.ro, 31, 31), (.ro, 30, 30), (.ro, 29, 28), (.ro, 27, 27), (.ro, 26, 26), (.ro, 25, 25), (.w1c, 24, 24), (.ro, 7, 0)]⟩,  -- PWR_STAT
   ⟨0x044, 0, 1, 0, 1, 0x80000000, [(.rws, 31, 31), (.rw, 30, 30)]⟩,  -- PWR_CFG
   ⟨0x048, 0, 1, 0, 1, 0x00000000, [(.ro, 31, 16), (.ro, 15, 0)]⟩,  -- PWR_VIN
   ⟨0x04C, 0, 1, 0, 1, 0x00000000, [(.ro, 31, 16), (.ro, 15, 0)]⟩,  -- PWR_HOLD
   ⟨0x050, 0, 1, 0, 1, 0x00000000, [(.ro, 31, 16), (.ro, 15, 0)]⟩,  -- PWR_LOAD
   ⟨0x054, 0, 1, 0, 1, 0x00000000, [(.ro, 31, 24), (.ro, 23, 16), (.ro, 15, 8), (.ro, 7, 0)]⟩]  -- PWR_CNT

/-- Registers of the p009 page kind. -/
def rows_p009 : List RegRow :=
  [⟨0x040, 4, 6, 0, 1, 0x00000000, [(.ro, 31, 31), (.ro, 15, 0)]⟩]  -- PWR_RAIL

end Sys2Proof.Machine
end

