-- ==== Sys2Proof/Machine/State.lean ====
section
/-! DEFINITION. The state of the part as plain data: its fuses, and everything that a reset or a command can
change. Registers of the register space are words of `Dev.regs`, listed only when they differ from their reset word;
all other state is typed. State.reset is the part at the release of its first reset. -/

namespace Sys2Proof.Machine

open Sys2Proof

/-- Why the machine stops. No command of the table raises a fault: the spec gives each an effect, and its own faults
are records in page headers (16). The constructor stands for no behaviour of the spec and is raised by nothing: safe. -/
inductive Fault where
  /-- Raised by nothing: safe. -/
  | none
  deriving DecidableEq, Repr

/-- Why a command has no meaning. -/
inductive Refusal where
  /-- A command whose meaning is not written yet; raised by its arm of exec alone: safe. -/
  | notModelled (mnemonic : String)
  deriving DecidableEq, Repr

/-- An authority slot (R259, R260). -/
structure AuthSlot where
  prog : Bool
  hash : BitVec 384
  revoked : Bool
  deriving DecidableEq, Repr

/-- Fuses, OTP and the sealed identity: no reset changes them (R473). -/
structure Otp where
  /-- The variant (R1). -/
  variant : Variant
  /-- The silicon stepping, DEV_PART.STEP. -/
  step : Nat
  /-- The certified-mode fuse (R280). -/
  cert : Bool
  /-- Authority slots 0 to 3 (R259). -/
  slots : List AuthSlot
  /-- The four private identity keys in the antifuse, and the four public ones in the order of SEC_IDPUB: none before first power
  (R244, R259, R262). -/
  idPriv : List (List Byte)
  idPub : List (List Byte)
  deriving DecidableEq, Repr

/-- A record of a host event queue (R54). `claim` names the interrupt source that the record delivers (R393). -/
structure EvRec where
  w0 : Word
  w1 : Word
  w2 : Word
  w3 : Word
  claim : Option Nat
  deriving DecidableEq, Repr

/-- What the part puts on its wires (the model's own log of it: log entry 5). -/
inductive Out where
  | response (s op status xid addr : Nat) (data : List Word)
  | event (s seq : Nat) (more : Bool) (recs : List EvRec)
  /-- An ACCEPT with its SESS, XID and body, and a REFUSE with its REASON and XID (R267, R269). -/
  | pxmAccept (s xid : Nat) (body : List Byte)
  | pxmRefuse (reason xid : Nat)
  | bell (c : Nat) (f : HeadFrame)
  | frame (c idx : Nat) (f : HeadFrame)
  | answer (c : Nat) (ack auth : Bool)
  | errorFlag (c : Nat) (active : Bool) (start : FlagAt)
  | heartbeat (head ready safe vigil wake : Bool) (tick : Nat) (recs : List InFlight)
  | abdicateFrame
  | twinDelta (tick : Nat)
  | twinPair
  | pdelay (x : Side) (response : Bool)
  /-- A Signaling message with the intervals that the device asks for: logSyncInterval, logPdelayReqInterval (R343). -/
  | intervalRequest (x : Side) (sync pdelay : Int)
  /-- The record of KIND 0x05 of last gasp (R464 step 3). -/
  | lastGasp (r : EvRec)
  /-- A message on an uplink, with its PRP sequence number and LAN identifier (R57), and the association and packet number of its
  MACsec frame; a PXM has none (R267, R271). -/
  | uplink (x : Side) (prp lan : Nat) (sa : Option (Nat × Nat)) (m : Out)
  /-- A frame on the twin link with its SEQ (R442). -/
  | twin (seq : Nat) (m : Out)
  deriving DecidableEq, Repr

/-- Escalation and condition state of one register page (16). -/
structure PageX where
  /-- Level of the last reaction; 0 after recovery or release (R411, R414). -/
  level : Nat
  /-- The running escalation timer: the core cycle at which it expires (R407). -/
  timer : Option Nat
  /-- The source whose fault last set the timer (R407). -/
  timerSrc : Nat
  /-- The open reset shadow: the core cycle at which it opened first (R412, R424), and the last opening, from which its length
  counts (R224). -/
  shadow : Option Nat
  shadowLast : Nat
  /-- The shadow belongs to a soft reset of the page itself (R224: a migration's does not). -/
  resetting : Bool
  /-- A quiet period follows: 1 the reset shadow, 2 the migration (R410). -/
  quietDue : Nat
  /-- The running quiet period: the tick number with which it ends (R410). -/
  quiet : Option Nat
  /-- Latched off (R413). -/
  latched : Bool
  /-- Fault sources whose state condition is present (R494). -/
  live : List Nat
  /-- Sources acknowledged while present: not detected again until they end (R404). -/
  held : List Nat
  /-- The source of the recorded first cause, when a state condition (R404). -/
  firstSrc : Option Nat
  /-- The hamlet that a MILL page's open shadow covers (R224). -/
  cover : Option Nat
  /-- An uncleared fault of class S, of class I (R418). -/
  unclearedS : Bool
  unclearedI : Bool
  /-- An ACK has taken effect since the last fault of class S, of class I (R418). -/
  ackS : Bool
  ackI : Bool
  deriving DecidableEq, Repr

def PageX.reset : PageX :=
  ⟨0, none, 0, none, 0, false, 0, none, false, [], [], none, none, false, false, false, false⟩

/-- The copy of a transmit entry in the frame engine (R134). -/
structure TxCopy where
  w0 : Word
  w1 : Word
  payload : List Byte
  deriving DecidableEq, Repr

/-- A queued transmit entry (R127 to R149): what the mill keeps of it beside word 3. -/
structure TxEntry where
  idx : Nat
  /-- Queue type as read at the push (R134). -/
  qt : Nat
  /-- Configured class as read at the push, effective class (R134, R145). -/
  c : Nat
  ec : Nat
  mid : Nat
  slot : Nat
  retry : Nat
  ntf : Bool
  /-- Wait counter of R145. -/
  w : Nat
  att : Nat
  proms : Nat
  /-- Status ST of R128: 1 QUEUED, 2 ACTIVE; for a scheduled entry also 3, 4 or 7 until the next tick (R136). -/
  st : Nat
  copy : Option TxCopy
  /-- The core cycle of the push (R132), and that since which the entry has had no copy (R207, R208). -/
  pushed : Nat
  since : Nat
  /-- Aging steps of R145 that are still to be done, one for each commit point that found the entry queued. -/
  due : Nat
  /-- The scope that the pushing host session held at the push (R130, R134), with its number. -/
  owner : Option (Nat × Scope)
  /-- The tick whose arbitrated window is that of a one-shot (R140); the first tick of a scheduled entry (R136). -/
  window : Nat
  /-- Timed-output handle of the entry (R328). -/
  handle : Option Nat
  /-- A safe entry of R420. -/
  safe : Bool
  /-- A KEY frame of steward firmware (R248). -/
  keyFrame : Bool
  /-- An abort reached the entry while its frame was on the wire (R148). -/
  aborting : Bool
  deriving DecidableEq, Repr

/-- Who pushes a descriptor: a host session with its scope at the push (R130), the services for a timed output
(R328), the mills in the safe state (R420), steward firmware with a KEY frame (R248). -/
structure PushSrc where
  owner : Option (Nat × Scope)
  handle : Option Nat
  safe : Bool
  key : Bool
  deriving DecidableEq, Repr

/-- A frame in the hold FIFO (R27, R157) with its latched verdict: reason 0 accepts (R179). -/
structure Held where
  f : RxFrame
  reason : Nat
  /-- The frame's tick, in which it is offered (R77), and the tick number at the verdict (R178). -/
  tick : Nat
  vtick : Nat
  /-- Nanoseconds and seconds of device time at SOF less COMP (R320), and the epoch in force. -/
  sec : Nat
  ns : Nat
  epoch : Nat
  /-- A confirmation frame judged under R249. -/
  confirm : Bool
  /-- Device time was in holdover at the stamp (R319). -/
  holdover : Bool
  /-- The commit point found the frame's tick late, with the hamlet named in DEV_TOVRSRC (R80, R172). -/
  late : Bool
  /-- The core cycle of the offer (R208). -/
  since : Nat
  deriving DecidableEq, Repr

/-- The entry's frame on the wire, past arbitration (R135, R148): the descriptor, the class sent, and what the refusal event of
an AUTH_FORGE names. -/
structure Wire where
  idx : Nat
  /-- The tick of its start. -/
  tick : Nat
  c : Nat
  ft : Nat
  mid : Nat
  seq : Nat
  tagged : Bool
  deriving DecidableEq, Repr

/-- An epoch key with its identifier and its use count (R234, R244, R253). -/
structure EpKey where
  id : Nat
  key : BitVec 256
  use : Nat
  retired : Bool
  deriving DecidableEq, Repr

/-- The bell of the current tick on a channel (R72, R73). -/
inductive BellSt where
  | none | due | sent | missed
  deriving DecidableEq, Repr

/-- What a channel holds beside its register pages. -/
structure Chan where
  tx : List TxEntry
  hold : List Held
  old : Option EpKey
  cur : Option EpKey
  next : Option EpKey
  /-- Last delivered pair (tick, SEQ) of each SRC (R236). -/
  pairs : List (Nat × Nat × Nat)
  /-- Last SEQ used or observed from SRC 0 in the tick (R66, R240). -/
  seq : Nat
  /-- An epoch change is asked for: 1 start, 2 start anew after REVOKE (R246, R256); 3: the deadline of the pending change
  has arrived (R251). -/
  epWant : Nat
  epStart : Nat
  epDeadline : Nat
  epLast : Nat
  /-- Identifier of a change that starts anew after a REVOKE (R256). -/
  epId : Nat
  /-- Ticks at which fenced nodes are unfenced automatically (R203). -/
  fenceUntil : List (Nat × Nat)
  /-- Nodes that an UNFENCE operation unfences at the next commit point (R203). -/
  unfReq : List Nat
  /-- The wait of R105 runs. -/
  await : Bool
  /-- R105 applies before the channel sends again, while it receives on (R112). -/
  mute : Bool
  isolated : Bool
  /-- Line settings in force: CHC_LINE, CHC_ABT, CHC_DBT (R87). -/
  line : Word × Word × Word
  /-- The settings that the last commit found, and CHS_BOCFG.MODE: each new setting is checked once (R87, R193). -/
  tried : (Word × Word × Word) × Nat
  /-- Instant in ns at which the count of R105 may start: the event, or the end of the silence of R117 or R119. -/
  awaitNs : Nat
  /-- Instant in ns from which the bus is idle, after the IFS of the last frame that the head knows of (R104), and that from which
  a PASSIVE head may start a priority or one-shot frame after one of its own (R188). -/
  idleNs : Nat
  ownNs : Nat
  /-- The last data phase that the channel sent, from its first data-rate bit to its last CRC bit, in ns (R116). -/
  modeNs : Nat × Nat
  /-- The entry's frame on the wire; the outcome of one that ended during a migration (R216). -/
  wire : Option Wire
  outcome : Option TxLine
  /-- The end of the tick's bell frame, its last EOF bit, in ns after Bn; 0 before it (R71, R74). -/
  bellFin : Nat
  /-- ARB_END of the tick before (R70, R77). -/
  arbPrev : Nat
  /-- Data phases go without the comparison of R95 (R96). -/
  noSsp : Bool
  nodeSet : Nat
  groups : List (Nat × Nat)
  /-- AWAKE mask and FENCE mask of the current tick's bell frame (R197, R201). -/
  awake : Nat
  fence : Nat
  bell : BellSt
  /-- The mill has formed the bell frame of the tick (R210). -/
  formed : Bool
  /-- The tick-bound work of the tick is done (R210). -/
  aged : Bool
  /-- STALE and PCHG flags of the current bell (R65, R80). -/
  stale : Bool
  call : Bool
  commit : Bool
  /-- Tick of the curfew call (R369); instant in ns at which the channel entered WAKING (R370). -/
  callTick : Nat
  wakeNs : Nat
  /-- The last wake of quiet groups by criers: its core cycle and the groups that woke in it (R374, R375). -/
  qgWake : Nat × Nat
  /-- Descriptor changes of a package still to be applied (R295). -/
  descWork : List RxDescInit
  /-- Tick of the last KEY frame to each node (R248). -/
  keySent : List (Nat × Nat)
  /-- Bus-off that only RESTART or SRST ends (R195). -/
  noAuto : Bool
  /-- In-flight record for the next heartbeat, and the partner's last one (R445, R454). -/
  inFlight : Option InFlight
  peerFlight : Option InFlight
  deriving DecidableEq, Repr

def Chan.reset : Chan :=
  { tx := [], hold := [], old := none, cur := none, next := none, pairs := [], seq := 0, epWant := 1,
    epStart := 0, epDeadline := 0, epLast := 0, epId := 0, fenceUntil := [], unfReq := [], await := false, mute := false, isolated := false,
    line := (0#32, 0xA0145099#32, 0x100E2A8F#32), tried := ((0#32, 0xA0145099#32, 0x100E2A8F#32), 2), awaitNs := 0, idleNs := 0,
    ownNs := 0, modeNs := (0, 0), wire := none, outcome := none, bellFin := 0, arbPrev := 0, noSsp := false, nodeSet := 0, groups := [], awake := 255, fence := 0,
    bell := .none, formed := false, aged := true, stale := false, call := false, commit := false, callTick := 0, wakeNs := 0, qgWake := (0, 0),
    descWork := [], keySent := [], noAuto := false, inFlight := none, peerFlight := none }

/-- A running migration (R214, R215). -/
structure Migration where
  spare : Nat
  old : Option Nat
  cause : Nat
  deriving DecidableEq, Repr

/-- The mill wheel of a hamlet (R206 to R209, R212): the core cycle at which its turns started, the slot that runs or ran last,
counted from there, the channel that holds it, its cycles that are left, the cycles already spent on the piece of work of each
channel, and the slots used and lent in the tick. -/
structure Wheel where
  start : Nat
  slot : Nat
  holder : Nat
  left : Nat
  done : List Nat
  used : Nat
  lent : Nat
  deriving DecidableEq, Repr

/-- A wheel whose turns start at slot 0 at a core cycle (R206, R215 step 4). -/
def Wheel.fromCycle (cycle : Nat) : Wheel := ⟨cycle, 0, 0, 0, List.replicate 8 0, 0, 0⟩

/-- What a hamlet holds beside its page. -/
structure Ham where
  mig : Option Migration
  isolated : Bool
  ctxError : Bool
  wheel : Wheel
  deriving DecidableEq, Repr

def Ham.reset : Ham := ⟨none, false, false, Wheel.fromCycle 0⟩

/-- What a mill holds beside its page: why it tests (0 no test, 1 spare, 2 after a fault, 3 after another
migration, 4 after a release), whether a fault-caused test has passed, and the tick number with which the quiet period
since the fault ends (R220); whether MILL_BIST.START started the self-test that runs (PG_STAT.BUSY). -/
structure Mill where
  why : Nat
  passed : Bool
  quiet : Nat
  asked : Bool
  deriving DecidableEq, Repr

inductive SessSt where
  | free | accepted | opened
  deriving DecidableEq, Repr

/-- A host session (R269 to R273). -/
structure Sess where
  st : SessSt
  scope : Scope
  host : BitVec 384
  auth : Nat
  seq : Nat
  notAfter : Nat
  live : Bool
  queue : List EvRec
  /-- Unacknowledged EVENT messages, oldest first (R55). -/
  unack : List (Nat × List EvRec)
  evSeq : Nat
  /-- The key that extraction gives from the shared secret Z, from which every session key is expanded (R270). -/
  prk : BitVec 384
  /-- Key index of each secure channel: device to host A, B, then host to device A, B (R270, R271). -/
  keyIdx : List Nat
  /-- The receiver still keeps key i beside i + 1 on uplink A, on B (R271). -/
  oldKey : List Bool
  /-- Per uplink (R271): the next packet number to send and the core cycle at which its key was installed; the next one expected
  under the key in use, and under the one before. -/
  txPn : List Nat
  txAt : List Nat
  rxPn : List Nat
  rxOld : List Nat
  deriving DecidableEq, Repr

def Scope.none : Scope := ⟨.u, 0#64, 0#512, [], 0#32⟩

/-- A free session number. The first EVENT message of a session has sequence number 1 (DESIGN CHOICE, log entry 15: the spec gives
none), and the first packet number under a key is 1. -/
def Sess.reset : Sess :=
  { st := .free, scope := Scope.none, host := 0#384, auth := 0, seq := 0, notAfter := 0, live := false, queue := [],
    unack := [], evSeq := 1, prk := 0#384, keyIdx := [0, 0, 0, 0], oldKey := [false, false], txPn := [1, 1], txAt := [0, 0],
    rxPn := [1, 1], rxOld := [1, 1] }

/-- An uplink: its link is up (R57, R60). -/
structure Uplink where
  up : Bool
  deriving DecidableEq, Repr

/-- A PXM body in reassembly (R267): its TYPE and TOTAL, and the fragments that have arrived, each with its offset. -/
structure Reasm where
  side : Side
  mac : Nat
  xid : Nat
  type : Nat
  total : Nat
  got : List (Nat × List Byte)
  deriving DecidableEq, Repr

/-- A queued operation pennant (R275). -/
structure OpReq where
  sess : Nat
  pennant : Pennant
  /-- The host key hash of the session, as the presenting host in check 9. -/
  host : BitVec 384
  deriving DecidableEq, Repr

/-- The security subsystem (10). -/
structure SecSt where
  /-- Reassembled PXM bodies not yet handled (R267). -/
  bodies : List PxmBody
  /-- HELLOs queued for checking, operations queued (R274, R275). -/
  hellos : List Hello
  ops : List OpReq
  debugUntil : Nat
  /-- The enrollment keys in the key vault, by channel and node, and the storage key that start-up derived (R244). -/
  vault : List (Nat × Nat × BitVec 256)
  storage : BitVec 256
  /-- Requests to the generator of the random source since it was seeded last, below 2^20 (R282). -/
  rngReqs : Nat
  deriving DecidableEq, Repr

/-- A copy of the role record in flash (R286): its sequence number, whether it is valid (one that is being written is not), the roles
ACTIVE and PREVIOUS, the flash slots and probation. -/
structure RoleRec where
  seq : Nat
  valid : Bool
  active : Option Package
  previous : Option Package
  slots : List Nat
  prob : Bool
  deriving DecidableEq, Repr

/-- Flash contents (R13, R286, R265, R257, R467). -/
structure Flash where
  active : Option Package
  previous : Option Package
  staged : Option Package
  /-- Flash slot and image area of ACTIVE, PREVIOUS, STAGED (R286). -/
  slots : List Nat
  areas : List (Option Nat)
  /-- The role record last written is that of the roles in force. -/
  recordDone : Bool
  /-- The two copies of the role record. -/
  recs : List RoleRec
  /-- OPSEQ and FLOOR of the authority slots (R265, R276). -/
  opseq : List Nat
  floors : List Nat
  /-- Enrollment keys by channel and node, each wrapped under the storage key: the 64-bit blocks of the RFC 3394 wrap (R244, R257). -/
  enroll : List (Nat × Nat × List Nat)
  /-- The last-gasp record of DEV_LGREC, with its VALID bit in word 0. -/
  lgrec : List Word
  fwver : Nat
  deriving DecidableEq, Repr

/-- Package handling (11). -/
structure CfgSt where
  /-- The bytes of the package being loaded that its flash slot has taken (R289). -/
  loading : List Byte
  /-- The chunks being appended, oldest first. -/
  chunks : List (List Byte)
  lsess : Option Nat
  permit : Option (BitVec 384)
  /-- Cause of a probation failure not yet acted on (R298), 0 for none, and the commit tick at which it was detected. -/
  failed : Nat
  failAt : Nat
  /-- An escalation of level 2 or more or an overrun was detected (R298). -/
  escSeen : Bool
  ovrSeen : Bool
  sessRun : Nat
  /-- The ticks at whose commit points manual returns take effect (R301). -/
  manualAt : List Nat
  /-- First tick of probation, A, and its length (R298). -/
  probStart : Nat
  probLen : Nat
  /-- The commit tick at which a package last raised CFG_GEN (R297). -/
  genAt : Option Nat
  deriving DecidableEq, Repr

/-- A queued timed output (R325 to R329). -/
structure TimedOut where
  handle : Nat
  sess : Nat
  ch : Nat
  mid : Nat
  /-- The apply time in ns of device time. -/
  apply : Nat
  /-- The apply tick a. -/
  tick : Nat
  policy : Bool
  late : Bool
  data : List Byte
  /-- The service descriptor while pushed. -/
  desc : Option Nat
  cancelled : Bool
  deriving DecidableEq, Repr

/-- The services' work of one tick that is not closed: the tick, the records switched in at its bell, those of them
marked changed, the ring entries of the tick before (R316, R324, R334), and for each map the marks FENCED and ASLEEP as they stood
at the bell (R314). -/
structure SvcWork where
  tick : Nat
  switched : List Nat
  changed : List Nat
  soe : List Nat
  marks : List Nat
  deriving DecidableEq, Repr

/-- Services (12). -/
structure SvcSt where
  /-- Records whose front window names copy 1 (R306). -/
  sel : List Nat
  /-- Dirty records, each with the hamlet whose mill wrote it last, 8 for a mark of the services (R311, R80). -/
  dirty : List (Nat × Nat)
  changed : List Nat
  /-- Ring entries written in the current tick (R324). -/
  soeNow : List Nat
  /-- Work not yet closed, oldest tick first (R334). -/
  work : List SvcWork
  /-- The tick of the first bell after start-up; records marked INIT by a package, with its tick (R314, R315). -/
  firstTick : Nat
  initAt : List (Nat × Nat)
  /-- Records that the services mark INIT in the commit tick of a package (R315). -/
  initTodo : List Nat
  outs : List TimedOut
  deriving DecidableEq, Repr

/-- A gPTP domain's evaluation memory (R344 to R351). -/
structure Dom where
  /-- The last o values while in ACQUIRE, newest first. -/
  acq : List Int
  ofs : Int
  rel : Int
  pd : Nat
  /-- A previous evaluation exists; its r used the other domain's o. -/
  seen : Bool
  relative : Bool
  /-- The next evaluation skips the check of R349. -/
  skip : Bool
  gm : Option Nat
  /-- stepsRemoved of the latest Announce (R343). -/
  steps : Nat
  mld : Nat
  ratioPpm : Int
  deriving DecidableEq, Repr

structure TimSt where
  doms : List Dom
  /-- Device time in seconds at the start of the current holdover. -/
  holdStart : Nat
  holdRaised : Bool
  deriving DecidableEq, Repr

/-- Always-on domain (R342, R473). Device time counts units of 2^-48 ns (R339). -/
structure Aon where
  time : Nat
  set : Bool
  rate : Int
  learned : Int
  rates : List Int
  /-- Core cycles since power good (the model's own clock: log entry 2). -/
  cycles : Nat
  cause : Nat
  timeKept : Bool
  /-- Cycle of the last reset release (DEV_RSTCAUSE.BELLMS). -/
  release : Nat
  deriving DecidableEq, Repr

/-- Interrupt controller (15): raise counts, claimed sources (source, target, tier), host deliveries (source,
target), data of doorbells. -/
structure IntcSt where
  raises : List (Nat × Nat)
  active : List (Nat × Nat × Nat)
  hostDel : List (Nat × Nat)
  data : List (Nat × Nat)
  /-- The core cycle of the first held raise of each coalescing group that holds (R398). -/
  heldAt : List (Nat × Nat)
  /-- Steward cores that sleep (R388). -/
  asleep : List Nat
  deriving DecidableEq, Repr

/-- Gates (17): the table being drained (R436) and whether GATE_COMMIT.GO started it (PG_STAT.BUSY); the digest that the GATE operation
in force permits (R437). -/
structure GateSt where
  drain : Option (List (Nat × Word × Word))
  byGo : Bool
  permit : Option (BitVec 384)
  deriving DecidableEq, Repr

structure PwrSt where
  inA : Bool
  inB : Bool
  /-- Rails are off (R464 step 4, R479); the trip of R479 holds. -/
  off : Bool
  tripped : Bool
  /-- The TAP holds the part in reset (R488). -/
  tapHold : Bool
  /-- The input that carries the load: 0 none, 1 A, 2 B (R459). -/
  src : Nat
  /-- Last gasp runs (R464); its step 3 is complete; an input returned meanwhile, with the straps as they stand then (R466). -/
  gasp : Bool
  recorded : Bool
  returned : Option Straps
  /-- Tick, seconds and nanoseconds at t0 of last gasp (R467). -/
  lgAt : Nat × Nat × Nat
  deriving DecidableEq, Repr

/-- Twin operation (18). -/
structure TwinSt where
  /-- The partner's identity value once paired. -/
  peer : Option (BitVec 128)
  /-- HEADSHIP is driven low by the partner. -/
  lineLow : Bool
  /-- Synchronisation: what has arrived (R456). -/
  gotActive : Bool
  gotKeys : Bool
  gotSnapshot : Bool
  /-- DELTA messages since the last commit DELTA; those of an earlier tick that its commit DELTA counted and that are still
  to come; the DELTA messages of the last commit point have arrived; the digest of the package that the head holds ACTIVE
  (R446, R451). -/
  deltas : Nat
  missing : Nat
  commitOk : Bool
  headDigest : Option (BitVec 384)
  /-- Frame counter of the part on the link, and the number of twin keys agreed on it (R442, R443). -/
  seq : Nat
  keys : Nat
  /-- The core cycle at which the link came up (R456). -/
  upAt : Nat
  deriving DecidableEq, Repr

/-- A URT message held in vigil (R379): header, OP, address, data. -/
structure HeldUrt where
  u : UrtHdr
  op : Nat
  addr : Nat
  data : List Word
  deriving DecidableEq, Repr

/-- The bell block (03). `inst` is the nominal instant of the current bell, `next` that of the following one, in ns of
device time; before the first bell, `next` is the earliest instant that it may have (R471 step 8). -/
structure BellSy where
  tick : Nat
  started : Bool
  inst : Nat
  /-- The nominal instant of the bell before, and the core cycle of the last commit point. -/
  prev : Nat
  cn : Nat
  next : Nat
  pchg : Bool
  /-- The bell period in ns at the last bell (R65). -/
  period : Nat
  /-- Instant in ns at which the work of the tick closed last (R78). -/
  closed : Nat
  /-- Late hamlets and services at the last commit point (R79). -/
  lateHam : List Nat
  deriving DecidableEq, Repr

/-- FAULT_P pins: a pulse runs on pin k (R417); the pins are held asserted from reset until the first bell, and
HEALTH_S low (R419). -/
structure Pins where
  pulse : List Bool
  /-- The core cycle at which the pulse of each pin ends (R417). -/
  ends : List Nat
  released : Bool
  deriving DecidableEq, Repr

/-- Everything of the part but its fuses. -/
structure Dev where
  /-- The variant and stepping as the boot ROM read them (R471 step 2). -/
  part : Variant
  step : Nat
  straps : Straps
  /-- The locks of certified mode apply (R280). -/
  cert : Bool
  /-- A CERTIFY operation has blown the fuse; its locks apply at the next commit point. -/
  certPend : Bool
  aon : Aon
  flash : Flash
  regs : List (Nat × Word)
  /-- Pending RWS values by register key: mask of the fields written, value (R7, R8). -/
  shadows : List (Nat × Nat × Word)
  /-- The core cycle of the last write to a shadow, and the shadows as they stood before that cycle (R76). -/
  shadowAt : Nat
  shadowOld : List (Nat × Nat × Word)
  /-- Pages held by FREEZE, with their register words at that instant. -/
  frozen : List (Nat × List (Nat × Word))
  /-- Main SRAM and hayloft: addresses rising, no listed byte that an unlisted address reads as (log entry 4). -/
  mem : List Host.Cell
  pages : List (Nat × PageX)
  chans : List Chan
  hams : List Ham
  mills : List Mill
  sess : List Sess
  ups : List Uplink
  reasm : List Reasm
  seen : List (Nat × Nat × Nat)
  prp : Nat
  sec : SecSt
  cfg : CfgSt
  svc : SvcSt
  tim : TimSt
  intc : IntcSt
  gate : GateSt
  pwr : PwrSt
  twin : TwinSt
  vigHeld : List HeldUrt
  /-- Interrupt state saved at vigil entry stays in `intc`; the regions of the hayloft are marked saved. -/
  vigSaved : Bool
  /-- The core cycle at which the last URT or PXM message arrived (R376). -/
  lastMsg : Nat
  bell : BellSy
  pins : Pins
  out : List Out
  fresh : Nat
  deriving DecidableEq, Repr

/-- The state: fuses, the part, the commands that wait. -/
structure State where
  otp : Otp
  dev : Dev
  pending : List Instr
  deriving DecidableEq, Repr

def Otp.reset : Otp :=
  { variant := .dn6400, step := 1, cert := false, slots := List.replicate 4 ⟨false, 0#384, false⟩, idPriv := [],
    idPub := [] }

def Aon.reset : Aon := ⟨0, false, 0, 0, [], 0, 0, false, 0⟩

def Flash.reset : Flash :=
  { active := none, previous := none, staged := none, slots := [0, 1, 2], areas := [none, none, none],
    recordDone := true, recs := [⟨1, true, none, none, [0, 1, 2], false⟩, ⟨0, true, none, none, [0, 1, 2], false⟩], opseq := [0, 0, 0, 0], floors := [0, 0, 0, 0],
    enroll := [], lgrec := [], fwver := 0x10000 }

def Dom.reset : Dom := ⟨[], 0, 0, 0, false, false, false, none, 0, 0, 0⟩

/-- The registers whose reset word depends on the variant or on the instance: the spare mill (R19) and PWR_CFG.VAUXEN
(19), over the reset words of Machine/Regs.lean. DN-6400: mill 8 is the spare. -/
def Dev.reset : Dev :=
  { part := .dn6400, step := 1, straps := ⟨true, true, false, false⟩, cert := false, certPend := false,
    aon := Aon.reset, flash := Flash.reset, regs := [],
    shadows := [], shadowAt := 0, shadowOld := [], frozen := [], mem := [], pages := [], chans := List.replicate 64 Chan.reset,
    hams := List.replicate 8 Ham.reset, mills := List.replicate 9 ⟨0, false, 0, false⟩,
    sess := List.replicate 8 Sess.reset, ups := [⟨false⟩, ⟨false⟩], reasm := [], seen := [], prp := 0,
    sec := ⟨[], [], [], 0, [], 0#256, 0⟩,
    cfg := ⟨[], [], none, none, 0, 0, false, false, 0, [], 0, 0, none⟩,
    svc := ⟨[], [], [], [], [], 0, [], [], []⟩,
    tim := ⟨[Dom.reset, Dom.reset], 0, false⟩, intc := ⟨[], [], [], [], [], []⟩, gate := ⟨none, false, none⟩,
    pwr := ⟨true, true, false, false, false, 1, false, false, none, (0, 0, 0)⟩,
    twin := ⟨none, false, false, false, false, 0, 0, false, none, 0, 0, 0⟩, vigHeld := [], vigSaved := false, lastMsg := 0,
    bell := ⟨0, false, 0, 0, 0, 0, false, 0, 0, []⟩, pins := ⟨[false, false, false, false], [0, 0, 0, 0], false⟩, out := [], fresh := 0 }

/-- The part at the release of its first reset, before start-up (R471 step 1). -/
def State.reset : State := { otp := Otp.reset, dev := Dev.reset, pending := [] }

end Sys2Proof.Machine
end

