-- ==== Sys2Proof/Machine/Regs.lean ====
section
/-! DEFINITION. The register file: which pages a variant has (R3, R44), the reset word of every register, reading and
writing a register or one of its fields, saturating counters, the status bits of a page, and what a written word is
held as. -/

namespace Sys2Proof.Machine

open Sys2Proof

/-- Channels of a variant (R1). -/
def Variant.channels : Variant → Nat
  | .dn6400 => 64 | .dn3200 => 32 | .dn1600 => 16 | .dn0800 => 8

/-- Hamlets of a variant (R1). -/
def Variant.hamlets : Variant → Nat
  | .dn6400 => 8 | .dn3200 => 4 | .dn1600 => 2 | .dn0800 => 1

/-- Mills of a variant: one more than it has hamlets (R1, R2). -/
def Variant.mills (v : Variant) : Nat := Variant.hamlets v + 1

/-- DEV_PART.PART: the part number. -/
def Variant.part : Variant → Nat
  | .dn6400 => 0x6400 | .dn3200 => 0x3200 | .dn1600 => 0x1600 | .dn0800 => 0x0800

/-- The populated register page slots (R3, R44). -/
def populated (v : Variant) (p : Nat) : Bool :=
  p < 4 || (8 ≤ p && p ≤ 9) || (0x10 ≤ p && p ≤ 0x12) || (0x20 ≤ p && p ≤ 0x23) || (0x28 ≤ p && p ≤ 0x2B)
  || (0x30 ≤ p && p ≤ 0x37) || (0x40 ≤ p && p ≤ 0x43) || (0x50 ≤ p && p ≤ 0x57) || (0x60 ≤ p && p ≤ 0x62)
  || (0x70 ≤ p && p ≤ 0x71) || (0x74 ≤ p && p ≤ 0x75) || (0x78 ≤ p && p ≤ 0x79)
  || (0x80 ≤ p && p < 0x80 + Variant.mills v) || (0x90 ≤ p && p < 0x90 + Variant.hamlets v)
  || (0x100 ≤ p && p < 0x100 + 4 * Variant.channels v)

/-- The page type code of a populated page (R44). -/
def pageType (p : Nat) : Nat :=
  if p < 4 then 0x01 else if p < 0x10 then 0x02 else if p < 0x20 then 0x03 else if p < 0x28 then 0x04
  else if p < 0x30 then 0x05 else if p < 0x40 then 0x06 else if p < 0x50 then 0x07 else if p < 0x60 then 0x08
  else if p < 0x70 then 0x09 else if p < 0x74 then 0x0A else if p < 0x78 then 0x0B else if p < 0x80 then 0x0C
  else if p < 0x90 then 0x10 else if p < 0x100 then 0x11 else 0x20 + p % 4

/-- PG_ID.INST: channel, mill or hamlet number, or the page's place in its block. -/
def pageInst (p : Nat) : Nat :=
  if 0x100 ≤ p then (p - 0x100) / 4 else if 0x90 ≤ p then p - 0x90 else if 0x80 ≤ p then p - 0x80
  else if p < 4 then p else if p < 0x10 then p - 8 else if p < 0x20 then p - 0x10 else if p < 0x28 then p - 0x20
  else if p < 0x30 then p - 0x28 else if p < 0x40 then p - 0x30 else if p < 0x50 then p - 0x40
  else if p < 0x60 then p - 0x50 else if p < 0x70 then p - 0x60 else if p < 0x74 then p - 0x70
  else if p < 0x78 then p - 0x74 else p - 0x78

/-- The block registers of a page (the register tables of the chapters); a page that no table names holds the header
alone. -/
def blockRows (p : Nat) : List RegRow :=
  if 0x100 ≤ p then
    (if p % 4 = 0 then rows_chc else if p % 4 = 1 then rows_cht else if p % 4 = 2 then rows_chx else rows_chs)
  else if 0x90 ≤ p then rows_ham else if 0x80 ≤ p then rows_mill
  else if p = 0 then rows_p000 else if p = 1 then rows_p001 else if p = 2 then rows_p002 else if p = 3 then rows_p003
  else if p = 8 then rows_p008 else if p = 9 then rows_p009
  else if p = 0x10 then rows_p010 else if p = 0x11 ∨ p = 0x12 then rows_timeDom
  else if p = 0x20 then rows_p020 else if p = 0x21 then rows_p021 else if p = 0x28 then rows_p028
  else if p = 0x30 then rows_p030 else if p = 0x31 then rows_p031 else if 0x32 ≤ p ∧ p ≤ 0x35 then rows_intcSrc
  else if p = 0x36 then rows_p036 else if p = 0x37 then rows_p037
  else if p = 0x40 then rows_p040 else if p = 0x41 then rows_p041 else if p = 0x42 then rows_p042
  else if p = 0x50 then rows_p050 else if p = 0x51 then rows_p051 else if p = 0x52 then rows_p052
  else if p = 0x53 then rows_p053 else if p = 0x54 then rows_p054
  else if p = 0x60 then rows_p060 else if p = 0x61 then rows_p061 else if p = 0x62 then rows_p062
  else if p = 0x70 then rows_p070 else if p = 0x71 then rows_p071
  else if p = 0x74 ∨ p = 0x78 then rows_upl else []

/-- The word at byte offset `off` of the page belongs to row `r`. -/
def rowHolds (r : RegRow) (off : Nat) : Bool :=
  if off < r.off then false
  else
    let e := off - r.off
    if r.s1 = 0 then (if r.s2 = 0 then e == 0 else e % r.s2 == 0 && e / r.s2 < r.n2)
    else if r.s2 = 0 then e % r.s1 == 0 && e / r.s1 < r.n1
    else e / r.s1 < r.n1 && e % r.s1 % r.s2 == 0 && e % r.s1 / r.s2 < r.n2

/-- The row of the register at byte offset `off` of page `p`; none when the offset is reserved (R39). -/
def regRow (p off : Nat) : Option RegRow :=
  ((if off < 0x40 then rows_hdr else blockRows p)).find? (fun r => rowHolds r off)

/-- The reset word of PG_ESC, block by block. -/
def escReset (p : Nat) : Nat :=
  if 0x100 ≤ p then
    (if p % 4 = 0 then 0x280003E8 else if p % 4 = 3 then 0x240003E8 else 0x040003E8)
  else if 0x90 ≤ p then 0x0C0003E8 else if 0x80 ≤ p then 0xA80003E8
  else if p = 8 then 0x0C0003E8
  else if p = 0x20 ∨ p = 0x30 ∨ p = 0x50 then 0x040003E8
  else 0x000003E8

/-- The reset word of PG_QUIET, block by block. -/
def quietReset (p : Nat) : Nat :=
  if 0x100 ≤ p then 0x08002710
  else if 0x90 ≤ p then 0x08002710 else if 0x80 ≤ p then 0x02000010
  else if p = 8 ∨ p = 0x30 ∨ p = 0x50 then 0x08002710
  else if p = 0x20 then 0x02002710
  else 0xFF000000

/-- The entries of the protection table that the boot ROM fixes and the default of entries 16 to 20 (R428, R429). -/
def gateDefault (i : Nat) : Nat × Nat :=
  if i = 0 then (0x04000000 + 0x800 + 0x140 + 0x28, 0x07FFF000)
  else if i = 1 then (0x01000000 + 0x800 + 0x180, 0x0103F000)
  else if i = 2 then (0x00FE0000 + 0x800 + 0x600 + 0x180 + 0x10 + 0x2, 0x00FEF000 + 0x060)
  else if i ≤ 10 then (0x00FF0000 + 0x2000 * (i - 3) + 0x800 + 0x400 + 0x100 + 0x30 + 0x6,
      0x00FF1000 + 0x2000 * (i - 3) + 0x200 * (i - 3))
  else if i = 16 then (0x00000000 + 0x800 + 0x180 + 0x30 + 0x4, 0x009FF000)
  else if i = 17 then (0x00A00000 + 0x800 + 0x200 + 0x180 + 0x30 + 0x4, 0x00BFF000)
  else if i = 18 then (0x00C00000 + 0x800 + 0x200 + 0x180 + 0x20, 0x00EFF000)
  else if i = 19 then (0x00F00000 + 0x800 + 0x180 + 0x30, 0x00FDF000)
  else if i = 20 then (0x02000000 + 0x800 + 0x180 + 0x30 + 0x4, 0x021FF000)
  else (0, 0)

/-- The reset word of the register with key `k` (the register tables; R19, R428, R429). -/
def resetWord (v : Variant) (k : Nat) : Nat :=
  let p := k / 1024
  let off := k % 1024 * 4
  if off = 0x02C then escReset p
  else if off = 0x034 then quietReset p
  else if off < 0x40 then 0
  else if 0x80 ≤ p ∧ p < 0x90 then
    (if off = 0x40 then (if p - 0x80 = Variant.hamlets v then 0x0F000002 else 0x01000000 * (p - 0x80) + 1) else 0)
  else if 0x90 ≤ p ∧ p < 0x98 ∧ off = 0x40 then 0x10000000 * (p - 0x90) + 0x0F000000
  else if p = 0x31 ∧ 0x100 ≤ off ∧ off < 0x200 ∧ (off - 0x100) % 0x40 = 0 then 0x80002020
  else if p = 1 ∧ off = 0x40 then 0x79C00000
  else if p = 0x41 ∨ p = 0x42 then
    (if 0x800 ≤ off then (if off % 8 = 0 then (gateDefault ((off - 0x800) / 8)).1 else (gateDefault ((off - 0x800) / 8)).2)
     else 0)
  else match regRow p off with
    | some r => r.reset
    | none => 0

/-- The value under key `k`, none when it is not listed. -/
def findKey {α : Type} (k : Nat) : List (Nat × α) → Option α
  | [] => none
  | (k', a) :: l => if k' = k then some a else findKey k l

/-- Insertion before the first larger key. -/
def insKey {α : Type} (k : Nat) (a : α) : List (Nat × α) → List (Nat × α)
  | [] => [(k, a)]
  | (k', b) :: l => if k < k' then (k, a) :: (k', b) :: l else (k', b) :: insKey k a l

/-- The list without key `k`. -/
def delKey {α : Type} (k : Nat) : List (Nat × α) → List (Nat × α)
  | [] => []
  | (k', b) :: l => if k' = k then delKey k l else (k', b) :: delKey k l

/-- The list with `k` bound to `a`, keys rising. -/
def putKey {α : Type} (k : Nat) (a : α) (l : List (Nat × α)) : List (Nat × α) := insKey k a (delKey k l)

/-- The list with no entry of key `k` when `gone`, and with `k` bound to `a` otherwise. The list comes first: a write to an
unknown list is a term that no unfolding goes into. -/
def setKey {α : Type} (gone : Bool) (k : Nat) (a : α) (l : List (Nat × α)) : List (Nat × α) :=
  match l with
  | [] => if gone then [] else [(k, a)]
  | e :: l => if gone then delKey k (e :: l) else putKey k a (e :: l)

/-- The word of the register with key `k`, as a number. -/
def Dev.getW (d : Dev) (k : Nat) : Nat :=
  match findKey k d.regs with
  | some w => w.toNat
  | none => resetWord d.part k % 2 ^ 32

/-- The register file with word `k` written; a word equal to its reset word is not listed. -/
def Dev.setW (d : Dev) (k : Nat) (x : Nat) : Dev :=
  { d with regs := setKey (x % 2 ^ 32 == resetWord d.part k % 2 ^ 32) k (word x) d.regs }

/-- The value of a field (R4). -/
def Dev.get (d : Dev) (f : Fld) : Nat := bitsOf (d.getW f.key) f.hi f.lo

/-- The register file with a field written. -/
def Dev.set (d : Dev) (f : Fld) (x : Nat) : Dev := d.setW f.key (putBits (d.getW f.key) f.hi f.lo x)

/-- A field that is not zero. -/
def Dev.has (d : Dev) (f : Fld) : Bool := d.get f != 0

/-- The largest value of a field. -/
def fldTop (f : Fld) : Nat := 2 ^ (f.hi + 1 - f.lo) - 1

/-- A counter field raised by `n`, saturating. -/
def Dev.add (d : Dev) (f : Fld) (n : Nat) : Dev := d.set f (min (d.get f + n) (fldTop f))

/-- A counter field raised by one, saturating. -/
def Dev.inc (d : Dev) (f : Fld) : Dev := d.add f 1

/-- A counter field that wraps. -/
def Dev.incWrap (d : Dev) (f : Fld) : Dev := d.set f ((d.get f + 1) % 2 ^ (f.hi + 1 - f.lo))

/-- Set a field to a truth value. -/
def Dev.setB (d : Dev) (f : Fld) (b : Bool) : Dev := d.set f (b2n b)

/-- Bit `i` of the register with key `k`. -/
def Dev.bit (d : Dev) (k i : Nat) : Bool := bitOf (d.getW k) i

/-- Bit `i` of the register with key `k` set to `b`. -/
def Dev.setBit (d : Dev) (k i : Nat) (b : Bool) : Dev := d.setW k (putBit (d.getW k) i b)

/-- Interrupt status bit `i` of page `p` set. -/
def Dev.ist (d : Dev) (p i : Nat) : Dev := d.setBit (PG_IST p) i true

/-- Every register of the block back at its reset word (clearing a list of words). -/
def Dev.clearW (d : Dev) : List Nat → Dev
  | [] => d
  | k :: l => (d.setW k (resetWord d.part k)).clearW l

/-- Fields set to zero, one after the other. -/
def Dev.zero (d : Dev) : List Fld → Dev
  | [] => d
  | f :: l => (d.set f 0).zero l

/-- Pages of channel `c` (R45). -/
def pCHC (c : Nat) : Nat := 0x100 + 4 * c
def pCHT (c : Nat) : Nat := 0x100 + 4 * c + 1
def pCHX (c : Nat) : Nat := 0x100 + 4 * c + 2
def pCHS (c : Nat) : Nat := 0x100 + 4 * c + 3
def pMILL (m : Nat) : Nat := 0x80 + m
def pHAM (h : Nat) : Nat := 0x90 + h
def pUPL (u : Nat) : Nat := 0x74 + 4 * u
/-- The page of a gPTP domain. -/
def pDOM (x : Nat) : Nat := 0x11 + x

/-- The channel of a channel page. -/
def pageChan (p : Nat) : Nat := (p - 0x100) / 4

/-- The hamlet of a channel (R18). -/
def hamOf (c : Nat) : Nat := c / 8

/-- What a written word of some registers is held as: SHADOW at most 10, and PG_ESC.TIME as written, 0 too, which its range leaves
out and which makes a timer of no length (DESIGN CHOICE: log entry 43); PULSE 0 as 1; THRESH at most 32; SPLIT at most
5; COUNT 0 as 1; IDLE 0 as 1; FILT 1 to 50; CLASS 0 as 2; bits 0, 3, 5, 7 of PROT as
0; LEAD at least 8; SLEW 1 to 50, DOMNUM at most 127 (the register tables of 02, 09, 12 to 16). -/
def heldAs (p off x : Nat) : Nat :=
  if off = 0x02C then putBits x 31 28 (min (bitsOf x 31 28) 10)
  else if p = 1 ∧ off = 0x050 then putBits x 15 8 (max (bitsOf x 15 8) 1)
  else if p = 0x31 ∧ (off - 0x100) % 0x40 = 0 ∧ 0x100 ≤ off then putBits x 5 0 (min (bitsOf x 5 0) 32)
  else if p = 0x30 ∧ off = 0x040 then putBits x 2 0 (min (bitsOf x 2 0) 5)
  else if p = 0x37 ∧ 0x100 ≤ off ∧ (off - 0x100) % 8 = 0 then putBits x 31 24 (max (bitsOf x 31 24) 1)
  else if p = 3 ∧ off = 0x040 then putBits x 15 0 (max (bitsOf x 15 0) 1)
  else if p = 0x53 ∧ off = 0x040 then (if bitsOf x 31 29 = 0 then putBits x 31 29 2 else x)
  else if 0x100 ≤ p ∧ p % 4 = 0 ∧ off = 0x100 then putBits x 15 0 (max (bitsOf x 15 0) 1)
  else if 0x100 ≤ p ∧ p % 4 = 0 ∧ off = 0x104 then putBits x 5 0 (min (max (bitsOf x 5 0) 1) 50)
  else if p = 0x10 ∧ off = 0x040 then putBits x 7 0 (min (max (bitsOf x 7 0) 1) 50)
  else if (p = 0x11 ∨ p = 0x12) ∧ off = 0x040 then putBits x 31 24 (min (bitsOf x 31 24) 127)
  else if 0x100 ≤ p ∧ p % 4 = 2 ∧ off = 0x080 then putBits x 7 0 (bitsOf x 7 0 &&& 0x56)
  else if 0x100 ≤ p ∧ p % 4 = 2 ∧ off = 0x084 then putBits x 31 24 (max (bitsOf x 31 24) 8)
  else x

/-- Escalation state of a page. -/
def Dev.page (d : Dev) (p : Nat) : PageX :=
  match findKey p d.pages with
  | some x => x
  | none => PageX.reset

/-- Escalation state of a page written; a page at its reset state is not listed. -/
def Dev.setPage (d : Dev) (p : Nat) (x : PageX) : Dev :=
  { d with pages := setKey (decide (x = PageX.reset)) p x d.pages }

/-- Escalation state of a page changed. -/
def Dev.modPage (d : Dev) (p : Nat) (f : PageX → PageX) : Dev := d.setPage p (f (d.page p))

def Dev.chan (d : Dev) (c : Nat) : Chan := elemAt Chan.reset d.chans c
def Dev.setChan (d : Dev) (c : Nat) (x : Chan) : Dev := { d with chans := putAt d.chans c x }
def Dev.modChan (d : Dev) (c : Nat) (f : Chan → Chan) : Dev := d.setChan c (f (d.chan c))
def Dev.ham (d : Dev) (h : Nat) : Ham := elemAt Ham.reset d.hams h
def Dev.setHam (d : Dev) (h : Nat) (x : Ham) : Dev := { d with hams := putAt d.hams h x }
def Dev.mill (d : Dev) (m : Nat) : Mill := elemAt ⟨0, false, 0, false⟩ d.mills m
def Dev.setMill (d : Dev) (m : Nat) (x : Mill) : Dev := { d with mills := putAt d.mills m x }
def Dev.ses (d : Dev) (s : Nat) : Sess := elemAt Sess.reset d.sess s
def Dev.setSes (d : Dev) (s : Nat) (x : Sess) : Dev := { d with sess := putAt d.sess s x }
def Dev.modSes (d : Dev) (s : Nat) (f : Sess → Sess) : Dev := d.setSes s (f (d.ses s))
def Dev.dom (d : Dev) (x : Nat) : Dom := elemAt Dom.reset d.tim.doms x
def Dev.setDom (d : Dev) (x : Nat) (m : Dom) : Dev := { d with tim := { d.tim with doms := putAt d.tim.doms x m } }

/-- The channel is populated in this variant (R1, R3). -/
def Dev.hasChan (d : Dev) (c : Nat) : Bool := c < Variant.channels d.part
/-- The hamlet is populated. -/
def Dev.hasHam (d : Dev) (h : Nat) : Bool := h < Variant.hamlets d.part
/-- The mill is populated. -/
def Dev.hasMill (d : Dev) (m : Nat) : Bool := m < Variant.mills d.part
/-- The populated channels. -/
def Dev.chanList (d : Dev) : List Nat := List.range (Variant.channels d.part)
/-- The populated hamlets. -/
def Dev.hamList (d : Dev) : List Nat := List.range (Variant.hamlets d.part)
/-- The populated mills. -/
def Dev.millList (d : Dev) : List Nat := List.range (Variant.mills d.part)

/-- The pages that ignore PG_CTL.EN and run from power-up (13). -/
def alwaysRuns (p : Nat) : Bool := p == 0x10 || p == 0x11 || p == 0x12

/-- PG_STAT.RUN: the block is enabled and not held in reset or latched off. -/
def Dev.running (d : Dev) (p : Nat) : Bool :=
  populated d.part p && (alwaysRuns p || d.has (PG_CTL_EN p)) && !(d.page p).latched
    && !((d.page p).shadow.isSome && (d.page p).resetting)

/-- `f` once for each element of a list, from the left. -/
def Dev.forEach {α : Type} (d : Dev) (l : List α) (f : Dev → α → Dev) : Dev := l.foldl f d

/-- A change made only when a condition holds. -/
def Dev.iff (d : Dev) (b : Bool) (f : Dev → Dev) : Dev := if b then f d else d

/-- A fresh open value (log entry 6). -/
def Dev.open' (d : Dev) : Nat := Config.freeNat d.fresh
/-- The counter of open values advanced. -/
def Dev.next (d : Dev) : Dev := { d with fresh := d.fresh + 1 }

end Sys2Proof.Machine
end

