-- ==== Sys2Proof/Machine/Clock.lean ====
section
/-! DEFINITION. The clock: device time and core cycles (R15, R339), and what an instant of the bell means. -/

namespace Sys2Proof.Machine

open Sys2Proof

/-- Units of device time in a nanosecond: the clock counts units of 2^-48 ns (R339). -/
def nsUnits : Nat := 2 ^ 48

/-- The always-on clock after `n` core cycles: in each, device time gains 2 ns and RATE, a signed count of 2^-40 of the
nominal rate (R339), also while it is UNSET. -/
def Aon.pass (a : Aon) (n : Nat) : Aon :=
  { a with cycles := a.cycles + n,
           time := ((a.time : Int) + n * (2 * (nsUnits : Int) + a.rate * 2 ^ 9)).toNat }

/-- `n` core cycles pass and nothing else. -/
def Dev.pass (d : Dev) (n : Nat) : Dev := { d with aon := d.aon.pass n }

/-- One core cycle passes. -/
def passCycle (s : State) : State := { s with dev := s.dev.pass 1 }

/-- Device time in whole nanoseconds. -/
def Dev.nowNs (d : Dev) : Nat := d.aon.time / nsUnits

/-- Device time: seconds, and nanoseconds within the second (R338). -/
def Dev.nowSec (d : Dev) : Nat := d.nowNs / 1000000000
def Dev.nowSub (d : Dev) : Nat := d.nowNs % 1000000000

/-- Device time carried forward to an instant in nanoseconds; an instant that has passed changes nothing (log entry
2). The core cycles pass with it at the nominal rate. -/
def Dev.advanceTo (d : Dev) (ns : Nat) : Dev :=
  if d.nowNs < ns then
    { d with aon := { d.aon with time := ns * nsUnits, cycles := d.aon.cycles + (ns - d.nowNs) / 2 } }
  else d

end Sys2Proof.Machine
end

