-- ==== Sys2Proof/Machine/Ops.lean ====
section
/-! DEFINITION. The shared operations: memory (R33, R306), message buffer descriptors, event records (R54), output, and
the time and size figures that several chapters use. -/

namespace Sys2Proof.Machine

open Sys2Proof

/-- What a byte of main SRAM or hayloft reads as when it is not listed: zero, and QUAL = INIT in the process image
(R315; log entry 4). -/
def memDefault (a : Nat) : Byte :=
  if 0xA00000 ≤ a ∧ a < 0xC00000 ∧ a % 16 = 8 then 0x80#8 else 0x00#8

/-- Insertion of a cell before the first larger address. -/
def insCell (a : Nat) (b : Byte) : List Host.Cell → List Host.Cell
  | [] => [(a, b)]
  | (a', b') :: l => if a < a' then (a, b) :: (a', b') :: l else (a', b') :: insCell a b l

/-- The memory without address `a`. -/
def delCell (a : Nat) : List Host.Cell → List Host.Cell
  | [] => []
  | (a', b') :: l => if a' = a then delCell a l else (a', b') :: delCell a l

/-- The byte at an address of main SRAM or hayloft. -/
def Memory.get (m : List Host.Cell) (a : Nat) : Byte :=
  match findKey a m with
  | some b => b
  | none => memDefault a

/-- The memory with a byte written, in canonical form. -/
def Memory.put (m : List Host.Cell) (a : Nat) (b : Byte) : List Host.Cell :=
  match m with
  | [] => if b = memDefault a then [] else [(a, b)]
  | e :: m => if b = memDefault a then delCell a (e :: m) else insCell a b (delCell a (e :: m))

/-- Addresses rise and no listed byte equals what an unlisted address reads as. -/
def Memory.wf : List Host.Cell → Bool
  | [] => true
  | [(a, b)] => b != memDefault a
  | (a, b) :: (a', b') :: l => b != memDefault a && a < a' && Memory.wf ((a', b') :: l)

/-- Bytes written from an address up. -/
def Memory.putAll (m : List Host.Cell) (a : Nat) : List Byte → List Host.Cell
  | [] => m
  | b :: l => Memory.putAll (Memory.put m a b) (a + 1) l

/-- `n` bytes read from an address up. -/
def Memory.getAll (m : List Host.Cell) (a : Nat) : Nat → List Byte
  | 0 => []
  | n + 1 => Memory.get m a :: Memory.getAll m (a + 1) n

/-- Four bytes of a word, byte 0 in bits 31:24 (log entry 7). -/
def bytesOf (x : Nat) : List Byte :=
  [BitVec.ofNat 8 (x / 2 ^ 24), BitVec.ofNat 8 (x / 2 ^ 16), BitVec.ofNat 8 (x / 2 ^ 8), BitVec.ofNat 8 x]

/-- `n` bytes of a number, most significant first. -/
def bytesMsb (x : Nat) : Nat → List Byte
  | 0 => []
  | n + 1 => BitVec.ofNat 8 (x / 256 ^ n) :: bytesMsb x n

/-- A number from its bytes, most significant first. -/
def natOf (l : List Byte) : Nat := l.foldl (fun n b => n * 256 + b.toNat) 0

/-- The physical address behind an address of the process image windows: record r of window w lies in copy 0 or 1 as
its selector says (R306). -/
def Dev.phys (d : Dev) (a : Nat) : Nat :=
  if 0xA00000 ≤ a ∧ a < 0xC00000 then
    let off := a % 0x100000
    let back := 0xB00000 ≤ a
    if d.svc.sel.contains (off / 16) == back then 0xA00000 + off else 0xB00000 + off
  else a

/-- The word of memory at an address, each byte through the process image windows. -/
def Dev.memW (d : Dev) (a : Nat) : Nat := natOf ((List.range 4).map (fun i => Memory.get d.mem (d.phys (a + i))))

/-- The memory with a word written, each byte through the process image windows. -/
def Dev.setMemW (d : Dev) (a x : Nat) : Dev :=
  { d with mem := ((bytesOf x).zipIdx).foldl (fun m b => Memory.put m (d.phys (a + b.2)) b.1) d.mem }

/-- Bytes of memory outside the process image windows. -/
def Dev.memB (d : Dev) (a n : Nat) : List Byte := Memory.getAll d.mem a n
def Dev.setMemB (d : Dev) (a : Nat) (l : List Byte) : Dev := { d with mem := Memory.putAll d.mem a l }

/-- Word `j` of message buffer descriptor `i`, at 16 x i (R288). -/
def Dev.desc (d : Dev) (i j : Nat) : Nat := natOf (Memory.getAll d.mem (16 * i + 4 * j) 4)
def Dev.setDesc (d : Dev) (i j x : Nat) : Dev :=
  { d with mem := Memory.putAll d.mem (16 * i + 4 * j) (bytesOf x) }

/-- The granule `g` of the buffer pool: 64 bytes from 0x0040_0000 (R170). -/
def granAddr (g : Nat) : Nat := 0x400000 + 64 * g

/-- Number of bits at one in the low `n` bits. -/
def countBits (x : Nat) : Nat → Nat
  | 0 => 0
  | n + 1 => b2n (bitOf x n) + countBits x n

/-- The tick number in force. -/
def Dev.tick (d : Dev) : Nat := d.bell.tick

/-- The bell period in nanoseconds: DEV_BPERIOD.STEPS steps of 62.5 us (R61). -/
def Dev.periodNs (d : Dev) : Nat := d.get DEV_BPERIOD_STEPS * 62500

/-- Something goes out (log entry 5). -/
def Dev.emit (d : Dev) (o : Out) : Dev := { d with out := d.out ++ [o] }

/-- A record with the low 32 bits of the tick number in word 1 (R54). -/
def Dev.evRec (d : Dev) (kind source w2 w3 : Nat) : EvRec :=
  ⟨word (kind * 2 ^ 24 + source % 1024), word d.tick, word w2, word w3, none⟩

/-- A record placed in the host event queue of session `s`, when it is open (R54). -/
def Dev.post (d : Dev) (s : Nat) (r : EvRec) : Dev :=
  if (d.ses s).st = .opened then d.modSes s (fun x => { x with queue := x.queue ++ [r] }) else d

/-- A record placed in the queue of every open session that `p` names. -/
def Dev.postAll (d : Dev) (p : Sess → Bool) (r : EvRec) : Dev :=
  { d with sess := d.sess.map (fun x =>
      if x.st = .opened ∧ p x = true then { x with queue := x.queue ++ [r] } else x) }

/-- The scope names page `p` (R263, R272). -/
def scopePage (sc : Scope) (p : Nat) : Bool := sc.pages.getLsbD p
/-- The scope names the segment of channel `c`. -/
def scopeSeg (sc : Scope) (c : Nat) : Bool := sc.segments.getLsbD c
/-- A MID range of the scope holds `mid` (R263). -/
def scopeMid (sc : Scope) (mid : Nat) : Bool := sc.midr.any (fun r => r.1 ≤ mid && mid ≤ r.2)
/-- The scope holds bit `b` of SVCOPS (R336). -/
def scopeOp (sc : Scope) (b : Nat) : Bool := sc.svcops.getLsbD b

/-- The node number of the part in tick bookkeeping: bits 15:0 of the tick number. -/
def Dev.tick16 (d : Dev) : Nat := d.tick % 65536

/-- An uplink is up. -/
def Dev.upOk (d : Dev) (u : Nat) : Bool := (elemAt ⟨false⟩ d.ups u).up

/-- The LAN identifier of the PRP redundancy control trailer on an uplink (R57). -/
def lanId : Side → Nat
  | .a => 0xA
  | .b => 0xB

/-- The session whose secure channels carry a message; a PXM has none (R267). -/
def Out.sess : Out → Option Nat
  | .response s _ _ _ _ _ => some s
  | .event s _ _ _ => some s
  | _ => none

/-- The association number and packet number of the next frame of session `s` on uplink `u` (R271). -/
def Dev.nextSa (d : Dev) (s u : Nat) : Nat × Nat := (elemAt 0 (d.ses s).keyIdx u % 4, elemAt 0 (d.ses s).txPn u)

/-- A packet number is used (R271). -/
def Dev.usePn (d : Dev) (s u n : Nat) : Dev := d.modSes s (fun x => { x with txPn := putAt x.txPn u (elemAt 0 x.txPn u + n) })

/-- `n` frames of one message leave on an uplink that is up, with PRP sequence number `prp` (R57), under the session's key when the
message is one of a session: the send counter and the packet numbers. -/
def Dev.sendOn (d : Dev) (x : Side) (n prp : Nat) (o : Out) : Dev :=
  d.iff (d.upOk x.num) (fun d =>
    let d := d.add (UPL_TXCNT_COUNT x.num) n
    match o.sess with
    | some s => (d.usePn s x.num n).emit (.uplink x prp (lanId x) (some (d.nextSa s x.num)) o)
    | none => d.emit (.uplink x prp (lanId x) none o))

/-- A message of `n` frames sent on uplink A and on uplink B with the same PRP sequence numbers, the first of them that of the
message; an uplink that is down carries none (R57). -/
def Dev.sendFrames (d : Dev) (n : Nat) (o : Out) : Dev :=
  (({ d with prp := (d.prp + n) % 65536 }).sendOn .a n d.prp o).sendOn .b n d.prp o

/-- A message of one frame sent on both uplinks (R57). -/
def Dev.send (d : Dev) (o : Out) : Dev := d.sendFrames 1 o

/-- The 12-byte header of a URT message (R47): VER = 1, OP, FLAGS, SESS, STATUS, XID, COUNT, ADDR. -/
def urtHead (op flags sess status xid count addr : Nat) : List Byte :=
  [BitVec.ofNat 8 (16 + op), BitVec.ofNat 8 flags, BitVec.ofNat 8 sess, BitVec.ofNat 8 status] ++ bytesMsb xid 2 ++ bytesMsb count 2
    ++ bytesMsb addr 4

/-- The words of an event record (R54). -/
def EvRec.words (r : EvRec) : List Word := [r.w0, r.w1, r.w2, r.w3]

/-- The bytes of a URT message that the device sends (R47, R48, R54): FLAGS bit 7 is RSP and bit 6 MORE; ADDR of a response is that
of its request, and the XID of an EVENT the low bits of its sequence number (DESIGN CHOICE: log entry 39). -/
def urtBytes : Out → List Byte
  | .response s op status xid addr data =>
    urtHead op 0x80 s status xid data.length addr ++ data.flatMap (fun w => bytesOf w.toNat)
  | .event s seq more recs =>
    urtHead 8 (if more then 0x40 else 0) s 0 (seq % 65536) (4 * recs.length) seq
      ++ recs.flatMap (fun r => r.words.flatMap (fun w => bytesOf w.toNat))
  | _ => []

/-- The part holds headship (R441): TWIN_STAT.ROLE = 1; CHC_XSTAT.HEAD reads it on every channel (R450). -/
def Dev.isHead (d : Dev) : Bool := d.get TWIN_STAT_ROLE == 1

/-- The twin link is paired. -/
def linked (d : Dev) : Bool := d.get TWIN_STAT_LINK == 1

/-- The twin state changed. -/
def Dev.modTwin (d : Dev) (f : TwinSt → TwinSt) : Dev := { d with twin := f d.twin }

/-- A frame of the part goes out on the twin link with the next SEQ (R442). -/
def twinSend (d : Dev) (o : Out) : Dev := (d.modTwin (fun t => { t with seq := t.seq + 1 })).emit (.twin d.twin.seq o)

end Sys2Proof.Machine
end

