-- ==== Sys2Proof/Machine/Crypto.lean ====
section
/-! DEFINITION. The calculations that the spec takes from its standards: HCRC and CRC-32C (R103), AES-256 (FIPS 197), the
GMAC tag (R225 to R227), the RFC 3394 wrap (R247) and unwrap (R277), SHA-384 (R262, R287, R437), HMAC-SHA-384 and the key
derivation of R270. -/

namespace Sys2Proof.Machine

open Sys2Proof

/-- The low `n` bits of `x`, most significant first. -/
def bitsMsb (x : Nat) : Nat → List Bool
  | 0 => []
  | n + 1 => bitOf x n :: bitsMsb x n

/-- Bits of bytes, most significant bit first. -/
def byteBits (l : List Byte) : List Bool := l.flatMap (fun b => bitsMsb b.toNat 8)

/-- One step of a CRC of `n` bits with polynomial `poly` (R103). -/
def crcStep (n poly crc : Nat) (b : Bool) : Nat :=
  let s := crc * 2 % 2 ^ n
  if (bitOf crc (n - 1)) != b then s ^^^ poly else s

/-- HCRC over the bits from SOF through SEQ (R103). -/
def hcrcOf (bits : List Bool) : Nat := bits.foldl (crcStep 16 0x1021) 0xFFFF

/-- CRC-32C over the bits from SOF on (R103). -/
def crc32cOf (bits : List Bool) : Nat := bits.foldl (crcStep 32 0x1EDC6F41) 0xFFFFFFFF ^^^ 0xFFFFFFFF

/-- The 62 data bits from SOF through SEQ (R100). -/
def headBits (c mid src ft : Nat) (a dps : Bool) (len seq : Nat) : List Bool :=
  false :: bitsMsb c 3 ++ bitsMsb mid 22 ++ bitsMsb src 5 ++ bitsMsb ft 3 ++ [a, dps] ++ bitsMsb len 10 ++ bitsMsb seq 16

/-- The S-box of FIPS 197. -/
def aesSbox0 : List Nat :=
  [ 99, 124, 119, 123, 242, 107, 111, 197,  48,   1, 103,  43, 254, 215, 171, 118,
   202, 130, 201, 125, 250,  89,  71, 240, 173, 212, 162, 175, 156, 164, 114, 192,
   183, 253, 147,  38,  54,  63, 247, 204,  52, 165, 229, 241, 113, 216,  49,  21,
     4, 199,  35, 195,  24, 150,   5, 154,   7,  18, 128, 226, 235,  39, 178, 117]

/-- The S-box of FIPS 197. -/
def aesSbox1 : List Nat :=
  [  9, 131,  44,  26,  27, 110,  90, 160,  82,  59, 214, 179,  41, 227,  47, 132,
    83, 209,   0, 237,  32, 252, 177,  91, 106, 203, 190,  57,  74,  76,  88, 207,
   208, 239, 170, 251,  67,  77,  51, 133,  69, 249,   2, 127,  80,  60, 159, 168,
    81, 163,  64, 143, 146, 157,  56, 245, 188, 182, 218,  33,  16, 255, 243, 210]

/-- The S-box of FIPS 197. -/
def aesSbox2 : List Nat :=
  [205,  12,  19, 236,  95, 151,  68,  23, 196, 167, 126,  61, 100,  93,  25, 115,
    96, 129,  79, 220,  34,  42, 144, 136,  70, 238, 184,  20, 222,  94,  11, 219,
   224,  50,  58,  10,  73,   6,  36,  92, 194, 211, 172,  98, 145, 149, 228, 121,
   231, 200,  55, 109, 141, 213,  78, 169, 108,  86, 244, 234, 101, 122, 174,   8]

/-- The S-box of FIPS 197. -/
def aesSbox3 : List Nat :=
  [186, 120,  37,  46,  28, 166, 180, 198, 232, 221, 116,  31,  75, 189, 139, 138,
   112,  62, 181, 102,  72,   3, 246,  14,  97,  53,  87, 185, 134, 193,  29, 158,
   225, 248, 152,  17, 105, 217, 142, 148, 155,  30, 135, 233, 206,  85,  40, 223,
   140, 161, 137,  13, 191, 230,  66, 104,  65, 153,  45,  15, 176,  84, 187,  22]

/-- The S-box of FIPS 197. -/
def aesSbox : List Nat := aesSbox0 ++ aesSbox1 ++ aesSbox2 ++ aesSbox3

/-- Substitution of one byte. -/
def subByte (x : Nat) : Nat := elemAt 0 aesSbox x

/-- Multiplication by x in the field of FIPS 197. -/
def xtime (x : Nat) : Nat := if x < 128 then 2 * x else (2 * x) % 256 ^^^ 0x1B

/-- The bytes of a 32-bit word, most significant first, substituted. -/
def subWord (w : Nat) : Nat :=
  subByte (w / 2 ^ 24 % 256) * 2 ^ 24 + subByte (w / 2 ^ 16 % 256) * 2 ^ 16 + subByte (w / 2 ^ 8 % 256) * 2 ^ 8
    + subByte (w % 256)

/-- A word rotated left by one byte. -/
def rotWord (w : Nat) : Nat := w % 2 ^ 24 * 2 ^ 8 + w / 2 ^ 24 % 256

/-- The AES-256 key schedule: from the last eight words, newest first, `n` further words from index `i` on. -/
def keyWords : Nat → Nat → Nat → List Nat → List Nat → List Nat
  | 0, _, _, _, acc => acc.reverse
  | n + 1, i, rcon, last, acc =>
    let t := elemAt 0 last 0
    let t := if i % 8 = 0 then subWord (rotWord t) ^^^ (rcon * 2 ^ 24) else if i % 8 = 4 then subWord t else t
    let w := elemAt 0 last 7 ^^^ t
    keyWords n (i + 1) (if i % 8 = 0 then xtime rcon else rcon) (w :: last.take 7) (w :: acc)

/-- The 60 round key words of AES-256. -/
def aesKeys (k : BitVec 256) : List Nat :=
  let ws := (List.range 8).map (fun i => k.toNat / 2 ^ (32 * (7 - i)) % 2 ^ 32)
  ws ++ keyWords 52 8 1 ws.reverse []

/-- The 16 bytes of a block. -/
def blockBytes (x : Nat) : List Nat := (List.range 16).map (fun i => x / 2 ^ (8 * (15 - i)) % 256)

/-- The round key of round `r` as bytes. -/
def roundKey (ws : List Nat) (r : Nat) : List Nat :=
  (List.range 16).map (fun i => elemAt 0 ws (4 * r + i / 4) / 2 ^ (8 * (3 - i % 4)) % 256)

def xorBytes (a b : List Nat) : List Nat := List.zipWith (fun x y => x ^^^ y) a b

/-- SubBytes and ShiftRows: byte `i` of the result is byte `5 i mod 16` of the state, substituted. -/
def subShift (s : List Nat) : List Nat := (List.range 16).map (fun i => subByte (elemAt 0 s (5 * i % 16)))

/-- MixColumns. -/
def mixCols (s : List Nat) : List Nat :=
  (List.range 16).map (fun i =>
    let b (k : Nat) : Nat := elemAt 0 s (i / 4 * 4 + (i + k) % 4)
    xtime (b 0) ^^^ xtime (b 1) ^^^ b 1 ^^^ b 2 ^^^ b 3)

/-- The rounds of AES-256 that mix columns, from round `r` on. -/
def aesRounds (ws : List Nat) : Nat → Nat → List Nat → List Nat
  | 0, _, s => s
  | n + 1, r, s => aesRounds ws n (r + 1) (xorBytes (mixCols (subShift s)) (roundKey ws r))

/-- The block whose bytes are given. -/
def blockOf (l : List Nat) : Nat := l.foldl (fun n b => n * 256 + b) 0

/-- AES-256 encryption of one block (FIPS 197). -/
def aes256 (k : BitVec 256) (x : Nat) : Nat :=
  let ws := aesKeys k
  let s := aesRounds ws 13 1 (xorBytes (blockBytes x) (roundKey ws 0))
  blockOf (xorBytes (subShift s) (roundKey ws 14))

/-- InvShiftRows and InvSubBytes: byte `i` of the result is byte `13 i mod 16` of the state, substituted back. -/
def unSubShift (s : List Nat) : List Nat :=
  (List.range 16).map (fun i => aesSbox.findIdx (fun x => x == elemAt 0 s (13 * i % 16)))

/-- Product of `x` and `n` below 16 in the field of FIPS 197. -/
def fieldMul (x n : Nat) : Nat :=
  let x2 := xtime x
  let x4 := xtime x2
  (if bitOf n 0 then x else 0) ^^^ (if bitOf n 1 then x2 else 0) ^^^ (if bitOf n 2 then x4 else 0)
    ^^^ (if bitOf n 3 then xtime x4 else 0)

/-- InvMixColumns. -/
def unMixCols (s : List Nat) : List Nat :=
  (List.range 16).map (fun i =>
    let b (k n : Nat) : Nat := fieldMul (elemAt 0 s (i / 4 * 4 + (i + k) % 4)) n
    b 0 14 ^^^ b 1 11 ^^^ b 2 13 ^^^ b 3 9)

/-- The rounds of the inverse cipher that mix columns, from round `n` down to 1. -/
def aesUnrounds (ws : List Nat) : Nat → List Nat → List Nat
  | 0, s => s
  | n + 1, s => aesUnrounds ws n (unMixCols (xorBytes (unSubShift s) (roundKey ws (n + 1))))

/-- AES-256 decryption of one block (FIPS 197). -/
def unAes256 (k : BitVec 256) (x : Nat) : Nat :=
  let ws := aesKeys k
  let s := aesUnrounds ws 13 (xorBytes (blockBytes x) (roundKey ws 14))
  blockOf (xorBytes (unSubShift s) (roundKey ws 0))

/-- Product in the field of GHASH: `n` bits of `x` from the most significant of them. -/
def ghashMul (x : Nat) : Nat → Nat → Nat → Nat
  | 0, _, z => z
  | n + 1, v, z =>
    let z := if bitOf x n then z ^^^ v else z
    let v := if v % 2 = 0 then v / 2 else (v / 2) ^^^ (0xE1 * 2 ^ 120)
    ghashMul x n v z

/-- GHASH over blocks of 16 bytes. -/
def ghash (h : Nat) (blocks : List Nat) : Nat := blocks.foldl (fun y b => ghashMul (y ^^^ b) 128 h 0) 0

/-- Bytes as blocks of 16, the last filled with zeros; `n` bounds the number of blocks. -/
def toBlocks : Nat → List Byte → List Nat
  | 0, _ => []
  | _ + 1, [] => []
  | n + 1, l => natOf ((l ++ List.replicate 16 0#8).take 16) :: toBlocks n (l.drop 16)

/-- The header word HW (R226). -/
def headerWord (c mid src ft : Nat) (a dps : Bool) (len seq : Nat) : Nat :=
  c * 2 ^ 61 + mid * 2 ^ 39 + src * 2 ^ 34 + ft * 2 ^ 31 + b2n a * 2 ^ 30 + b2n dps * 2 ^ 29 + len * 2 ^ 19 + seq * 2 ^ 3

/-- The IV (R227). -/
def ivOf (src mid seq tick : Nat) : Nat := src * 2 ^ 91 + mid * 2 ^ 69 + seq * 2 ^ 53 + tick % 2 ^ 48 * 2 ^ 5

/-- The GMAC tag of authenticated data under key and IV: the most significant 64 bits (R225). -/
def gmac (k : BitVec 256) (iv : Nat) (aad : List Byte) : BitVec 64 :=
  let s := ghash (aes256 k 0) (toBlocks 40 aad ++ [8 * aad.length * 2 ^ 64])
  BitVec.ofNat 64 ((s ^^^ aes256 k (iv * 2 ^ 32 + 1)) / 2 ^ 64)

/-- The eight bytes of HW. -/
def hwBytes (x : Nat) : List Byte := bytesOf (x / 2 ^ 32 % 2 ^ 32) ++ bytesOf (x % 2 ^ 32)

/-- The tag of a frame (R225 to R227). -/
def tagOf (k : BitVec 256) (c mid src ft : Nat) (a dps : Bool) (len seq tick : Nat) (payload : List Byte) : BitVec 64 :=
  gmac k (ivOf src mid seq tick) (hwBytes (headerWord c mid src ft a dps len seq) ++ payload)

/-- One step of the RFC 3394 wrap: block number `i` of `n`, step count `t`, register A with the blocks. -/
def wrapStep (k : BitVec 256) (t i : Nat) (ar : Nat × List Nat) : Nat × List Nat :=
  let b := aes256 k (ar.1 * 2 ^ 64 + elemAt 0 ar.2 i)
  ((b / 2 ^ 64) ^^^ t, putAt ar.2 i (b % 2 ^ 64))

/-- The RFC 3394 wrap of 64-bit blocks, with the default initial value (R247). -/
def rfc3394 (k : BitVec 256) (blocks : List Nat) : List Nat :=
  let n := blocks.length
  let r := (List.range (6 * n)).foldl (fun ar t => wrapStep k (t + 1) (t % n) ar) (0xA6A6A6A6A6A6A6A6, blocks)
  r.1 :: r.2

/-- One step of the RFC 3394 unwrap. -/
def unwrapStep (k : BitVec 256) (t i : Nat) (ar : Nat × List Nat) : Nat × List Nat :=
  let b := unAes256 k ((ar.1 ^^^ t) * 2 ^ 64 + elemAt 0 ar.2 i)
  (b / 2 ^ 64, putAt ar.2 i (b % 2 ^ 64))

/-- The RFC 3394 unwrap of 64-bit blocks: the plain blocks, and whether the integrity check passes (R277). -/
def unwrap3394 (k : BitVec 256) (blocks : List Nat) : List Nat × Bool :=
  let n := blocks.length - 1
  let r := (List.range (6 * n)).foldl (fun ar t => unwrapStep k (6 * n - t) ((6 * n - t - 1) % n) ar)
    (elemAt 0 blocks 0, blocks.drop 1)
  (r.2, r.1 == 0xA6A6A6A6A6A6A6A6)

/-- A 256-bit key as four 64-bit blocks, and back. -/
def keyBlocks (k : BitVec 256) : List Nat := (List.range 4).map (fun i => k.toNat / 2 ^ (64 * (3 - i)) % 2 ^ 64)
def blocksKey (l : List Nat) : BitVec 256 := BitVec.ofNat 256 (l.foldl (fun n b => n * 2 ^ 64 + b) 0)

/-- Enrollment keys kept in the vault, and in flash wrapped under the storage key (R244, R257). -/
def Dev.storeKeys (d : Dev) (ks : List (Nat × Nat × BitVec 256)) : Dev :=
  { d with sec := { d.sec with vault := ks },
           flash := { d.flash with enroll := ks.map (fun e => (e.1, e.2.1, rfc3394 d.sec.storage (keyBlocks e.2.2))) } }

/-- The enrollment key of a node stored, or with none its key dropped (R257, R258). -/
def Dev.storeKey (d : Dev) (c a : Nat) (k : Option (BitVec 256)) : Dev :=
  let other {α : Type} (e : Nat × Nat × α) : Bool := !(e.1 == c && e.2.1 == a)
  { d with sec := { d.sec with vault := d.sec.vault.filter other ++ (k.map (fun x => (c, a, x))).toList },
           flash := { d.flash with enroll := d.flash.enroll.filter other
             ++ (k.map (fun x => (c, a, rfc3394 d.sec.storage (keyBlocks x)))).toList } }

/-- The vault filled from flash (R244). -/
def Dev.loadVault (d : Dev) (storage : BitVec 256) : Dev :=
  { d with sec := { d.sec with storage := storage,
                               vault := d.flash.enroll.map (fun e => (e.1, e.2.1, blocksKey (unwrap3394 storage e.2.2).1)) } }

/-- A node has an enrollment key. -/
def Dev.enrolled (d : Dev) (c a : Nat) : Bool := d.sec.vault.any (fun e => e.1 == c && e.2.1 == a)

/-- A request to the random source (R282): it is seeded anew after 2^20 of them. Answers the number of the draw. -/
def Dev.draw (d : Dev) : Dev × Nat :=
  ({ d with sec := { d.sec with rngReqs := (d.sec.rngReqs + 1) % 2 ^ 20 }, fresh := d.fresh + 1 }, d.fresh)

/-- The payload of a KEY frame (R247): KVER, DST, EPOCH, WRAP. -/
def keyPayload (enroll : BitVec 256) (dst epoch : Nat) (key : BitVec 256) : List Byte :=
  let plain := keyBlocks key ++ [epoch % 65536 * 2 ^ 48 + dst * 2 ^ 40]
  [1#8, BitVec.ofNat 8 dst, BitVec.ofNat 8 (epoch / 256), BitVec.ofNat 8 epoch]
    ++ (rfc3394 enroll plain).flatMap hwBytes

/-- The constants of SHA-384. -/
def shaK0 : List Nat :=
  [0x428A2F98D728AE22, 0x7137449123EF65CD, 0xB5C0FBCFEC4D3B2F, 0xE9B5DBA58189DBBC,
   0x3956C25BF348B538, 0x59F111F1B605D019, 0x923F82A4AF194F9B, 0xAB1C5ED5DA6D8118,
   0xD807AA98A3030242, 0x12835B0145706FBE, 0x243185BE4EE4B28C, 0x550C7DC3D5FFB4E2,
   0x72BE5D74F27B896F, 0x80DEB1FE3B1696B1, 0x9BDC06A725C71235, 0xC19BF174CF692694,
   0xE49B69C19EF14AD2, 0xEFBE4786384F25E3, 0x0FC19DC68B8CD5B5, 0x240CA1CC77AC9C65,
   0x2DE92C6F592B0275, 0x4A7484AA6EA6E483, 0x5CB0A9DCBD41FBD4, 0x76F988DA831153B5,
   0x983E5152EE66DFAB, 0xA831C66D2DB43210, 0xB00327C898FB213F, 0xBF597FC7BEEF0EE4,
   0xC6E00BF33DA88FC2, 0xD5A79147930AA725, 0x06CA6351E003826F, 0x142929670A0E6E70,
   0x27B70A8546D22FFC, 0x2E1B21385C26C926, 0x4D2C6DFC5AC42AED, 0x53380D139D95B3DF,
   0x650A73548BAF63DE, 0x766A0ABB3C77B2A8, 0x81C2C92E47EDAEE6, 0x92722C851482353B,
   0xA2BFE8A14CF10364, 0xA81A664BBC423001, 0xC24B8B70D0F89791, 0xC76C51A30654BE30,
   0xD192E819D6EF5218, 0xD69906245565A910, 0xF40E35855771202A, 0x106AA07032BBD1B8,
   0x19A4C116B8D2D0C8, 0x1E376C085141AB53, 0x2748774CDF8EEB99, 0x34B0BCB5E19B48A8,
   0x391C0CB3C5C95A63, 0x4ED8AA4AE3418ACB, 0x5B9CCA4F7763E373, 0x682E6FF3D6B2B8A3,
   0x748F82EE5DEFB2FC, 0x78A5636F43172F60, 0x84C87814A1F0AB72, 0x8CC702081A6439EC,
   0x90BEFFFA23631E28, 0xA4506CEBDE82BDE9, 0xBEF9A3F7B2C67915, 0xC67178F2E372532B]

/-- The constants of SHA-384. -/
def shaK1 : List Nat :=
  [0xCA273ECEEA26619C, 0xD186B8C721C0C207, 0xEADA7DD6CDE0EB1E, 0xF57D4F7FEE6ED178,
   0x06F067AA72176FBA, 0x0A637DC5A2C898A6, 0x113F9804BEF90DAE, 0x1B710B35131C471B,
   0x28DB77F523047D84, 0x32CAAB7B40C72493, 0x3C9EBE0A15C9BEBC, 0x431D67C49C100D4C,
   0x4CC5D4BECB3E42B6, 0x597F299CFC657E2A, 0x5FCB6FAB3AD6FAEC, 0x6C44198C4A475817]

/-- The constants of SHA-384. -/
def shaK : List Nat := shaK0 ++ shaK1

/-- The initial hash value of SHA-384. -/
def shaInit : List Nat :=
  [0xCBBB9D5DC1059ED8, 0x629A292A367CD507, 0x9159015A3070DD17, 0x152FECD8F70E5939,
   0x67332667FFC00B31, 0x8EB44A8768581511, 0xDB0C2E0D64F98FA7, 0x47B5481DBEFA4FA4]

/-- Rotation right of 64 bits. -/
def rotr (x n : Nat) : Nat := x / 2 ^ n + x % 2 ^ n * 2 ^ (64 - n)

/-- The message schedule: `n` further words, newest first. -/
def shaSched : Nat → List Nat → List Nat
  | 0, ws => ws
  | n + 1, ws =>
    let w2 := elemAt 0 ws 1
    let w15 := elemAt 0 ws 14
    let s0 := rotr w15 1 ^^^ rotr w15 8 ^^^ (w15 / 2 ^ 7)
    let s1 := rotr w2 19 ^^^ rotr w2 61 ^^^ (w2 / 2 ^ 6)
    shaSched n (((elemAt 0 ws 15 + s0 + elemAt 0 ws 6 + s1) % 2 ^ 64) :: ws)

/-- One round on the working variables a to h. -/
def shaRound (v : List Nat) (kw : Nat × Nat) : List Nat :=
  match v with
  | [a, b, c, d, e, f, g, h] =>
    let s1 := rotr e 14 ^^^ rotr e 18 ^^^ rotr e 41
    let ch := (e &&& f) ^^^ ((2 ^ 64 - 1 - e) &&& g)
    let t1 := h + s1 + ch + kw.1 + kw.2
    let s0 := rotr a 28 ^^^ rotr a 34 ^^^ rotr a 39
    let maj := (a &&& b) ^^^ (a &&& c) ^^^ (b &&& c)
    [(t1 + s0 + maj) % 2 ^ 64, a, b, c, (d + t1) % 2 ^ 64, e, f, g]
  | _ => v

/-- One block of 16 words. -/
def shaBlock (h : List Nat) (ws : List Nat) : List Nat :=
  let v := (List.zip shaK (shaSched 64 ws.reverse).reverse).foldl shaRound h
  List.zipWith (fun x y => (x + y) % 2 ^ 64) h v

/-- The message in blocks of 16 words; `n` bounds their number. -/
def shaBlocks : Nat → List Byte → List (List Nat)
  | 0, _ => []
  | _ + 1, [] => []
  | n + 1, l => ((List.range 16).map (fun i => natOf ((l.drop (8 * i)).take 8))) :: shaBlocks n (l.drop 128)

/-- SHA-384 of a message of whole bytes. -/
def sha384 (m : List Byte) : BitVec 384 :=
  let pad := m ++ [0x80#8] ++ List.replicate ((239 - m.length % 128) % 128) 0#8
    ++ (List.range 16).map (fun i => BitVec.ofNat 8 (8 * m.length / 2 ^ (8 * (15 - i))))
  BitVec.ofNat 384 ((((shaBlocks (pad.length / 128 + 1) pad).foldl shaBlock shaInit).take 6).foldl
    (fun n w => n * 2 ^ 64 + w) 0)

/-- The 48 bytes of a hash. -/
def hashBytes (h : BitVec 384) : List Byte := bytesMsb h.toNat 48

/-- Bytes filled with zeros, or cut, to `n`. -/
def fitBytes (n : Nat) (l : List Byte) : List Byte := (l ++ List.replicate n 0#8).take n

/-- A key block of HMAC-SHA-384 with each byte combined with `x`. -/
def hmacPad (key : List Byte) (x : Byte) : List Byte :=
  (fitBytes 128 (if 128 < key.length then hashBytes (sha384 key) else key)).map (fun b => b ^^^ x)

/-- HMAC-SHA-384. -/
def hmac384 (key msg : List Byte) : BitVec 384 := sha384 (hmacPad key 0x5C#8 ++ hashBytes (sha384 (hmacPad key 0x36#8 ++ msg)))

/-- The extraction of R270: HMAC-SHA-384 of the shared secret under the salt (NIST SP 800-56C). -/
def kdfExtract (salt z : List Byte) : BitVec 384 := hmac384 salt z

/-- The expansion of R270 to 256 bits: one block of the counter mode of NIST SP 800-108 (PRESUMED, log entry 54: a 32-bit counter, label,
a zero byte, context, and the length in bits as 32 bits). -/
def kdfExpand (prk : BitVec 384) (label context : List Byte) : BitVec 256 :=
  BitVec.ofNat 256 ((hmac384 (hashBytes prk) (bytesMsb 1 4 ++ label ++ [0#8] ++ context ++ bytesMsb 256 4)).toNat / 2 ^ 128)

/-- The labels of R270 and R277 in ASCII: DUNURA-SAK and DUNURA-ENROLL. -/
def labelSak : List Byte := [0x44, 0x55, 0x4E, 0x55, 0x52, 0x41, 0x2D, 0x53, 0x41, 0x4B]
def labelEnroll : List Byte := [0x44, 0x55, 0x4E, 0x55, 0x52, 0x41, 0x2D, 0x45, 0x4E, 0x52, 0x4F, 0x4C, 0x4C]

/-- A session key (R270): the direction, 1 from the device, the uplink, and the key index. -/
def sessKey (x : Sess) (dir u i : Nat) : BitVec 256 :=
  kdfExpand x.prk labelSak ([BitVec.ofNat 8 dir, BitVec.ofNat 8 u] ++ bytesMsb i 4)

end Sys2Proof.Machine
end

