-- ==== Sys2Proof/Machine/FaultTable.lean ====
section
/-! DEFINITION. The fault sources of every page: code and severity (the chapters' tables), class (R406), and whether the
condition is a state (R494). -/

namespace Sys2Proof.Machine

open Sys2Proof

/-- Code and severity of fault source `s` of page `p`; none when the page has no such source. Source 31 is WR_IGNORED of
every populated page (R41). -/
def faultOf (p s : Nat) : Option (Nat × Nat) :=
  if s = 31 then some (0xFE, 1)
  else if 0x100 ≤ p then
    (if p % 4 = 0 then
      (if s = 0 then some (0x20, 2) else if s = 1 then some (0x21, 1) else if s = 2 then some (0x22, 1)
       else if s = 16 then some (0x30, 1) else none)
     else if p % 4 = 1 then (if s = 0 then some (0x40, 1) else if s = 1 then some (0x41, 2) else none)
     else if p % 4 = 2 then
      (if s = 0 then some (0x50, 1) else if s = 1 then some (0x51, 2) else if s = 2 then some (0x52, 1)
       else if s = 3 then some (0x53, 2) else none)
     else
      (if s = 0 then some (0x70, 2) else if s = 1 then some (0x71, 2) else if s = 2 then some (0x72, 2)
       else if s = 3 then some (0x73, 2) else none))
  else if 0x90 ≤ p then
    (if s = 0 then some (0x64, 3) else if s = 1 then some (0x65, 2) else if s = 2 then some (0x66, 3)
     else if s = 8 then some (0x68, 2) else none)
  else if 0x80 ≤ p then (if s = 0 then some (0x60, 2) else if s = 1 then some (0x62, 2) else none)
  else if p = 2 then (if s = 0 then some (0x01, 1) else none)
  else if p = 3 then (if s = 0 then some (0x08, 3) else none)
  else if p = 8 then
    (if s = 0 then some (0x10, 1) else if s = 1 then some (0x11, 1) else if s = 2 then some (0x12, 3)
     else if s = 3 then some (0x13, 1) else if s = 4 then some (0x14, 1) else if s = 5 then some (0x15, 2) else none)
  else if p = 0x10 then (if s = 0 then some (0xB0, 1) else none)
  else if p = 0x11 ∨ p = 0x12 then (if s = 0 then some (0xB1, 1) else if s = 1 then some (0xB2, 1) else none)
  else if p = 0x20 then
    (if s = 0 then some (0x80, 3) else if s = 1 then some (0x81, 3) else if s = 2 then some (0x82, 3) else none)
  else if p = 0x30 then (if s = 0 then some (0xC0, 2) else none)
  else if p = 0x40 then
    (if s = 0 then some (0xD0, 1) else if s = 1 then some (0xD1, 3) else if s = 2 then some (0xD2, 1) else none)
  else if p = 0x50 then (if s = 0 then some (0xA0, 2) else if s = 1 then some (0xA1, 2) else none)
  else if p = 0x60 then
    (if s = 0 then some (0x90, 3) else if s = 1 then some (0x91, 2) else if s = 2 then some (0x92, 1)
     else if s = 3 then some (0x93, 1) else none)
  else if p = 0x70 then
    (if s = 0 then some (0xE0, 1) else if s = 1 then some (0xE1, 2) else if s = 2 then some (0xE2, 1)
     else if s = 3 then some (0xE3, 1) else none)
  else if p = 0x74 ∨ p = 0x78 then (if s = 0 then some (0xF0, 1) else none)
  else none

/-- The class of a fault: 0 operational, 1 integrity, 2 security (R406 and the chapters that name a class). WR_IGNORED is
operational in every page (R41; log entry 9). -/
def faultClass (p s : Nat) : Nat :=
  if s = 31 then 0
  else if 0x100 ≤ p then
    (if p % 4 = 0 then 0
     else if p % 4 = 1 then (if s = 1 then 1 else 0)
     else if p % 4 = 2 then (if s = 1 then 1 else if s = 3 then 2 else 0)
     else (if s = 3 then 2 else 0))
  else if 0x80 ≤ p then 1
  else if p = 3 then 1
  else if p = 8 then (if s = 2 ∨ s = 5 then 1 else 0)
  else if p = 0x20 ∨ p = 0x40 then 2
  else if p = 0x30 ∨ p = 0x50 then 1
  else if p = 0x60 then (if s = 2 then 0 else 1)
  else if p = 0x70 then (if s = 3 then 2 else 0)
  else 0

/-- The condition of the source is a state (R494); every other fault is an event. -/
def isState (p s : Nat) : Bool :=
  if 0x100 ≤ p then (p % 4 == 0 && s == 1) || (p % 4 == 3 && s < 3)
  else if 0x90 ≤ p then s == 0 || s == 2
  else if 0x80 ≤ p then s == 1
  else if p = 8 then s == 2 || s == 3 || s == 4 || s == 5
  else if p = 0x10 then s == 0
  else if p = 0x11 ∨ p = 0x12 then s == 0 || s == 1
  else if p = 0x20 then s == 0
  else if p = 0x60 then s == 0
  else if p = 0x74 ∨ p = 0x78 then s == 0
  else false

/-- The time in microseconds that a fault of severity `sev` gives the escalation timer (R405). -/
def ownTime (sev time : Nat) : Nat :=
  if sev = 1 then time else if sev = 2 then max 1 (time / 4) else max 1 (time / 16)

/-- Page `p` depends on the reset page `q`, whose shadow covers hamlet `cov` when it is a MILL page (R224, R412). -/
def dependsOn (q p : Nat) (cov : Option Nat) : Bool :=
  if 0x100 ≤ q then q % 4 == 0 && 0x100 ≤ p && pageChan p == pageChan q && p != q
  else if 0x90 ≤ q then 0x100 ≤ p && hamOf (pageChan p) == q - 0x90
  else if 0x80 ≤ q then
    (match cov with
     | some h => p == pHAM h || (0x100 ≤ p && hamOf (pageChan p) == h)
     | none => false)
  else if q = 2 then 0x100 ≤ p && p % 4 == 0
  else if q = 0x10 then p == 2 || (0x50 ≤ p && p ≤ 0x57)
  else if 0x20 ≤ q ∧ q ≤ 0x23 then
    (0x28 ≤ p && p ≤ 0x2B) || (0x100 ≤ p && p % 4 == 2) || p == 0x74 || p == 0x75 || p == 0x78 || p == 0x79
  else if q = 0x50 then 0x51 ≤ p && p ≤ 0x57
  else false

end Sys2Proof.Machine
end

