-- ==== Sys2Proof/Machine/Queue.lean ====
section
/-! DEFINITION. What the fault machinery and the chapters share: gate violations (R439), the curfew's abort and wake
causes (R363), timed-output ends (R329), and the transmit queues: pushing, ending and aborting an entry (R127 to
R149). Operations that can raise a fault take the raising operation `rz` (device, page, source) as an argument. -/

namespace Sys2Proof.Machine

open Sys2Proof

/-- Kind, number and privilege of an initiator as GATE_VINFO shows them (R425). -/
def whoKind : Who → Nat
  | .steward _ _ => 0 | .session _ => 1 | .mill _ => 2 | .bootRom => 3 | .vigil => 4 | .security => 5
def whoNum : Who → Nat
  | .steward n _ => n | .session s => s | .mill m => m | .bootRom => 0 | .vigil => 0 | .security => 0
def Priv.code : Priv → Nat
  | .u => 0 | .s => 1 | .k => 2
/-- The privilege at which an initiator acts (R24, R425). -/
def Dev.whoPriv (d : Dev) : Who → Priv
  | .steward _ p => p
  | .session s => (d.ses s).scope.priv
  | .mill _ => .s
  | .bootRom => .k
  | .vigil => .k
  | .security => .k

/-- The gate number of an address (GATE_VINFO.GATE). -/
def gateNo (a : Nat) : Nat :=
  if a < 0x1000000 then a / 0x200000
  else if a < 0x1040000 then 8
  else if 0x2000000 ≤ a ∧ a < 0x2200000 then 9
  else if 0x4000000 ≤ a ∧ a < 0x8000000 then 10
  else 15

/-- A gate violation of access type `ty` (0 R, 1 W, 2 X) with its reason: counted, recorded when none is, and
raised as GATE_HOSTVIOL or GATE_INITVIOL (R439). -/
def violate (rz : Dev → Nat → Nat → Dev) (d : Dev) (w : Who) (ty addr byte reason : Nat) : Dev :=
  let d := d.inc GATE_VCNT_COUNT
  let d := if d.get GATE_VINFO_VALID = 0 then
      ((d.setW GATE_VADDR addr).setW GATE_VBYTE byte).setW GATE_VINFO
        (2 ^ 31 + whoKind w * 2 ^ 28 + whoNum w * 2 ^ 24 + Priv.code (d.whoPriv w) * 2 ^ 22 + ty * 2 ^ 20
          + reason * 2 ^ 16 + gateNo byte * 2 ^ 12 + d.get GATE_GEN_GEN % 256)
    else d
  rz (d.ist 0x40 0) 0x40 (if whoKind w = 1 then 0 else 1)

/-- An abort or wake cause on channel `c` (R363, R365, R369). `cause` is the code of CURSTAT.CAUSE: 1 wake pattern,
2 need, 3 veto, 4 WAKE write, 5 EN = 0, and 0 for a crier, which wakes nothing. CALLED and ENTRY are aborted; from ASLEEP the
channel wakes, and STBYn falls. -/
def curfewCause (d : Dev) (c cause : Nat) : Dev :=
  if d.get (CHC_CURSTAT_STATE c) = 1 ∨ d.get (CHC_CURSTAT_STATE c) = 2 then
    ((((d.inc (CHC_CURCNT_ABORTS c)).ist (pCHC c) 10).set (CHC_CURSTAT_IDLE c) 0).set (CHC_CURSTAT_STATE c) 0).modChan c
      (fun x => { x with call := false, commit := false })
  else if d.get (CHC_CURSTAT_STATE c) = 3 ∧ cause ≠ 0 then
    ((d.set (CHC_CURSTAT_STATE c) 4).set (CHC_CURSTAT_CAUSE c) cause).modChan c
      (fun x => { x with wakeNs := d.nowNs, await := true, awaitNs := d.nowNs + 50000 })
  else d

/-- Timed outputs that are queued (SVC_TOSTAT.QUEUED). -/
def Dev.toCount (d : Dev) : Dev := d.set SVC_TOSTAT_QUEUED d.svc.outs.length

/-- Status `st` of the timed output with handle `h` on channel `ch` of session `s`: SVC_TORES and a record of KIND 0x04
(R326, R329). -/
def toStatus (d : Dev) (s ch h st sentTick : Nat) : Dev :=
  let d := d.setW (SVC_TORES s) (2 ^ 31 + st * 2 ^ 24 + h)
  d.post s (d.evRec 4 ch (st * 2 ^ 28 + h) (sentTick % 2 ^ 32))

/-- A timed output ends with status `st`: the status, the counters of R337, PG_IST; its handle and its descriptor are
free (R329). -/
def toEnd (d : Dev) (h st sentTick : Nat) : Dev :=
  match d.svc.outs.find? (fun o => o.handle == h) with
  | none => d
  | some o =>
    let d := toStatus d o.sess o.ch h st sentTick
    let d := if st = 1 ∨ st = 3 then d.inc SVC_TOSENT_COUNT
      else if st = 4 ∨ st = 9 then d.inc SVC_TOMISS_COUNT
      else if st = 5 then d.inc SVC_TOCANC_COUNT else d
    let d := d.iff (st = 4) (fun d => d.ist 0x53 1)
    let d := { d.ist 0x53 2 with svc := { d.svc with outs := d.svc.outs.filter (fun o => o.handle != h) } }
    d.toCount

/-- Word 3 of a transmit entry (R127): ST, EC, ATT, PROMS, TICK. -/
def entryW3 (d : Dev) (e : TxEntry) : Nat :=
  e.st * 2 ^ 28 + e.ec * 2 ^ 25 + min e.att 15 * 2 ^ 20 + min e.proms 15 * 2 ^ 16 + d.tick16

/-- The entry changed in the queue and its word 3 written, as at a status change. -/
def putEntry (d : Dev) (c : Nat) (e : TxEntry) : Dev :=
  (d.modChan c (fun x => { x with tx := x.tx.map (fun f => if f.idx = e.idx then e else f) })).setDesc e.idx 3
    (entryW3 d e)

/-- The entry for descriptor `i` of channel `c`. -/
def Dev.entry (d : Dev) (c i : Nat) : Option TxEntry := (d.chan c).tx.find? (fun e => e.idx == i)

/-- The counts of CHT_QSTAT follow the queue. -/
def qstat (d : Dev) (c : Nat) : Dev :=
  let n (q : Nat) := ((d.chan c).tx.filter (fun e => e.qt == q)).length
  ((d.set (CHT_QSTAT_PRI c) (min (n 1) 16383)).set (CHT_QSTAT_SCHED c) (n 0)).set (CHT_QSTAT_ONESHOT c) (n 2)

/-- An entry leaves the queue with status `st`; EC returns to C (R146); the counters and PG_IST bits of its end. -/
def endEntry (d : Dev) (c : Nat) (e : TxEntry) (st : Nat) : Dev :=
  let d := d.setDesc e.idx 3 (entryW3 d { e with st := st, ec := e.c })
  let d := qstat (d.modChan c (fun x => { x with tx := x.tx.filter (fun f => f.idx != e.idx) })) c
  if st = 3 then d.iff e.ntf (fun d => d.ist (pCHT c) 0)
  else if st = 4 then (d.ist (pCHT c) 1).inc (CHT_ENDCNT_FAILED c)
  else if st = 5 then (d.ist (pCHT c) 2).inc (CHT_ENDCNT_EXPIRED c)
  else if st = 6 then d.inc (CHT_ENDCNT_ABORTED c)
  else d

/-- An entry aborted (R148): at once, or marked while its frame is on the wire. -/
def abortEntry (d : Dev) (c : Nat) (e : TxEntry) : Dev :=
  if e.st = 2 then
    d.modChan c (fun x => { x with tx := x.tx.map (fun f => if f.idx = e.idx then { f with aborting := true } else f) })
  else endEntry d c e 6

/-- Every queued entry of channel `c` aborted (R148 with ALL = 1). -/
def abortAllOf (d : Dev) (c : Nat) : Dev := d.forEach (d.chan c).tx (fun d e => abortEntry d c e)

/-- The index lies in the channel's transmit range, or for the services in its service range (R129, R331). -/
def inRange (d : Dev) (c i : Nat) (svc : Bool) : Bool :=
  if svc then
    d.get (SVC_TORANGE_BASE c) ≤ i && i < d.get (SVC_TORANGE_BASE c) + d.get (SVC_TORANGE_CNT c)
  else d.get (CHT_TXRANGE_BASE c) ≤ i && i < d.get (CHT_TXRANGE_BASE c) + d.get (CHT_TXRANGE_CNT c)

/-- The fields of words 0 to 2 fail a check of R129 or R231 (but for those on INDEX and on the number of queued entries). -/
def descBad (d : Dev) (c w0 w1 w2 qt cls : Nat) : Bool :=
  let ft := bitsOf w0 27 25
  let len := bitsOf w1 25 16
  qt == 3 || ft == 0 || ft == 2 || ft == 4 || ft == 7 || cls == 0 || 512 < len
    || 98304 < bitsOf w2 16 0 + (len + 63) / 64
    || (bitOf w0 28 && d.get (CHC_LINE_SLOWOK c) == 0)
    || (ft == 3 && !bitOf w0 29)
    || (qt == 0 && d.get (CHC_WIN_SCHED_END c) ≤ bitsOf w1 15 0)
    || (d.cert && !bitOf w0 29 && (ft == 1 || ft == 6) && bitOf (d.get (CHX_AUTHCFG_PROT c)) ft)

/-- The session's scope admits the frame: segment, MID, and no KEY frame (R130). -/
def scopeAdmits (sc : Scope) (c w0 : Nat) : Bool :=
  scopeSeg sc c && scopeMid sc (bitsOf w0 21 0) && bitsOf w0 27 25 != 5

/-- The address of CHT_QPUSH of a channel (R45, R129). -/
def qpushAddr (c : Nat) : Nat := 0x2000000 + pCHT c * 0x1000 + 0x4C

/-- A push or a copy refused by scope (R130, R134): PG_IST.SCOPE, the gate violation at CHT_QPUSH of the access that starts at
`start` (R432), the event of R493 to the pushing session and to every session whose scope names the segment. -/
def scopeRefused (rz : Dev → Nat → Nat → Dev) (d : Dev) (c i s start : Nat) : Dev :=
  let d := d.ist (pCHT c) 5
  let d := violate rz d (.session s) 1 start (qpushAddr c) 7
  let r := d.evRec 6 (pCHT c) (7 * 2 ^ 28 + s * 2 ^ 24 + i) (d.desc i 0)
  { d with sess := (d.sess.zipIdx).map (fun xn =>
      if xn.1.st = .opened ∧ (xn.2 = s ∨ scopeSeg xn.1.scope c = true) then { xn.1 with queue := xn.1.queue ++ [r] }
      else xn.1) }

/-- Microseconds since the bell instant of the tick in force. -/
def Dev.usInTick (d : Dev) : Nat := (d.nowNs - d.bell.inst) / 1000

/-- The tick whose arbitrated window a one-shot pushed now has (R140), by the nominal window of the tick in force, also while the
segment sleeps or wakes (DESIGN CHOICE: log entry 40). Before the first bell it is that of the first tick, which the first commit
point fills in. -/
def oneShotWindow (d : Dev) (c : Nat) : Nat :=
  if d.bell.started = true ∧ d.usInTick < d.get (CHC_WIN_ARB_END c) then d.tick else d.tick + 1

/-- What becomes of a push (R129 to R133, R420): refused while no push is taken (R133, R420), without effect on a queued
descriptor (R131), refused for an index outside the range or a malformed descriptor (R129), refused by scope (R130), queued. -/
inductive PushVerdict where
  | held | standing | outside | malformed | scope | queued
  deriving DecidableEq, Repr

/-- The checks of a push in their order (R129 to R133, R420, R421). -/
def pushVerdict (d : Dev) (c i : Nat) (src : PushSrc) : PushVerdict :=
  let svc := src.handle.isSome
  let w0 := d.desc i 0
  let qt := bitsOf w0 31 30
  let queued (q : Nat) : Nat := ((d.chan c).tx.filter (fun e => e.qt == q && e.idx != i)).length
  if (d.get DEV_SAFE_ACTIVE = 1 ∧ src.safe = false ∧ src.key = false) ∨ d.isHead = false then .held
  else if (d.chan c).tx.any (fun e => e.idx == i && (e.st == 1 || e.st == 2)) = true then .standing
  else if inRange d c i svc = false then .outside
  else if descBad d c w0 (d.desc i 1) (d.desc i 2) qt (bitsOf w0 24 22) = true ∨ (qt = 0 ∧ 255 ≤ queued 0)
      ∨ (qt = 2 ∧ 255 ≤ queued 2) ∨ (src.safe = true ∧ ¬ (qt = 1 ∧ bitsOf w0 27 25 = 3 ∧ bitOf w0 29 = true)) then .malformed
  else
    match src.owner with
    | some (_, sc) => if scopeAdmits sc c w0 = false then .scope else .queued
    | none => .queued

/-- Word 3 of descriptor `i` at a push that gives it status `st` (R131). -/
def pushW3 (d : Dev) (i st : Nat) : Nat := st * 2 ^ 28 + bitsOf (d.desc i 0) 24 22 * 2 ^ 25 + d.tick16

/-- A push refused by scope, in an access that starts at `start` (R130). -/
def pushScoped (rz : Dev → Nat → Nat → Dev) (d : Dev) (c i s start : Nat) : Dev :=
  scopeRefused rz ((d.setDesc i 3 (pushW3 d i 8)).inc (CHT_ENDCNT_SCOPE c)) c i s start

/-- Push of descriptor `i` of channel `c` (R129 to R133, R420, R421). -/
def pushOp (rz : Dev → Nat → Nat → Dev) (d : Dev) (c i : Nat) (src : PushSrc) : Dev :=
  match pushVerdict d c i src with
  | .held => if inRange d c i src.handle.isSome = true then d.setDesc i 3 (pushW3 d i 9) else d
  | .standing => d
  | .outside => rz (d.ist (pCHT c) 6) (pCHT c) 0
  | .malformed => rz ((d.setDesc i 3 (pushW3 d i 9)).ist (pCHT c) 6) (pCHT c) 0
  | .scope => pushScoped rz d c i ((src.owner.map (fun o => o.1)).getD 0) (qpushAddr c)
  | .queued =>
    let w0 := d.desc i 0
    enqueue d c i w0 (d.desc i 1) (bitsOf w0 31 30) (bitsOf w0 24 22) (pushW3 d i 1) src
where
  enqueue (d : Dev) (c i w0 w1 qt cls w3 : Nat) (src : PushSrc) : Dev :=
    let e : TxEntry :=
      { idx := i, qt := qt, c := cls, ec := cls, mid := bitsOf w0 21 0, slot := bitsOf w1 15 0,
        retry := bitsOf w1 31 28, ntf := bitOf w1 27, w := 0, att := 0, proms := 0, st := 1, copy := none, pushed := d.aon.cycles, since := d.aon.cycles, due := 0,
        owner := src.owner,
        window := if qt = 0 then (if d.usInTick < d.get (CHC_WIN_SCHED_END c) then d.tick else d.tick + 1)
          else oneShotWindow d c,
        handle := src.handle, safe := src.safe, keyFrame := src.key, aborting := false }
    let d := d.modChan c (fun x => { x with tx := x.tx.filter (fun f => f.idx != i) ++ [e] })
    curfewCause (qstat (d.setDesc i 3 w3) c) c 2

/-- The safe-output descriptors of channel `c`, pushed in the safe state (R420 step 3, R421). -/
def safePush (rz : Dev → Nat → Nat → Dev) (d : Dev) (c : Nat) : Dev :=
  d.forEach (List.range (d.get (CHT_SAFE_CNT c))) (fun d k =>
    pushOp rz d c (d.get (CHT_SAFE_BASE c) + k) ⟨none, none, true, false⟩)

end Sys2Proof.Machine
end

