-- ==== Sys2Proof/Machine/Faults.lean ====
section
/-! DEFINITION. The fault machinery of chapter 16: recording, the escalation timer, reactions, the quiet period, reset
shadows, latch-off, the pins and HEALTH_S, the safe state; and the migration and isolation of chapter 08 that reactions
start. -/

namespace Sys2Proof.Machine

open Sys2Proof

/-- Core cycles in a microsecond (R15). -/
def cyc (us : Nat) : Nat := us * 500

/-- A record of KIND 0x05 for page `p` (R416): to every S session, and to the U sessions whose PAGES names the page. -/
def fltEvent (d : Dev) (p action : Nat) : Dev :=
  let d := d.postAll (fun x => x.scope.priv == .s || scopePage x.scope p)
    (d.evRec 5 p (d.getW (PG_FLT p)) (action * 2 ^ 28 + d.get (PG_FLTX_COUNT p)))
  if action = 0 then d
  else ((d.set DEV_ESCLAST_ACTION action).set DEV_ESCLAST_PAGE p).set DEV_ESCLAST_TICK d.tick16

/-- A pulse of DEV_FPCTL.PULSE ms on each FAULT_P pin whose map holds; it restarts one that runs (R417). -/
def pulse (d : Dev) (b : Nat → Bool) : Dev :=
  { d with pins := { d.pins with
      pulse := d.pins.pulse.zipIdx.map (fun x => x.1 || b x.2),
      ends := d.pins.ends.zipIdx.map (fun x =>
        if b x.2 then d.aon.cycles + 1000 * cyc (max (d.get DEV_FPCTL_PULSE) 1) else x.1) } }

/-- The map of pin `k` names the fault (R417). -/
def pinFault (d : Dev) (cls sev : Nat) (sec : Bool) (k : Nat) : Bool :=
  bitOf (d.get (DEV_FPMAP_CLS k)) cls && d.get (DEV_FPMAP_MINSEV k) ≤ sev && (!sec || d.has (DEV_FPMAP_SECOND k))

/-- The map of pin `k` names reactions of level `l`. -/
def pinLevel (d : Dev) (l k : Nat) : Bool := bitOf (d.get (DEV_FPMAP_LVL k)) (l - 1)

/-- A live condition of class `cls` in page `p`. -/
def liveClass (x : PageX) (p cls : Nat) : Bool := x.live.any (fun s => faultClass p s == cls)

/-- The uncleared marks of R418 after an acknowledgement or the end of a condition. -/
def health (x : PageX) (p : Nat) : PageX :=
  { x with unclearedS := x.unclearedS && (!x.ackS || liveClass x p 2),
           unclearedI := x.unclearedI && (!x.ackI || liveClass x p 1) }

/-- Recovery at the end of a quiet period, and latch-off of the page, share these steps of R411 and R413. A latched-off
channel page isolates its channel; a latched-off MILL page is FAILED. -/
def latchOff (d : Dev) (p : Nat) : Dev :=
  let d := d.modPage p (fun x => { x with latched := true, timer := none, quiet := none, quietDue := 0 })
  let d := fltEvent ((d.ist 1 1).inc DEV_ESCCNT_LATCH) p 5
  if 0x100 ≤ p then d.modChan (pageChan p) (fun x => { x with isolated := true })
  else if 0x80 ≤ p ∧ p < 0x90 then d.set (MILL_STAT_STATE (p - 0x80)) 5
  else d

/-- A quiet period ends without a recurrence (R411). The page of a mill that tests itself after a fault counts its
recovery with the mill's return as the spare (R220; log entry 22). -/
def recover (d : Dev) (p : Nat) : Dev :=
  let d := d.modPage p (fun x => { x with level := 0, quiet := none, quietDue := 0 })
  if 0x80 ≤ p ∧ p < 0x90 ∧ (d.mill (p - 0x80)).why = 2 ∧ d.get (MILL_STAT_STATE (p - 0x80)) = 4 then d
  else
  let d := fltEvent (d.inc (PG_RCNT_COUNT p)) p 4
  if d.get (PG_QUIET_RLIM p) < d.get (PG_RCNT_COUNT p) then latchOff d p else d

/-- The quiet period of R410 starts; one of no ticks has ended. -/
def startQuiet (d : Dev) (p : Nat) : Dev :=
  if d.get (PG_QUIET_QUIET p) = 0 then recover (d.modPage p (fun x => { x with quietDue := 0 })) p
  else d.modPage p (fun x => { x with quietDue := 0, quiet := some (d.tick + d.get (PG_QUIET_QUIET p)) })

/-- Channel `c` waits under R105 after an event, and after the silence of `ns` that R117 or R119 puts before it. -/
def waitAfter (d : Dev) (c ns : Nat) : Dev := d.modChan c (fun x => { x with await := true, awaitNs := d.nowNs + ns })

/-- PG_CTL.EN of a page rises. On a channel HBn starts and STBYn falls (R117, R119), and R105 applies. -/
def enablePage (d : Dev) (p : Nat) : Dev :=
  let d := d.set (PG_CTL_EN p) 1
  if 0x100 ≤ p ∧ p % 4 = 0 then waitAfter d (pageChan p) 70000 else d

/-- The end of a reset shadow (R410, R412). After a soft reset of a CHC page HBn resumes and STBYn falls: R119 applies. -/
def shadowDone (d : Dev) (p : Nat) : Dev :=
  let due := (d.page p).quietDue
  let d := if 0x100 ≤ p ∧ p % 4 = 0 ∧ (d.page p).resetting = true then waitAfter d (pageChan p) 70000 else d
  let d := d.modPage p (fun x => { x with shadow := none, resetting := false, cover := none })
  if due = 1 then startQuiet d p else d

/-- A shadow of PG_ESC.SHADOW microseconds opens (R412, R224); one of no length has ended. A shadow that is open keeps
the cycle at which it opened first and what it covers, and lasts its full length from now. -/
def openShadow (d : Dev) (p : Nat) (cover : Option Nat) (resetting : Bool) : Dev :=
  let d := d.modPage p (fun x =>
    { x with shadow := some (match x.shadow with | some t => t | none => d.aon.cycles), shadowLast := d.aon.cycles,
             cover := (match cover with | some h => some h | none => x.cover), resetting := x.resetting || resetting })
  if d.get (PG_ESC_SHADOW p) = 0 then shadowDone d p else d

/-- Bus-off ends: counters, state, RCNT, PG_IST.RECOVERED, and R105 applies before the channel sends again (R194). The
conditions of BUS_OFF and BO_LIMIT end with it. -/
def clearLive (d : Dev) (p s : Nat) : Dev :=
  if (d.page p).live.contains s then
    let d := if (d.page p).firstSrc = some s ∧ d.get (PG_FLT_VALID p) = 1 then d.set (PG_FLT_TRANSIENT p) 1 else d
    d.modPage p (fun x => health { x with live := x.live.filter (· != s), held := x.held.filter (· != s),
                                          firstSrc := if x.firstSrc = some s then none else x.firstSrc } p)
  else d

def busOffEnd (d : Dev) (c : Nat) : Dev :=
  let d := (((d.set (CHS_TEC_TEC c) 0).set (CHS_REC_REC c) 0).set (CHS_TEC_STATE c) 0).set (CHS_TEC_WARN c) 0
  let d := (d.inc (CHS_BOSTAT_RCNT c)).ist (pCHS c) 3
  let d := (d.set (CHS_BOSTAT_SEQ c) 0).modChan c (fun x => { x with await := true, awaitNs := d.nowNs, noAuto := false })
  clearLive (clearLive d (pCHS c) 0) (pCHS c) 2

/-- What a block soft reset clears beside opening its shadow: the counters that the chapters name. UPL_RXCNT and UPL_TXCNT, which
the table of R60 does not name, stay (DESIGN CHOICE: log entry 10). The random source starts its tests anew, and delivers no output before
its samples pass (R282; DEDUCED: log entry 55). -/
def clearBlock (d : Dev) (p : Nat) : Dev :=
  if 0x100 ≤ p then
    let c := pageChan p
    if p % 4 = 0 then
      (d.clearW [CHC_BELLCNT c, CHC_CURCNT c, CHC_SLPCNT c, CHC_WAKECNT c]).set (CHC_BELLLAG_MAX c) 0
    else if p % 4 = 1 then d.clearW [CHT_SENTCNT c, CHT_ERRCNT c, CHT_LOSTCNT c, CHT_MISC c, CHT_ENDCNT c]
    else if p % 4 = 2 then
      d.clearW ([CHX_RXCNT c, CHX_MATCH c, CHX_MISSCNT c, CHX_OVFCNT c, CHX_REFCNT c, CHX_LOSSCNT c, CHX_AUTHCNT c,
        CHX_AUTHSTAT c, CHX_EPCNT c] ++ (List.range 64).map (CHX_MHIT c))
    else
      let d := (d.clearW [CHS_FCNT c, CHS_ECNT0 c, CHS_ECNT1 c, CHS_ECNT2 c, CHS_ANOM c, CHS_STUCK c]).zero
        (CHS_BOSTAT_ENTRIES c :: (List.range 32).map (CHS_NODE_FENCES c))
      if d.get (CHS_TEC_STATE c) = 2 then busOffEnd d c
      else d.zero [CHS_TEC_TEC c, CHS_REC_REC c, CHS_TEC_STATE c, CHS_TEC_WARN c]
  else if 0x90 ≤ p then d.set (HAM_PFSTAT_LOST (p - 0x90)) 0
  else if 0x80 ≤ p then d.set (MILL_USE_PEAK (p - 0x80)) 0
  else if p = 0x74 ∨ p = 0x78 then
    (d.clearW [UPL_DISC0 ((p - 0x74) / 4), UPL_DISC1 ((p - 0x74) / 4), UPL_DISC2 ((p - 0x74) / 4)]).set
      (UPL_LINK_DOWNS ((p - 0x74) / 4)) 0
  else if p = 0x50 then
    (d.clearW [SVC_PIWR, SVC_PIPUB, SVC_PIMARK, SVC_BADMAP, SVC_SOEWR, SVC_SOELOST, SVC_EVLOST, SVC_TOACC, SVC_TOSENT,
      SVC_TOLATE, SVC_TOMISS, SVC_TOCANC]).set SVC_LOAD_PEAK 0
  else if p = 0x10 then (d.clearW [TIME_SWCNT]).set TIME_HOLDSTAT_ENTRIES 0
  else if p = 0x11 ∨ p = 0x12 then d.clearW [TIME_DCNT (p - 0x11)]
  else if p = 0x30 then d.clearW [INTC_CNT, INTC_ERRCNT]
  else if p = 0x40 then d.clearW [GATE_VCNT, GATE_VADDR, GATE_VBYTE, GATE_VINFO]
  else if p = 0x70 then d.clearW [TWIN_CNT, TWIN_LNKCNT]
  else if p = 0x08 then d.clearW [PWR_CNT]
  else if p = 0x03 then (d.set DEV_VIGSTAT_ABORTS 0).set DEV_VIGSTAT_ENTRIES 0
  else if p = 0x20 then d.set SEC_RNG_OK 0
  else d

/-- Block soft reset of page `p`: the shadow opens, and dependents are covered by it (R409, R412, R224). -/
def softReset (d : Dev) (p : Nat) : Dev :=
  let cov := if 0x80 ≤ p ∧ p < 0x90 then
      (if d.get (MILL_STAT_HAM (p - 0x80)) = 0xF then none else some (d.get (MILL_STAT_HAM (p - 0x80))))
    else none
  openShadow (clearBlock d p) p cov true

/-- The part gives up headship: HEADSHIP is released, HEAD = 0 (R441, R450, R453), with which the need of R360 arises on every channel
(R363). -/
def releaseHead (d : Dev) : Dev :=
  let t := d.set TWIN_STAT_ROLE (if d.has TWIN_STAT_LINK then 2 else 0)
  if d.isHead then t.forEach t.chanList (fun d c => curfewCause d c 2) else t

/-- The pages whose quiet period waits for the hamlet's migration or isolation start it. -/
def quietAfter (d : Dev) : List Nat → Dev
  | [] => d
  | p :: l => quietAfter (if (d.page p).quietDue = 2 then startQuiet d p else d) l

/-- Isolation of hamlet `h` (R222). `src` is the HAM page's fault source, none when a spare exists. -/
def isolateHam (rz : Dev → Nat → Nat → Dev) (d : Dev) (h : Nat) (src : Option Nat) : Dev :=
  let m := d.get (HAM_MILL_MILL h)
  let d := d.setHam h { (d.ham h) with mig := none, isolated := true, ctxError := (d.ham h).ctxError || src == some 2 }
  let d := (d.set (HAM_MILL_MILL h) 0xF).ist (pHAM h) 3
  let d := if m = 0xF then d else d.set (MILL_STAT_HAM m) 0xF
  let d := d.iff (d.isHead && d.hamList.all (fun h => (d.ham h).isolated)) releaseHead
  let d := quietAfter d (pHAM h :: d.millList.map pMILL)
  match src with
  | some s => rz d (pHAM h) s
  | none => d

/-- The spare: a mill with STATE = SPARE. -/
def spareOf (d : Dev) : Option Nat := d.millList.find? (fun m => d.get (MILL_STAT_STATE m) == 2)

/-- A migration of hamlet `h` away from its mill starts (R214, R215, R224); with no spare the hamlet is isolated. A mill
that a fault or a reaction replaces tests itself (R220); one whose self-test failed is FAILED already. -/
def startMigration (rz : Dev → Nat → Nat → Dev) (d : Dev) (h cause : Nat) : Dev :=
  let old := d.get (HAM_MILL_MILL h)
  let d := if old = 0xF then d else
    let d := (if d.get (MILL_STAT_STATE old) = 5 then d else d.set (MILL_STAT_STATE old) 4).set (MILL_STAT_HAM old) 0xF
    d.setMill old ⟨if cause = 1 ∨ cause = 2 then 2 else 3, false, d.tick + d.get (PG_QUIET_QUIET (pMILL old)), false⟩
  match spareOf d with
  | none => isolateHam rz d h (some 0)
  | some sp =>
    let d := ((d.set (MILL_STAT_STATE sp) 3).setMill sp { d.mill sp with asked := false }).ist (pHAM h) 0
    let d := d.setHam h { (d.ham h) with mig := some ⟨sp, if old = 0xF then none else some old, cause⟩, isolated := false }
    if old = 0xF then d else openShadow d (pMILL old) (some h) false

/-- The safe state is entered (R420 steps 1 to 3): every queued entry is aborted, and the safe entries are pushed. -/
def enterSafe (rz : Dev → Nat → Nat → Dev) (d : Dev) (p : Nat) : Dev :=
  if d.get DEV_SAFE_ACTIVE = 1 then d
  else
    let d := d.setW DEV_SAFE (2 ^ 31 + p * 2 ^ 16 + d.tick16)
    let d := (d.ist 1 2).inc DEV_ESCCNT_L3
    let d := d.forEach d.chanList abortAllOf
    d.forEach d.chanList (safePush rz)

/-- The reaction of level `l` in page `p` (R409, R416, R417). `cause` is HAM_MIGLAST.CAUSE of a migration. -/
def react (rz : Dev → Nat → Nat → Dev) (d : Dev) (p l cause : Nat) : Dev :=
  let d := d.modPage p (fun x => { x with level := l, timer := none, quiet := none })
  let d := fltEvent (d.ist 1 0) p l
  let d := pulse d (pinLevel d l)
  let d := { d with cfg := { d.cfg with escSeen := d.cfg.escSeen || 2 ≤ l } }
  if l = 1 then softReset ((d.inc DEV_ESCCNT_L1).modPage p (fun x => { x with quietDue := 1 })) p
  else if l = 2 then
    let d := d.inc DEV_ESCCNT_L2
    if 0x100 ≤ p then startQuiet (d.modChan (pageChan p) (fun x => { x with isolated := true })) p
    else if 0x80 ≤ p then
      let h := if 0x90 ≤ p then p - 0x90 else d.get (MILL_STAT_HAM (p - 0x80))
      if h = 0xF ∨ (d.ham h).mig.isSome = true ∨ (d.ham h).isolated = true then startQuiet d p
      else startMigration rz (d.modPage p (fun x => { x with quietDue := 2 })) h cause
    else latchOff d p
  else enterSafe rz d p

/-- A hamlet whose mill has latched off while it serves is isolated: R214 gives no migration (DEDUCED: log entry 41). -/
def stranded (rz : Dev → Nat → Nat → Dev) (d : Dev) (p : Nat) : Dev :=
  if 0x80 ≤ p ∧ p < 0x90 ∧ d.get (MILL_STAT_STATE (p - 0x80)) = 5 ∧ d.get (MILL_STAT_HAM (p - 0x80)) ≠ 0xF
      ∧ (d.ham (d.get (MILL_STAT_HAM (p - 0x80)))).mig.isNone = true then
    isolateHam rz d (d.get (MILL_STAT_HAM (p - 0x80))) (if spareOf d = none then some 0 else none)
  else d

/-- The page whose open shadow makes a fault of page `p` SECONDARY: the one opened first, then the lower (R412, R424). -/
def shadowCause (d : Dev) (p : Nat) : Option Nat :=
  let open' := d.pages.filter (fun e => e.2.shadow.isSome && dependsOn e.1 p e.2.cover)
  let earlier (a b : Nat × PageX) : Nat × PageX :=
    if (b.2.shadow.getD 0) < (a.2.shadow.getD 0) then b else a
  match open' with
  | [] => none
  | e :: l => some ((l.foldl earlier e).1)

/-- Detection of fault source `s` of page `p`: the record (R402, R403), SECONDARY (R412), the uncleared marks (R418), the
pins (R417). Answers the severity and whether the fault is SECONDARY. -/
def recordFault (d : Dev) (p s code sev : Nat) (forced : Bool) : Dev × Bool :=
  let st := isState p s && !forced
  let cause := shadowCause d p
  let cls := faultClass p s
  let first := d.get (PG_FLT_VALID p) = 0
  let d := if first then
      (d.setW (PG_FLT p) (2 ^ 31 + b2n (!st) * 2 ^ 30 + b2n cause.isSome * 2 ^ 29 + sev * 2 ^ 24
        + (cause.getD 0) * 2 ^ 12 + code)).ist p 31
    else (d.inc (PG_FLTX_COUNT p)).set (PG_FLTX_MAXSEV p) (max (d.get (PG_FLTX_MAXSEV p)) sev)
  let d := d.modPage p (fun x =>
    { x with live := if st then insertNat s x.live else x.live,
             firstSrc := if first then (if st then some s else none) else x.firstSrc,
             unclearedS := x.unclearedS || (cls == 2 && 1 ≤ sev), ackS := x.ackS && cls != 2,
             unclearedI := x.unclearedI || (cls == 1 && 1 ≤ sev), ackI := x.ackI && cls != 1 })
  let d := pulse d (pinFault d cls sev cause.isSome)
  (if first then fltEvent d p 0 else d, cause.isSome)

/-- The escalation timer after a fault (R407). `before` is the highest severity recorded before it. -/
def setTimer (d : Dev) (p s sev before : Nat) : Dev :=
  let own := d.aon.cycles + cyc (ownTime sev (d.get (PG_ESC_TIME p)))
  d.modPage p (fun x =>
    match x.timer with
    | none => { x with timer := some own, timerSrc := s }
    | some t =>
      if s = x.timerSrc then x
      else if before < sev then { x with timer := some (min t own), timerSrc := s }
      else x)

/-- Fault source `s` of page `p` is detected: recorded, and then an immediate reaction, a recurrence, or the timer
(R402 to R410, R413). `imm` is an immediate reaction's level and migration cause. -/
def raiseWith (rz : Dev → Nat → Nat → Dev) (d : Dev) (p s : Nat) (forced : Bool) (imm : Option (Nat × Nat)) : Dev :=
  match faultOf p s with
  | none => d
  | some (code, sev) =>
    if populated d.part p = false ∨ (isState p s = true ∧ forced = false ∧ (d.page p).live.contains s = true) then d
    else
      let before := if d.get (PG_FLT_VALID p) = 1 then max (d.get (PG_FLT_SEV p)) (d.get (PG_FLTX_MAXSEV p)) else 0
      let (d, sec) := recordFault d p s code sev forced
      let x := d.page p
      let lim := d.get (PG_ESC_LIMIT p)
      let fixed := p = 8 ∧ s = 2
      if fixed then react rz d p 3 0
      else if x.latched = true ∨ lim = 0 then d
      else
        match imm.filter (fun lc => lc.1 ≤ lim) with
        | some (l, cause) => react rz d p l cause
        | none =>
          if sec = true then d
          else if x.quiet.isSome = true ∨ (x.shadow.isSome = true ∧ x.resetting = true) then
            (if x.level + 1 ≤ lim then react rz d p (x.level + 1) 4 else stranded rz (latchOff d p) p)
          else setTimer d p s sev before

/-- Detection with a bound on how deep a reaction's own faults lead to reactions in turn; at the bound a fault is only
recorded. -/
def raiseN : Nat → Dev → Nat → Nat → Dev
  | 0, d, p, s =>
    match faultOf p s with
    | none => d
    | some (code, sev) => (recordFault d p s code sev false).1
  | n + 1, d, p, s => raiseWith (raiseN n) d p s false none

/-- Fault source `s` of page `p` is detected. -/
def raise (d : Dev) (p s : Nat) : Dev := raiseWith (raiseN 4) d p s false none

/-- The same with an immediate reaction of level `l` (R409). -/
def raiseImm (d : Dev) (p s l cause : Nat) : Dev := raiseWith (raiseN 4) d p s false (some (l, cause))

/-- The immediate reaction that the chapters give a fault of a MILL page while its mill serves (R214): level and
migration cause. -/
def millImm (d : Dev) (p s : Nat) : Option (Nat × Nat) :=
  if 0x80 ≤ p ∧ p < 0x90 ∧ s < 2 ∧ d.get (MILL_STAT_STATE (p - 0x80)) = 1 then some (2, s + 1) else none

/-- A forced fault (R415). -/
def raiseForced (d : Dev) (p s : Nat) : Dev :=
  match faultOf p s with
  | none => d
  | some _ => raiseWith (raiseN 4) (d.inc DEV_FRCCNT_COUNT) p s true (millImm d p s)

/-- The condition of a state source ends (R404, R418). -/
def condEnd (d : Dev) (p s : Nat) : Dev := clearLive d p s

/-- PG_FACK.ACK (R404, R408, R418); in page 0x040 the violation record clears with it (R439). -/
def ackPage (d : Dev) (p : Nat) : Dev :=
  let d := (d.setW (PG_FLT p) 0).setW (PG_FLTX p) 0
  let d := d.modPage p (fun x => health { x with timer := none, held := x.live, firstSrc := none, ackS := true, ackI := true } p)
  if p = 0x40 then d.clearW [GATE_VADDR, GATE_VBYTE, GATE_VINFO] else d

/-- A gate violation with the full fault machinery. -/
def violation (d : Dev) (w : Who) (ty addr byte reason : Nat) : Dev := violate raise d w ty addr byte reason

end Sys2Proof.Machine
end

