-- ==== Sys2Proof/Machine/Confine.lean ====
section
/-! DEFINITION. Error confinement (07): TEC, REC and the channel state, bus-off, node scores and fencing. -/

namespace Sys2Proof.Machine

open Sys2Proof

/-- The channel is BUSOFF. -/
def busOff (d : Dev) (c : Nat) : Bool := d.get (CHS_TEC_STATE c) == 2

/-- TEC, REC and scores of the channel may change (R190). -/
def counting (d : Dev) (c : Nat) : Bool := d.isHead && !busOff d c

/-- Bus-off entry (R191, R195): the queues are held, and the bus-off counts as need of the segment (R360). -/
def busOffEnter (d : Dev) (c : Nat) : Dev :=
  let d := ((d.set (CHS_TEC_STATE c) 2).inc (CHS_BOSTAT_ENTRIES c)).ist (pCHS c) 2
  let d := raise (d.set (CHS_BOSTAT_SEQ c) 0) (pCHS c) 0
  let d := if d.has (CHS_BOCFG_BOLIM c) && d.get (CHS_BOCFG_BOLIM c) ≤ d.get (CHS_BOSTAT_RCNT c) then
      raise (d.modChan c (fun x => { x with noAuto := true })) (pCHS c) 2
    else d.modChan c (fun x => { x with noAuto := false })
  curfewCause d c 2

/-- The channel state for counter values (R186). -/
def confState (tec rc : Nat) : Nat := if 256 ≤ tec then 2 else if 128 ≤ tec ∨ 128 ≤ rc then 1 else 0

/-- TEC and REC take new values and the state is evaluated afresh (R186, R187, R191). -/
def setCounters (d : Dev) (c tec rc : Nat) : Dev :=
  let t0 := d.get (CHS_TEC_TEC c)
  let r0 := d.get (CHS_REC_REC c)
  let tec := min tec 511
  let rc := min rc 255
  let d := (d.set (CHS_TEC_TEC c) tec).set (CHS_REC_REC c) rc
  let d := d.setB (CHS_TEC_WARN c) (96 ≤ tec || 96 ≤ rc)
  let d := d.iff ((96 ≤ tec && t0 < 96) || (96 ≤ rc && r0 < 96)) (fun d => d.ist (pCHS c) 0)
  let d := d.iff ((128 ≤ tec && t0 < 128) || (128 ≤ rc && r0 < 128)) (fun d => d.ist (pCHS c) 1)
  if 256 ≤ tec then busOffEnter d c else d.set (CHS_TEC_STATE c) (confState tec rc)

/-- A frame of the head delivered: TEC - 1 (R189). -/
def tecDown (d : Dev) (c : Nat) : Dev :=
  if counting d c then setCounters d c (d.get (CHS_TEC_TEC c) - 1) (d.get (CHS_REC_REC c)) else d

/-- A transmit error of the head: TEC + 8 (R189). -/
def tecUp (d : Dev) (c : Nat) : Dev :=
  if counting d c then setCounters d c (d.get (CHS_TEC_TEC c) + 8) (d.get (CHS_REC_REC c)) else d

/-- A receive error: REC + 1 (R189). -/
def recUp (d : Dev) (c : Nat) : Dev :=
  if counting d c then setCounters d c (d.get (CHS_TEC_TEC c)) (d.get (CHS_REC_REC c) + 1) else d

/-- A frame received that passes check 9 (R189). -/
def recDown (d : Dev) (c : Nat) : Dev :=
  if counting d c then
    setCounters d c (d.get (CHS_TEC_TEC c))
      (if 128 ≤ d.get (CHS_REC_REC c) then 120 else d.get (CHS_REC_REC c) - 1)
  else d

/-- The quiet group of node `a` (R373); group 0 when the package names none. -/
def groupOf (d : Dev) (c a : Nat) : Nat := lookupD 0 a (d.chan c).groups

/-- The node is in a sleeping quiet group of the current tick (R197). -/
def asleepNode (d : Dev) (c a : Nat) : Bool := !bitOf (d.chan c).awake (groupOf d c a)

/-- The node is fenced. -/
def fenced (d : Dev) (c a : Nat) : Bool := bitOf (d.getW (CHS_FENCE c)) a

/-- The fence of node `a` (R200). Its hold is that of CHS_FENCEHOLD at the fencing: a later value changes no fence that stands, but
for HOLD = 0, which ends automatic unfencing (R203; DESIGN CHOICE: log entry 42). -/
def fenceNode (d : Dev) (c a : Nat) : Dev :=
  let d := (d.inc (CHS_FCNT_FENCE c)).inc (CHS_NODE_FENCES c a)
  let d := ((d.setBit (CHS_FENCE c) a true).set (CHS_NODE_FENCED c a) 1).ist (pCHS c) 5
  d.modChan c (fun x => { x with fenceUntil := bindKey a (d.tick + 1 + d.get (CHS_FENCEHOLD_HOLD c)) x.fenceUntil })

/-- The score of node `a` takes a new value: WARN and the fence (R199, R200). -/
def setScore (d : Dev) (c a s : Nat) : Dev :=
  let s0 := d.get (CHS_NODE_SCORE c a)
  let d := d.set (CHS_NODE_SCORE c a) s
  let d := (d.set (CHS_NODE_WARN c a) (b2n (decide (96 ≤ s)))).setBit (CHS_WARNM c) a (96 ≤ s)
  let d := d.iff (96 ≤ s && s0 < 96) (fun d => d.ist (pCHS c) 4)
  if 192 ≤ s then fenceNode d c a else d

/-- An event of R198 for a frame attributed to node `a`: `up` adds 8, otherwise 1 is taken. The statistics of events for sleeping
nodes go on while scores do not change (R190, R197). -/
def scoreEvent (d : Dev) (c a : Nat) (up : Bool) : Dev :=
  if a = 0 ∨ 31 < a ∨ fenced d c a = true then d
  else if asleepNode d c a = true then d.inc (CHS_ANOM_FROZEN c)
  else if counting d c = false then d
  else
    let s := d.get (CHS_NODE_SCORE c a)
    setScore d c a (if up then min (s + 8) 255 else s - 1)

/-- The unfence of node `a` (R203), by a pennant or automatically. -/
def unfence (d : Dev) (c a : Nat) (pennant : Bool) : Dev :=
  if fenced d c a = false then d
  else
    let d := ((d.setBit (CHS_FENCE c) a false).set (CHS_NODE_FENCED c a) 0).set (CHS_NODE_SCORE c a) 64
    let d := ((d.set (CHS_NODE_WARN c a) 0).setBit (CHS_WARNM c) a false).ist (pCHS c) 6
    let d := d.modChan c (fun x => { x with fenceUntil := x.fenceUntil.filter (fun e => e.1 != a),
                                            unfReq := x.unfReq.filter (· != a) })
    if pennant then d.inc (CHS_FCNT_UNFPEN c) else d.inc (CHS_FCNT_UNFAUTO c)

/-- The head may not drive the bus of this channel, whatever its curfew: it is bus-off, isolated, disabled, in forced
standby, waits under R105, or the part has no headship (R105, R117, R119, R150, R156, R222). -/
def heldBack (d : Dev) (c : Nat) : Bool :=
  !d.isHead || busOff d c || (d.chan c).isolated || (d.ham (hamOf c)).isolated || !d.running (pCHC c)
    || (d.chan c).await || (d.chan c).mute || d.has (CHC_XCVR_STBYFORCE c) || d.has (CHC_XCVR_HBSTOP c)
    || d.has (CHS_TEC_STUCK c)

/-- The bus is not driven by the head on this channel: it is held back, or the channel is ASLEEP or WAKING (R371). -/
def silent (d : Dev) (c : Nat) : Bool := heldBack d c || 3 ≤ d.get (CHC_CURSTAT_STATE c)

end Sys2Proof.Machine
end

