-- ==== Sys2Proof/Machine/Line.lean ====
section
/-! DEFINITION. The line of a channel (04): bit times, frame lengths, the check of bit timing at a commit, the loop
delay, the transmit errors of R141, and the bell frame (03). -/

namespace Sys2Proof.Machine

open Sys2Proof

/-- A command that acts on the part but its fuses: while the rails are off or the TAP holds the part in reset, nothing
but the commands of power and reset has an effect (R464, R488). -/
def Dev.powered (d : Dev) : Bool := !d.pwr.off && !d.pwr.tapHold

/-- The step of such a command. -/
def act (s : State) (f : Dev → Dev) : Host.Outcome State Fault Refusal :=
  .next (if s.dev.powered then { s with dev := f s.dev } else s)

/-- Arbitration bit time in ns for ARATE; none for a reserved rate (CHC_LINE). -/
def arbTime (rate : Nat) : Option Nat :=
  if rate = 0 then some 8000 else if rate = 1 then some 4000 else if rate = 2 then some 2000
  else if rate = 3 then some 1000 else none

/-- Data-phase bit time in ns for DRATE; none for a reserved rate. -/
def dataTime (rate : Nat) : Option Nat :=
  if rate = 0 then some 400 else if rate = 1 then some 200 else if rate = 2 then some 100
  else if rate = 3 then some 50 else if rate = 4 then some 25 else none

/-- A setting of CHC_LINE, CHC_ABT and CHC_DBT meets R87. -/
def timingOk (line abt dbt : Nat) : Bool :=
  match arbTime (bitsOf line 30 28), dataTime (bitsOf line 27 25) with
  | some ta, some td =>
    (1 + bitsOf abt 23 16 + bitsOf abt 15 10 + bitsOf abt 9 4) * bitsOf abt 31 24 == ta
      && bitsOf abt 3 0 ≤ bitsOf abt 9 4
      && (1 + bitsOf dbt 21 16 + bitsOf dbt 15 10) * bitsOf dbt 31 24 == td
      && bitsOf dbt 9 6 ≤ bitsOf dbt 15 10
  | _, _ => false

/-- Arbitration bit time in force on channel `c`, in ns. -/
def Dev.arbNs (d : Dev) (c : Nat) : Nat := (arbTime (bitsOf (d.chan c).line.1.toNat 30 28)).getD 8000
/-- Data-phase bit time in force on channel `c`, in ns. -/
def Dev.dataNs (d : Dev) (c : Nat) : Nat := (dataTime (bitsOf (d.chan c).line.1.toNat 27 25)).getD 400

/-- LINE_CFG with its status bit. -/
def lineCfg (d : Dev) (c : Nat) : Dev := raise (d.ist (pCHC c) 2) (pCHC c) 2

/-- New line settings and a new recovery mode are looked at once, at the commit that brings them: the settings in force follow
CHC_LINE, CHC_ABT and CHC_DBT, or stay and LINE_CFG is raised (R87); MODE = 3 raises LINE_CFG (R193). -/
def lineCommit (d : Dev) (c : Nat) : Dev :=
  let l := d.getW (CHC_LINE c)
  let a := d.getW (CHC_ABT c)
  let b := d.getW (CHC_DBT c)
  let new := (word l, word a, word b)
  let mode := d.get (CHS_BOCFG_MODE c)
  let was := (d.chan c).tried
  let d := d.modChan c (fun x => { x with tried := (new, mode) })
  let d := if new = was.1 then d
    else if timingOk l a b = true then d.modChan c (fun x => { x with line := new })
    else lineCfg d c
  if mode = 3 ∧ was.2 ≠ 3 then lineCfg d c else d

/-- Stuff bits of dynamic stuffing over the bits from SOF to DPS (R97): `last` is the level of the run, `run` its
length. -/
def stuffCount : List Bool → Bool → Nat → Nat
  | [], _, _ => 0
  | b :: l, last, run =>
    let r := if b = last then run + 1 else 1
    if r = 5 ∧ l ≠ [] then 1 + stuffCount l (!b) 1 else stuffCount l b r

/-- Arbitration-rate bits of a frame from SOF through DPS, stuff bits included. -/
def arbBits (c mid src ft : Nat) (a dps : Bool) : Nat :=
  let bits := (headBits c mid src ft a dps 0 0).take 36
  bits.length + stuffCount bits true 0

/-- Data-phase bits, fixed stuff bits included (R98). -/
def dataBits (len : Nat) (a : Bool) : Nat :=
  let n := 74 + 8 * len + (if a then 64 else 0)
  n + n / 8

/-- Nanoseconds from SOF to the end of the last EOF bit on channel `c` (R100). -/
def frameNs (d : Dev) (c cls mid src ft : Nat) (a dps : Bool) (len : Nat) : Nat :=
  arbBits cls mid src ft a dps * d.arbNs c + dataBits len a * (if dps then d.dataNs c else d.arbNs c)
    + 11 * d.arbNs c

/-- The epoch key in force on channel `c` (R254). -/
def Dev.keyInForce (d : Dev) (c : Nat) : Option EpKey := (d.chan c).cur.filter (fun k => !k.retired)

/-- Identifier of the key in force, 0 in the NOKEY state (CHX_EPOCH.CUR). -/
def Dev.epochId (d : Dev) (c : Nat) : Nat := ((d.keyInForce c).map (fun k => k.id)).getD 0

/-- The tag of a frame of the head under CUR, with the mask counted (R234, CHX_KEYUSE). -/
def headTag (d : Dev) (c cls mid ft : Nat) (dps : Bool) (seq : Nat) (payload : List Byte) :
    Dev × Option (BitVec 64) :=
  match d.keyInForce c with
  | none => (d, none)
  | some k =>
    (d.modChan c (fun x => { x with cur := x.cur.map (fun k => { k with use := k.use + 1 }) }),
     some (tagOf k.key cls mid 0 ft true dps payload.length seq d.tick payload))

/-- A frame of the head with its two CRCs (R100, R103). -/
def headFrame (cls mid ft : Nat) (dps : Bool) (seq : Nat) (payload : List Byte) (tag : Option (BitVec 64)) : HeadFrame :=
  let head := headBits cls mid 0 ft tag.isSome dps payload.length seq
  let hcrc := hcrcOf head
  { c := cls, mid := mid, ft := ft, dps := dps, seq := seq, payload := payload, tag := tag, hcrc := hcrc,
    crc := crc32cOf (head ++ bitsMsb hcrc 16 ++ byteBits payload
      ++ (match tag with | some t => bitsMsb t.toNat 64 | none => [])) }

/-- An instant in ns after the nominal bell instant of the tick in force, as device time. -/
def Dev.atBell (d : Dev) (x : Int) : Nat := ((d.bell.inst : Int) + x).toNat

/-- The data phase of a frame of the head whose SOF stands at the instant `sof` (R116): from its first data-rate bit to its last
CRC bit. -/
def notePhase (d : Dev) (c sof cls mid ft : Nat) (a dps : Bool) (len : Nat) : Dev :=
  if dps = false then d
  else
    let t := sof + arbBits cls mid 0 ft a dps * d.arbNs c
    d.modChan c (fun x => { x with modeNs := (t, t + dataBits len a * d.dataNs c) })

/-- A frame, or its error delimiter, has ended at the instant `t`: the bus is idle after the IFS (R104). After a frame of its own a
PASSIVE head waits 8 further bits before a priority or one-shot frame (R188). -/
def noteEnd (d : Dev) (c t : Nat) (own : Bool) : Dev :=
  let idle := t + 3 * d.arbNs c
  let wait := own && d.get (CHS_TEC_STATE c) == 1
  d.modChan c (fun x => { x with idleNs := idle, ownNs := if wait then idle + 8 * d.arbNs c else x.ownNs })

/-- Where the flag for a transmit error starts (R111). -/
def txFlagAt : TxErr → FlagAt
  | .bit data => if data then .endOfDataBit else .nextBit
  | .ack => .firstEof
  | .form inEof => if inEof then .nextBit else .firstEof
  | .flag => .nextBit
  | .authForge => .firstEof

/-- The head sends an error flag (R111, R186): active or passive as the channel's state says. -/
def errorFlag (d : Dev) (c : Nat) (start : FlagAt) : Dev := d.emit (.errorFlag c (d.get (CHS_TEC_STATE c) == 0) start)

/-- Device time is in holdover (R348: TIME_STAT.STATE = 2). -/
def Dev.inHoldover (d : Dev) : Bool := d.get TIME_STAT_STATE == 2

/-- The 32-byte bell payload of the tick in force on channel `c` (R67). `lag` is in units of 125 ns; 0 is on time. -/
def bellPayload (d : Dev) (c lag : Nat) : List Byte :=
  let x := d.chan c
  bytesMsb d.tick 6 ++ bytesMsb (d.bell.inst / 1000000000) 4 ++ bytesMsb (d.bell.inst % 1000000000) 4
    ++ bytesMsb (d.get (CHC_WIN_SCHED_END c)) 2 ++ bytesMsb (d.get (CHC_WIN_ARB_END c)) 2
    ++ bytesMsb ((d.bell.next - d.bell.inst) / 125) 3 ++ bytesMsb x.awake 1
    ++ bytesMsb (b2n x.call + 2 * b2n x.commit) 1 ++ bytesMsb x.fence 4 ++ bytesMsb (d.epochId c) 2
    ++ bytesMsb (b2n (lag != 0) + 2 * b2n d.inHoldover + 4 * b2n d.bell.pchg + 8 * b2n x.stale) 1
    ++ bytesMsb lag 2

/-- The loop delay measured at a bell's SOF (R95), and the limit of R96. -/
def loopDelay (d : Dev) (c ns : Nat) : Dev :=
  let v := min ns 255
  let first := d.get (CHC_LDLY_MIN c) = 0
  let d := d.set (CHC_LDLY_LAST c) v
  let d := d.set (CHC_LDLY_MAX c) (max (d.get (CHC_LDLY_MAX c)) v)
  let d := d.set (CHC_LDLY_MIN c) (if first then v else min (d.get (CHC_LDLY_MIN c)) v)
  let dbt := (d.chan c).line.2.2.toNat
  if 8 * d.dataNs c < v + bitsOf dbt 5 0 * bitsOf dbt 31 24 then
    raise ((d.ist (pCHC c) 1).modChan c (fun x => { x with noSsp := true })) (pCHC c) 1
  else condEnd (d.modChan c (fun x => { x with noSsp := false })) (pCHC c) 1

/-- AUTH_FORGE (R110, R493): the record, and the event with words 0 and 1 as a pinfold entry would hold them. -/
def authForge (d : Dev) (c w0 w1 : Nat) : Dev :=
  let d := (d.inc (CHS_ANOM_AUTHFORGE c)).ist (pCHC c) 3
  d.postAll (fun x => scopeSeg x.scope c) (d.evRec 6 (pCHS c) w0 w1)

/-- Word 0 of a pinfold entry (R178). -/
def pfW0 (reason c ft : Nat) (a : Bool) (src seq : Nat) : Nat :=
  reason * 2 ^ 28 + c % 8 * 2 ^ 25 + ft * 2 ^ 22 + b2n a * 2 ^ 21 + src * 2 ^ 16 + seq

/-- Word 1 of a pinfold entry. -/
def pfW1 (cls mid : Nat) : Nat := cls * 2 ^ 29 + mid

/-- A dominant level in EOF bit 7 of a frame that ends at the instant `t`: the form error, and R105 before the channel sends again
(R112). -/
def eofSeven (d : Dev) (c t : Nat) : Dev :=
  (d.inc (CHS_ANOM_EOF7 c)).modChan c (fun x => { x with mute := true, awaitNs := t })

/-- A transmit error of the head (R141): the flag, its counter, CHT_ERRCNT, and TEC under R189. `bell` marks a bell frame. -/
def txError (d : Dev) (c : Nat) (e : TxErr) (bell : Bool) (w0 w1 : Nat) : Dev :=
  let d := errorFlag (d.inc (CHT_ERRCNT_COUNT c)) c (txFlagAt e)
  let passive := d.get (CHS_TEC_STATE c) = 1
  match e with
  | .bit _ => tecUp (d.inc (CHS_ECNT0_BIT c)) c
  | .ack => (if bell = true ∨ passive then d.inc (CHS_ECNT2_ACK c) else tecUp (d.inc (CHS_ECNT2_ACK c)) c)
  | .form _ => tecUp (d.inc (CHS_ECNT1_FORM c)) c
  | .flag => tecUp (d.inc (CHS_ECNT1_FORM c)) c
  | .authForge => tecUp (authForge (d.inc (CHS_ECNT1_FORM c)) c w0 w1) c

/-- A scheduled entry takes SKIP for the tick (R137, R71). -/
def skipEntry (d : Dev) (c : Nat) (e : TxEntry) : Dev :=
  putEntry ((d.inc (CHT_MISC_SKIP c)).ist (pCHT c) 3) c { e with st := 7, copy := none }

/-- The queued scheduled entries that have had no turn in the tick and satisfy `p` are skipped. -/
def skipSched (d : Dev) (c : Nat) (p : TxEntry → Bool) : Dev :=
  d.forEach ((d.chan c).tx.filter (fun e => e.qt == 0 && e.st == 1 && e.window ≤ d.tick && p e)) (fun d e => skipEntry d c e)

/-- The comparison of R95 is off (R96): a bit error of the data phase is not detected, and the frame goes on to its end. -/
def seenLine (d : Dev) (c : Nat) (l : TxLine) : TxLine :=
  match l with
  | .error (.bit true) => if (d.chan c).noSsp then .delivered else l
  | _ => l

/-- The bell frame of the tick in force is sent on channel `c`, `lag` units of 125 ns after the bell instant (R66 to
R72). Counting in its end: a WAKING channel is AWAKE (R369), and the slots before the bell's end are skipped (R71). A bell that
ends in an error keeps the bus for its full length (DESIGN CHOICE: log entry 44). -/
def sendBell (d : Dev) (c lag : Nat) (l : BellLine) : Dev :=
  let d := loopDelay d c l.loopNs
  let payload := bellPayload d c lag
  let (d, tag) := headTag d c 0 0 0 true 0 payload
  let d := d.emit (.bell c (headFrame 0 0 0 true 0 payload tag))
  let sof := d.atBell (lag * 125 : Nat)
  let fin := lag * 125 + frameNs d c 0 0 0 0 tag.isSome true 32
  let d := notePhase d c sof 0 0 0 tag.isSome true 32
  let d := d.modChan c (fun x => { x with bell := .sent })
  let d := if d.get (CHC_CURSTAT_STATE c) = 4 then
      ((((d.inc (CHC_SLPCNT_WAKES c)).ist (pCHC c) 12).set (CHC_CURSTAT_IDLE c) 0).set (CHC_CURSTAT_STATE c) 0).modChan c
        (fun x => if x.epWant = 1 then { x with epStart := d.tick } else x)
    else d
  let d := match seenLine d c l.line with
    | .delivered => (tecDown d c).iff l.eof7 (fun d => eofSeven d c (d.atBell fin))
    | .lost => d
    | .error e => txError d c e true (pfW0 6 c 0 tag.isSome 0 0) (pfW1 0 0)
  let d := (noteEnd d c (d.atBell fin) true).modChan c (fun x => { x with bellFin := fin })
  skipSched d c (fun e => e.slot * 1000 < fin)

/-- A late bell (R72): the counters beside the frame. -/
def lateBellSent (d : Dev) (c lag : Nat) : Dev :=
  let d := ((d.inc (CHC_BELLCNT_LATE c)).set (CHC_BELLLAG_LAST c) (min lag 65535)).ist (pCHC c) 16
  d.set (CHC_BELLLAG_MAX c) (max (d.get (CHC_BELLLAG_MAX c)) (min lag 65535))

/-- A bell missed under R73. -/
def bellMiss (d : Dev) (c : Nat) : Dev :=
  raise (((d.inc (CHC_BELLCNT_MISS c)).ist (pCHC c) 17).modChan c (fun x => { x with bell := .missed })) (pCHC c) 16

/-- A bell that is due is withheld under R191 or R222: it counts, with no status bit and no fault. -/
def bellWithheld (d : Dev) (c : Nat) : Bool := busOff d c || (d.chan c).isolated || (d.ham (hamOf c)).isolated

/-- The bell of the tick is not sent under R191 or R222. -/
def bellUnsent (d : Dev) (c : Nat) : Dev := (d.inc (CHC_BELLCNT_MISS c)).modChan c (fun x => { x with bell := .missed })

/-- A due bell that can no longer be sent ends: missed under R73, or withheld. Only a head misses a bell. -/
def endBell (d : Dev) (c : Nat) : Dev :=
  if (d.chan c).bell ≠ .due ∨ d.isHead = false then d
  else if bellWithheld d c = true then bellUnsent d c else bellMiss d c

/-- The bus is idle for a frame of the head that starts at the instant `t` (R104, R137): no entry's frame is on it, and the IFS of
the last one is over. -/
def busIdle (d : Dev) (c t : Nat) : Bool := (d.chan c).wire.isNone && decide ((d.chan c).idleNs ≤ t)

/-- The latest instant of a bell after Bn, in ns (R73). -/
def Dev.bellLimit (d : Dev) : Nat := min (d.periodNs / 2) 8000000

/-- LATE_BELL: the bell of the tick leaves `lag` units of 125 ns late at the first idle (R72). -/
def lateBell (d : Dev) (lag : Nat) (l : BellLine) : Dev :=
  let c := l.ch
  let at' := d.bell.inst + lag * 125
  if d.hasChan c = true ∧ (d.chan c).bell = .due ∧ heldBack d c = false ∧ 0 < lag ∧ lag * 125 ≤ d.bellLimit
      ∧ (d.chan c).formed = true ∧ l.busy = false ∧ busIdle d c at' = true then
    sendBell (lateBellSent (d.advanceTo at') c lag) c lag l
  else d

/-- BELL_MISSED: the limit of R73 has passed. -/
def bellMissed (d : Dev) (c : Nat) : Dev :=
  if d.hasChan c = true ∧ (d.chan c).bell = .due ∧ d.isHead = true then endBell (d.advanceTo (d.bell.inst + d.bellLimit)) c else d

/-- LATE_BELL (R72). -/
def execLateBell (lag : Nat) (l : BellLine) (s : State) : Host.Outcome State Fault Refusal :=
  act s (fun d => lateBell d lag l)

/-- BELL_MISSED (R73). -/
def execBellMissed (c : Nat) (s : State) : Host.Outcome State Fault Refusal :=
  act s (fun d => bellMissed d c)

end Sys2Proof.Machine
end

