-- ==== Sys2Proof/Machine/Intc.lean ====
section
/-! DEFINITION. The interrupt controller (15): sources, targets, delivery, claims, completion, coalescing. -/

namespace Sys2Proof.Machine

open Sys2Proof

/-- Page `p` does its work: it is neither latched off nor in soft reset (R413, R409; PG_CTL.EN gates the channels
alone: log entry 20). -/
def Dev.works (d : Dev) (p : Nat) : Bool :=
  !(d.page p).latched && !((d.page p).shadow.isSome && (d.page p).resetting)

/-- The condition of page source `n`: PG_IST AND PG_IEN is not zero (R382). -/
def pageActive (d : Dev) (n : Nat) : Bool :=
  populated d.part n && (d.getW (PG_IST n) &&& d.getW (PG_IEN n)) != 0

/-- Source `n` is ACTIVE. -/
def srcActive (d : Dev) (n : Nat) : Bool := d.intc.active.any (fun e => e.1 == n)

/-- Raise count of a doorbell; not zero when it is PENDING (R384). -/
def raisesOf (d : Dev) (n : Nat) : Nat := lookupD 0 n d.intc.raises

/-- Source `n` is PENDING (R384). -/
def srcPending (d : Dev) (n : Nat) : Bool :=
  if n < 512 then pageActive d n && !srcActive d n else n < 1023 && raisesOf d n != 0

/-- The preemption tier of source `n` (R386). -/
def tierOf (d : Dev) (n : Nat) : Nat := d.get (INTC_SRC_PRIO n) / 2 ^ d.get INTC_CFG_SPLIT

/-- Source `n` comes earlier than source `m` (R386). -/
def earlier (d : Dev) (n m : Nat) : Bool :=
  d.get (INTC_SRC_PRIO n) < d.get (INTC_SRC_PRIO m)
    || (d.get (INTC_SRC_PRIO n) == d.get (INTC_SRC_PRIO m) && n < m)

/-- The busy tier of target `t` (R387). -/
def busyTier (d : Dev) (t : Nat) : Nat :=
  ((d.intc.active.filter (fun e => e.2.1 == t)).map (fun e => e.2.2)).foldl min 32

/-- Delivered sources of a host target not yet claimed (INTC_OFFER.UNCL). -/
def unclaimed (d : Dev) (t : Nat) : Nat := (d.intc.hostDel.filter (fun e => e.2 == t)).length

/-- Target `t` is awake (R388). -/
def targetAwake (d : Dev) (t : Nat) : Bool :=
  if t < 4 then !d.intc.asleep.contains t && d.get DEV_VIGSTAT_STATE == 0
  else (d.ses (t - 4)).st == .opened && (d.ses (t - 4)).live

/-- Target `t` is eligible for source `n` (R388). -/
def eligible (d : Dev) (n t : Nat) : Bool :=
  bitOf (d.get (INTC_SRC_TMASK n)) t && d.has (INTC_TGT_EN t) && tierOf d n < busyTier d t
    && tierOf d n < d.get (INTC_TGT_THRESH t) && (t < 4 || unclaimed d t < 32)

/-- Steward `t` holds an offer of source `n`. -/
def offered (d : Dev) (t n : Nat) : Bool := d.has (INTC_OFFER_VALID t) && d.get (INTC_OFFER_SRC t) == n

/-- The coalescing group of source `n` holds; page sources ignore CE (R398). -/
def groupHolds (d : Dev) (n : Nat) : Bool :=
  512 ≤ n && d.has (INTC_SRC_CE n) && d.get (INTC_COALST_HELD (d.get (INTC_SRC_COAL n))) != 0

/-- The source may be delivered: unmasked, PENDING, not ACTIVE, not delivered, not held by its group (R384, R385,
R398). -/
def deliverable (d : Dev) (n : Nat) : Bool :=
  n < 1023 && d.has (INTC_SRC_EN n) && srcPending d n && !srcActive d n
    && !(List.range 4).any (fun t => offered d t n) && !d.intc.hostDel.any (fun e => e.1 == n)
    && !groupHolds d n

/-- A steward that holds an offer takes another only when that comes earlier (R391, R392). -/
def canTake (d : Dev) (n t : Nat) : Bool :=
  4 ≤ t || !d.has (INTC_OFFER_VALID t) || earlier d n (d.get (INTC_OFFER_SRC t))

/-- The target chosen for source `n`: the eligible awake one with the highest busy tier, the lowest number first
(R389). -/
def chooseTarget (d : Dev) (n : Nat) : Option Nat :=
  let ts := (List.range 12).filter (fun t => eligible d n t && targetAwake d t && canTake d n t)
  match ts with
  | [] => none
  | t :: l => some (l.foldl (fun best u => if busyTier d best < busyTier d u then u else best) t)

/-- Source `n` is offered to steward `t`; an offer that it replaces returns to pending (R391, R392). -/
def offerTo (d : Dev) (n t : Nat) : Dev :=
  let d := d.iff (d.has (INTC_OFFER_VALID t)) (fun d => d.inc INTC_CNT_RETRACT)
  ((d.incWrap (INTC_OFFER_TAG t)).set (INTC_OFFER_SRC t) n).set (INTC_OFFER_VALID t) 1

/-- The DATA word of a host record (R393). -/
def recordData (d : Dev) (n : Nat) : Nat := if n < 512 then d.getW (PG_IST n) else lookupD 0 n d.intc.data

/-- Source `n` is delivered to host target `t`: a record of KIND 0x01 (R393). -/
def deliverHost (d : Dev) (n t : Nat) : Dev :=
  let r := d.evRec 1 n ((if n < 512 then 0 else raisesOf d n) * 2 ^ 24 + d.get (INTC_SRC_PRIO n) * 2 ^ 16
    + b2n (decide (n < 512))) (recordData d n)
  let d := d.post (t - 4) { r with claim := some n }
  { d with intc := { d.intc with hostDel := d.intc.hostDel ++ [(n, t)] } }

/-- DELIVERY (R389, R390): a pending source goes to the target chosen, or wakes DEFTGT. -/
def deliver (d : Dev) (n : Nat) : Dev :=
  if d.works 0x30 = false ∨ deliverable d n = false then d
  else
    match chooseTarget d n with
    | some t => if t < 4 then offerTo d n t else deliverHost d n t
    | none =>
      let el := (List.range 12).filter (fun t => eligible d n t)
      let g := d.get INTC_CFG_DEFTGT
      if d.get (INTC_SRC_TMASK n) % 16 ≠ 0 ∧ el ≠ [] ∧ el.all (fun t => !targetAwake d t) = true
          ∧ d.get (INTC_TGT_EN g) = 1 ∧ canTake d n g = true ∧ d.get DEV_VIGSTAT_STATE = 0 then
        offerTo { d with intc := { d.intc with asleep := d.intc.asleep.filter (· != g) } } n g
      else d

/-- Group `g` releases its sources: its held count returns to 0 (R398). -/
def releaseGroup (d : Dev) (g : Nat) : Dev :=
  let d := d.set (INTC_COALST_HELD g) 0
  { d with intc := { d.intc with heldAt := d.intc.heldAt.filter (fun e => e.1 != g) } }

/-- A raise is held by group `g`; the raise that brings its held count to COUNT releases it (R398). -/
def holdRaise (d : Dev) (g : Nat) : Dev :=
  let d := if d.get (INTC_COALST_HELD g) = 0 then
      { d with intc := { d.intc with heldAt := bindKey g d.aon.cycles d.intc.heldAt } } else d
  let d := d.inc (INTC_COALST_HELD g)
  if max (d.get (INTC_COAL_COUNT g)) 1 ≤ d.get (INTC_COALST_HELD g) then releaseGroup d g else d

/-- A doorbell raise with the DATA of its record (R383, R384, R398). -/
def intcRaise (d : Dev) (n data : Nat) : Dev :=
  if n < 512 ∨ 1023 ≤ n then (d.inc INTC_ERRCNT_BADRAISE).ist 0x30 1
  else
    let d := { d with intc := { d.intc with raises := bindKey n (min (raisesOf d n + 1) 255) d.intc.raises,
                                            data := bindKey n data d.intc.data } }
    if d.has (INTC_SRC_CE n) then holdRaise d (d.get (INTC_SRC_COAL n)) else d

/-- Source `n` becomes ACTIVE at target `t`: PENDING and the raise count clear (R391, R393). -/
def takeSource (d : Dev) (n t : Nat) : Dev :=
  { d with intc := { d.intc with active := d.intc.active ++ [(n, t, tierOf d n)],
                                 raises := d.intc.raises.filter (fun e => e.1 != n) } }

/-- A steward's claim (R391); a host target has none. -/
def claimOp (d : Dev) (t src tag : Nat) : Dev :=
  if t < 4 ∧ offered d t src = true ∧ d.get (INTC_OFFER_TAG t) = tag then
    takeSource ((d.set (INTC_OFFER_VALID t) 0).set (INTC_CLAIMED_SRC t) src) src t
  else (d.set (INTC_CLAIMED_SRC t) 1023).inc INTC_CNT_SPURIOUS

/-- A completion at target `t` (R394, R395). -/
def completeOp (d : Dev) (t src : Nat) : Dev :=
  if d.intc.active.any (fun e => e.1 == src && e.2.1 == t) then
    { d with intc := { d.intc with active := d.intc.active.filter (fun e => !(e.1 == src && e.2.1 == t)) } }
  else (d.inc INTC_ERRCNT_BADCOMP).ist 0x30 0

/-- The offers of source `n` are withdrawn when it is masked or its page condition has ended (R396). -/
def withdraw (d : Dev) (n : Nat) : Dev :=
  if d.get (INTC_SRC_EN n) = 1 ∧ (n < 512 → pageActive d n = true) then d
  else d.forEach (List.range 4) (fun d t => d.iff (offered d t n) (fun d => d.set (INTC_OFFER_VALID t) 0))

/-- The offer of steward `t` returns to pending (R397). -/
def retractOffer (d : Dev) (t : Nat) : Dev :=
  d.iff (d.has (INTC_OFFER_VALID t)) (fun d => (d.set (INTC_OFFER_VALID t) 0).inc INTC_CNT_RETRACT)

/-- Offers of targets that were eligible in `old` and are so no longer are retracted (R397): the offer that R390 gives DEFTGT whatever
TMASK says stays. -/
def retractIneligible (old d : Dev) : Dev :=
  d.forEach (List.range 4) (fun d t =>
    d.iff (d.has (INTC_OFFER_VALID t) && eligible old (d.get (INTC_OFFER_SRC t)) t && !eligible d (d.get (INTC_OFFER_SRC t)) t)
      (fun d => retractOffer d t))

/-- RETRACTION: steward `t` sleeps, or its target is no longer eligible (R397). -/
def retraction (d : Dev) (t : Nat) : Dev :=
  if 4 ≤ t then d
  else if d.get (INTC_OFFER_VALID t) = 1 ∧ eligible d (d.get (INTC_OFFER_SRC t)) t = false then retractOffer d t
  else
    let d := retractOffer d t
    { d with intc := { d.intc with asleep := insertNat t d.intc.asleep } }

/-- A steward that writes its target block is awake (R388). -/
def stewardWakes (d : Dev) (t : Nat) : Dev :=
  { d with intc := { d.intc with asleep := d.intc.asleep.filter (· != t) } }

/-- COALESCING_RELEASE of group `g`: the event that its TIME has run out (R398). -/
def coalesce (d : Dev) (g : Nat) : Dev :=
  if d.get (INTC_COALST_HELD g) = 0 ∨ 64 ≤ g then d else releaseGroup d g

/-- Coalescing times stand still in vigil: the list keeps times gone by instead of cycles, and back again (R400). -/
def flipHeldAt (d : Dev) : Dev :=
  { d with intc := { d.intc with heldAt := d.intc.heldAt.map (fun e => (e.1, d.aon.cycles - e.2)) } }

/-- The microseconds to the release of group `g` by its time (INTC_COALST.LEFT). -/
def coalLeft (d : Dev) (g : Nat) : Nat :=
  match findKey g d.intc.heldAt with
  | some t => d.get (INTC_COAL_TIME g) - (d.aon.cycles - t) / 500
  | none => 0

/-- The record for source `n` that an EVACK of session `s` covers is claimed (R393). -/
def hostClaim (d : Dev) (s n : Nat) : Dev :=
  if d.intc.hostDel.contains (n, s + 4) then
    takeSource { d with intc := { d.intc with hostDel := d.intc.hostDel.filter (· != (n, s + 4)) } } n (s + 4)
  else d

/-- The unclaimed records of session `s` are discarded: their sources return to pending (R397). -/
def hostRetract (d : Dev) (s : Nat) : Dev :=
  let n := unclaimed d (s + 4)
  let d := d.add INTC_CNT_RETRACT n
  { d with intc := { d.intc with hostDel := d.intc.hostDel.filter (fun e => e.2 != s + 4) } }

/-- The offers to stewards return to pending uncounted, at vigil entry (R400). -/
def vigilRetract (d : Dev) : Dev := d.forEach (List.range 4) (fun d t => d.set (INTC_OFFER_VALID t) 0)

/-- DELIVERY (R389). -/
def execDelivery (n : Nat) (s : State) : Host.Outcome State Fault Refusal := act s (fun d => deliver d n)

/-- RETRACTION (R397). -/
def execRetraction (t : Nat) (s : State) : Host.Outcome State Fault Refusal := act s (fun d => retraction d t)

/-- COALESCING_RELEASE (R398). -/
def execCoalescingRelease (g : Nat) (s : State) : Host.Outcome State Fault Refusal := act s (fun d => coalesce d g)

end Sys2Proof.Machine
end

