-- ==== Sys2Proof/Machine/Receive.lean ====
section
/-! DEFINITION. Receiving (06, 09): the checks of R151 on the wire, the verdict, the tail of a frame, and the hold FIFO. -/

namespace Sys2Proof.Machine

open Sys2Proof

/-- The MID of a confirmation frame (R249). -/
def confirmMid : Nat := 0x3FFFFE

/-- The frame is a confirmation (R249). -/
def isConfirm (f : RxFrame) : Bool := f.ft == 6 && f.mid == confirmMid && f.a && f.len == 2

/-- The channel samples the segment: enabled, not in standby, not stuck, past R105, not in vigil. A channel without
headship, bus-off, or whose hamlet migrates receives too (R156, R192, R216). -/
def hears (d : Dev) (c : Nat) : Bool :=
  d.hasChan c && d.running (pCHC c) && d.running (pCHX c) && d.get (CHC_CURSTAT_STATE c) != 3
    && !d.has (CHS_TEC_STUCK c) && !(d.chan c).await && !d.has (CHC_XCVR_STBYFORCE c) && !d.has (CHC_XCVR_HBSTOP c)
    && !(d.chan c).isolated && !(d.ham (hamOf c)).isolated && d.get DEV_VIGSTAT_STATE == 0

/-- The frame bits of the part of a frame that runs at arbitration rate, `n` of them to come, read from the levels on the line with
the stuff bits taken out (R97); the levels that follow, none when a sixth equal bit stands among them (R99). `last` is the level of
the run and `run` its length. -/
def readArb : List Bool → Nat → Bool → Nat → List Bool × Option (List Bool)
  | l, 0, _, _ => ([], some l)
  | [], _ + 1, _, _ => ([], none)
  | b :: l, n + 1, last, run =>
    if run = 5 then (if b = last then ([], none) else readArb l (n + 1) b 1)
    else
      let r := readArb l n b (if b = last then run + 1 else 1)
      (b :: r.1, r.2)

/-- The data bits of a data phase up to the first fixed stuff bit that equals the bit before it (R98, R99); `k` bits have come since
the last stuff bit, `last` the newest. -/
def readData : List Bool → Nat → Bool → List Bool
  | [], _, _ => []
  | b :: l, k, last => if k = 8 then (if b = last then [] else readData l 0 b) else b :: readData l (k + 1) b

/-- The frame bits that the head reads from the levels of a cut frame, after which the bus is recessive, until a stuffing rule is
broken (R99). -/
def cutBits (levels : List Bool) : List Bool :=
  let r := readArb (levels ++ List.replicate 16 true) 36 true 0
  r.1 ++ (match r.2 with | some l => readData l 0 true | none => [])

/-- The field of `n` bits from bit `i` of a frame on. -/
def bitField (l : List Bool) (i n : Nat) : Nat := ((l.drop i).take n).foldl (fun x b => 2 * x + b2n b) 0

/-- How many frame bits the head reads before a stuff error; none when no stuffing rule is broken. -/
def bitsRead (f : RxFrame) : Option Nat :=
  match f.line with
  | .cut levels => some (cutBits levels).length
  | _ => none

/-- Bit `n` of the frame, counted from 1, has been read. -/
def hasRead (f : RxFrame) (n : Nat) : Bool := match bitsRead f with | some k => decide (n ≤ k) | none => true

/-- The frame as the head reads it: the fields of a cut frame come from its levels (R100). -/
def asRead (f : RxFrame) : RxFrame :=
  match f.line with
  | .cut levels =>
    let l := cutBits levels
    { f with c := bitField l 1 3, mid := bitField l 4 22, src := bitField l 26 5, ft := bitField l 31 3,
             a := bitField l 34 1 == 1, dps := bitField l 35 1 == 1, len := bitField l 36 10, seq := bitField l 46 16,
             hcrc := bitField l 62 16 }
  | _ => f

/-- The frame is one of the head, observed by a part without headship (R156, R449): SRC = 0, read whole. -/
def fromHead (d : Dev) (f : RxFrame) : Bool := !d.isHead && f.src == 0 && hasRead f 31

/-- The format errors that the head detects at the end of the HCRC (R101, R107); a part without headship takes the frames of the
head as R100 and R106 let the head send them. -/
def badFormat (d : Dev) (f : RxFrame) : Bool :=
  if fromHead d f then f.ft == 7 || (f.c == 0) != (f.ft == 0)
  else f.ft == 7 || f.c == 0 || f.ft == 0 || f.ft == 3 || f.ft == 5

/-- The line error of a received frame as the head detects it first, and whether it is attributed to the SRC (checks 1
to 3 of R151, R99, R101, R102, R107, R185): 0 none, 1 stuff, 2 format, 3 HCRC, 4 CRC-32C, 5 SRC0_SPOOF. -/
def rxLineErr (d : Dev) (c : Nat) (f : RxFrame) : Nat × Bool :=
  let head := headBits f.c f.mid f.src f.ft f.a f.dps f.len f.seq
  if hasRead f 36 = true ∧ f.dps = false ∧ d.get (CHC_LINE_SLOWOK c) = 0 then (2, true)
  else if hasRead f 46 = true ∧ 512 < f.len then (2, true)
  else if hasRead f 78 = false then (1, hasRead f 31)
  else if f.src = 0 ∧ d.isHead = true then (5, false)
  else if badFormat d f = true then (2, true)
  else if f.hcrc ≠ hcrcOf head then (3, true)
  else if (bitsRead f).isSome = true then (1, true)
  else if f.crc ≠ crc32cOf (head ++ bitsMsb f.hcrc 16 ++ byteBits f.payload
      ++ (if f.a then bitsMsb f.tag.toNat 64 else [])) then (4, true)
  else (0, true)

/-- Where the flag for line error `k` of a received frame starts (R111). -/
def rxFlagAt (f : RxFrame) (k : Nat) : FlagAt :=
  if k = 1 then (if hasRead f 36 then .endOfDataBit else .nextBit)
  else if k = 2 ∧ f.dps = false ∧ hasRead f 78 = false then .afterDps
  else if k = 2 ∧ 512 < f.len then .endOfDataBit
  else if k = 4 then .firstEof
  else .endOfHcrc

/-- The tick number in force `x` ns after the nominal bell instant of the tick in force: the commit point lies 4 us before a bell
(R75). -/
def tickAt (d : Dev) (x : Int) : Nat :=
  if d.bell.started = false then d.tick
  else if x < -4000 then d.tick - 1
  else if (d.bell.next : Int) - d.bell.inst - 4000 ≤ x then d.tick + 1
  else d.tick

/-- The tick number in force at the frame's SOF (R232). -/
def sofTick (d : Dev) (f : RxFrame) : Nat := tickAt d f.sof

/-- A frame started in the guard of its tick (R69, R70). -/
def inGuard (d : Dev) (c : Nat) (f : RxFrame) : Bool :=
  if 0 ≤ f.sof then decide ((d.get (CHC_WIN_ARB_END c) * 1000 : Nat) ≤ f.sof)
  else decide ((d.bell.prev + (d.chan c).arbPrev * 1000 : Int) ≤ d.bell.inst + f.sof)

/-- The key of node `a`'s pending epoch: 2 NEXT while a change is pending, else 0 CUR for an enrolled node that has not
confirmed it (R233, R251). -/
def pendingKey (d : Dev) (c a : Nat) : Option Nat :=
  if d.enrolled c a = false then none
  else if (d.chan c).next.isSome = true then some 2
  else if d.bit (CHX_CONFIRM c) a = true then none
  else some 0

/-- The key in slot 0 CUR, 1 OLD or 2 NEXT, when it is a candidate (R233). -/
def slotKey (d : Dev) (c k : Nat) : Option EpKey :=
  (if k = 0 then (d.chan c).cur else if k = 1 then (d.chan c).old else (d.chan c).next).filter (fun x => !x.retired)

/-- The key slots that are candidates for a frame (R233). -/
def candSlots (d : Dev) (c : Nat) (f : RxFrame) : List Nat :=
  (if isConfirm f then (pendingKey d c f.src).toList else [0, 1]).filter (fun k => (slotKey d c k).isSome)

/-- The tick candidates of a frame (R232). -/
def candTicks (d : Dev) (f : RxFrame) : List Nat := if sofTick d f = 0 then [0] else [sofTick d f, sofTick d f - 1]

/-- The candidate pairs in the order of R235: tick first, then CUR before OLD. -/
def candPairs (d : Dev) (c : Nat) (f : RxFrame) : List (Nat × Nat) :=
  (candTicks d f).flatMap (fun t => (candSlots d c f).map (fun k => (k, t)))

/-- `n` masks more for the key in slot `k` (R234). -/
def useKey (d : Dev) (c k n : Nat) : Dev :=
  let up (o : Option EpKey) : Option EpKey := o.map (fun x => { x with use := x.use + n })
  d.modChan c (fun x => if k = 0 then { x with cur := up x.cur } else if k = 1 then { x with old := up x.old }
    else { x with next := up x.next })

/-- The masks that fixing the candidate set of a frame starts (R234). -/
def fixMasks (d : Dev) (c : Nat) (f : RxFrame) : Dev :=
  d.forEach (candSlots d c f) (fun d k => useKey d c k (candTicks d f).length)

/-- The winning candidate pair of a tagged frame (R235): its key slot and its tick. -/
def winner (d : Dev) (c : Nat) (f : RxFrame) : Option (Nat × Nat) :=
  (candPairs d c f).find? (fun kt =>
    match slotKey d c kt.1 with
    | some k => tagOf k.key f.c f.mid f.src f.ft true f.dps f.len f.seq kt.2 f.payload == f.tag
    | none => false)

/-- The last delivered pair of a SRC (R236). -/
def lastPair (d : Dev) (c src : Nat) : Nat × Nat := lookupD (0, 0) src (d.chan c).pairs

/-- Pair `a` is greater than pair `b`: tick first, then SEQ (R235). -/
def pairGt (a b : Nat × Nat) : Bool := b.1 < a.1 || (a.1 == b.1 && b.2 < a.2)

/-- Check 8 for a frame that has passed checks 4 to 7 (R151). -/
def fenceCheck (d : Dev) (c : Nat) (f : RxFrame) (win : Option (Nat × Nat)) : Nat × Option (Nat × Nat) :=
  if fenced d c f.src then (5, none) else (0, win)

/-- Checks 4 to 8 of R151: the reason, 0 for accept, and the winning pair of an accepted tagged frame. Copies of the
verdict that differ give BADTAG (R242). -/
def verdict (d : Dev) (c : Nat) (f : RxFrame) : Nat × Option (Nat × Nat) :=
  if f.copiesDiffer = true then (2, none)
  else if f.a = false then
    if d.get (CHX_AUTHCFG_ENFORCE c) = 1 ∧ bitOf (d.get (CHX_AUTHCFG_PROT c)) f.ft = true then (1, none)
    else fenceCheck d c f none
  else if candSlots d c f = [] then (4, none)
  else
    match winner d c f with
    | none => (2, none)
    | some kt =>
      if pairGt (kt.2, f.seq) (lastPair d c f.src) = true then fenceCheck d c f (some kt) else (3, none)

/-- A receive error (R189, R198): REC, unless the attributed node sleeps, and the score of the attributed node. -/
def rxError (d : Dev) (c src : Nat) (attributed : Bool) : Dev :=
  let d := if attributed = true ∧ asleepNode d c src = true then d else recUp d c
  if attributed then scoreEvent d c src true else d

/-- The counters of a line error (07). -/
def countLineErr (d : Dev) (c k : Nat) : Dev :=
  if k = 1 then d.inc (CHS_ECNT0_STUFF c)
  else if k = 2 then d.inc (CHS_ECNT1_FORM c)
  else if k = 3 then d.inc (CHS_ECNT1_HCRC c)
  else if k = 4 then d.inc (CHS_ECNT2_CRC c)
  else ((d.inc (CHS_ECNT1_FORM c)).inc (CHS_ANOM_SRC0SPOOF c)).ist (pCHS c) 8

/-- A shadow value written to the bits of `mask` of a register (R8). The shadows as they stood before the cycle are kept: a write in
the cycle of a commit waits for the next (R76). -/
def Dev.shadow (d : Dev) (key mask val : Nat) : Dev :=
  let old := (findKey key d.shadows).getD (0, 0#32)
  { d with shadows := putKey key (old.1 ||| mask,
             word ((old.2.toNat &&& (2 ^ 32 - 1 - mask)) ||| (val &&& mask))) d.shadows,
           shadowAt := d.aon.cycles,
           shadowOld := if d.shadowAt = d.aon.cycles then d.shadowOld else d.shadows }

/-- The value a field will have after the next commit: its pending value, or the one in force. -/
def Dev.pendingW (d : Dev) (key : Nat) : Nat :=
  match findKey key d.shadows with
  | some (m, v) => (d.getW key &&& (2 ^ 32 - 1 - m)) ||| (v.toNat &&& m)
  | none => d.getW key

/-- The quiet groups that woke in this cycle are awake in the pending mask, over what a host writes in the same cycle (R374, R375). -/
def groupsWake (d : Dev) (c : Nat) : Dev :=
  if (d.chan c).qgWake.1 = d.aon.cycles ∧ (d.chan c).qgWake.2 ≠ 0 then
    d.shadow (CHC_QGMASK c) 0xFF (d.pendingW (CHC_QGMASK c) ||| (d.chan c).qgWake.2)
  else d

/-- A crier counts (R359): IDLE is 0, a sleeping group asks to wake (R374), and a curfew is aborted (R363). -/
def crierCounts (d : Dev) (c src : Nat) : Dev :=
  let g := groupOf d c src
  let d := d.set (CHC_CURSTAT_IDLE c) 0
  let d := if asleepNode d c src then
      let d := (d.set (CHC_QGMASK_REQ c) (putBit (d.get (CHC_QGMASK_REQ c)) g true)).ist (pCHC c) 14
      if d.has (CHC_CURCFG_QGAUTO c) then
        let x := d.chan c
        groupsWake (d.setChan c { x with qgWake :=
          (d.aon.cycles, putBit (if x.qgWake.1 = d.aon.cycles then x.qgWake.2 else 0) g true) }) c
      else d
    else d
  curfewCause d c 0

/-- A frame that passed check 9 is offered to the hold FIFO (R27, R157). -/
def offerHold (d : Dev) (c : Nat) (h : Held) : Dev :=
  if 2 ≤ (d.chan c).hold.length then (d.inc (CHX_LOSSCNT_HOLDOVF c)).ist (pCHX c) 3
  else d.modChan c (fun x => { x with hold := x.hold ++ [h] })

/-- The record of an accepted and delivered tagged frame of tick `t` (R236, CHX_AUTHCNT, CHX_AUTHSTAT). -/
def tagDelivered (d : Dev) (c src seq t : Nat) (kt : Nat × Nat) : Dev :=
  let d := d.modChan c (fun x => { x with pairs := bindKey src (kt.2, seq) x.pairs })
  let d := d.inc (CHX_AUTHCNT_COUNT c)
  let d := d.iff (kt.1 == 1) (fun d => d.inc (CHX_AUTHSTAT_OLDKEY c))
  d.iff (kt.2 != t) (fun d => d.inc (CHX_AUTHSTAT_PREVTICK c))

/-- The stamp of a frame in ns of device time: its SOF less COMP (R320). -/
def stampNs (d : Dev) (f : RxFrame) : Nat := d.atBell f.sof - d.get SVC_SOECFG_COMP

/-- The instant in ns after the bell at which the frame's last CRC bit ends, and that at which it is offered, after EOF (R100,
R241). -/
def crcEnd (d : Dev) (c : Nat) (f : RxFrame) : Int :=
  f.sof + (frameNs d c f.c f.mid f.src f.ft f.a f.dps f.len - 11 * d.arbNs c : Nat)
def frameEnd (d : Dev) (c : Nat) (f : RxFrame) : Int := f.sof + (frameNs d c f.c f.mid f.src f.ft f.a f.dps f.len : Nat)

/-- The frame as it is held for the mill: with its verdict, its tick under R77 and its stamp. `holdover` is that at the SOF. -/
def heldFrame (d : Dev) (c : Nat) (f : RxFrame) (reason : Nat) (holdover : Bool) : Held :=
  let t := stampNs d f
  { f := f, reason := reason, tick := tickAt d (frameEnd d c f), vtick := tickAt d (crcEnd d c f), sec := t / 1000000000,
    ns := t % 1000000000, epoch := d.epochId c, confirm := isConfirm f, holdover := holdover, late := false,
    since := d.aon.cycles }

/-- A frame that has passed checks 1 to 9, with its verdict: counters, scores, records, and the offer to the mill. -/
def delivered (d : Dev) (c : Nat) (f : RxFrame) (v : Nat × Option (Nat × Nat)) (guard holdover : Bool) : Dev :=
  let h := heldFrame d c f v.1 holdover
  let d := d.iff f.eof7 (fun d => eofSeven d c (d.atBell (frameEnd d c f)))
  let d := recDown d c
  let refusedUp := (v.1 = 1 ∨ v.1 = 2 ∨ v.1 = 3) ∧ d.get (CHS_NSCFG_REFSC c) = 1
  let d := if guard = true ∨ refusedUp then scoreEvent d c f.src true
    else if v.1 = 0 then scoreEvent d c f.src false else d
  let d := match v.2 with
    | some kt => tagDelivered d c f.src f.seq (sofTick d f) kt
    | none => d
  let d := if v.1 = 0 ∧ f.ft = 4 then crierCounts d c f.src else d
  offerHold d c h

/-- The in-flight descriptor of the head is SENT (R449). -/
def markFlight (d : Dev) (c : Nat) : Dev :=
  match (d.chan c).peerFlight with
  | none => d
  | some r =>
    let d := d.modChan c (fun x => { x with peerFlight := some { r with outcome := 1 } })
    match (d.chan c).tx.find? (fun e => e.idx == r.idx) with
    | none => d
    | some e => if e.qt = 0 then putEntry d c { e with st := 3, copy := none } else endEntry d c e 3

/-- A head frame that a part without headship observes delivered and accepts: a bell frame is the bell of the tick (R454), any other
marks the descriptor in flight SENT (R449). -/
def observeHead (d : Dev) (c : Nat) (f : RxFrame) : Dev :=
  if f.ft = 0 then d.modChan c (fun x => { x with bell := if x.bell = .none then .none else .sent })
  else markFlight d c

/-- A receive error with the flag of a head that is not silent (R111). -/
def lineError (d : Dev) (c src : Nat) (attributed : Bool) (start : FlagAt) : Dev :=
  rxError (d.iff (!silent d c) (fun d => errorFlag d c start)) c src attributed

/-- AUTH_FORGE on a received frame (R110): REC, unless its SRC sleeps (R189), and no score but that of a frame started in the guard
(R198). -/
def forgedAuth (d : Dev) (c : Nat) (f : RxFrame) (guard : Bool) : Dev :=
  let d := d.iff (!silent d c) (fun d => errorFlag d c .firstEof)
  let d := authForge (d.inc (CHS_ECNT1_FORM c)) c (pfW0 6 c f.ft f.a f.src f.seq) (pfW1 f.c f.mid)
  let d := if asleepNode d c f.src then d else recUp d c
  d.iff guard (fun d => scoreEvent d c f.src true)

/-- What happens in the tail of a frame that has passed checks 1 to 3, with its verdict: ACK and AUTH, AUTH_FORGE, a form error, or
the delivery after EOF (R108 to R112). -/
def tailOf (d : Dev) (c : Nat) (f : RxFrame) (v : Nat × Option (Nat × Nat)) (guard holdover : Bool) : Dev :=
  let drive := f.a && v.1 == 0 && !silent d c
  let d := d.iff (!silent d c) (fun d => d.emit (.answer c true drive))
  if f.authDom = true ∧ drive = false ∧ d.isHead = true then forgedAuth d c f guard
  else
    match f.line with
    | .tail inEof => lineError (d.inc (CHS_ECNT1_FORM c)) c f.src true (if inEof then .nextBit else .firstEof)
    | _ =>
      let d := d.advanceTo (d.atBell (frameEnd d c f))
      let d := delivered (noteEnd d c (d.atBell (frameEnd d c f)) false) c f v guard holdover
      if fromHead d f = true ∧ v.1 = 0 then observeHead d c f else d

/-- FRAME_RECEPTION (R151): a station's frame as the head samples it; on a part without headship, the head's frames too (R156). -/
def receive (d : Dev) (c : Nat) (g : RxFrame) : Dev :=
  if hears d c = false then d
  else
    let f := asRead g
    let d := d.advanceTo (d.atBell f.sof)
    let holdover := d.inHoldover
    let guard := inGuard d c f && !fromHead d f
    let d := d.iff guard (fun d => d.inc (CHS_ECNT2_GUARD c))
    let (k, attr) := rxLineErr d c f
    let begun := hasRead f 62 && !(k == 2 && (decide (512 < f.len) || (!f.dps && d.get (CHC_LINE_SLOWOK c) == 0)))
    let v := verdict d c f
    let d := d.iff (f.a && begun) (fun d => fixMasks d c f)
    let d := d.iff (fromHead d f && begun && sofTick d f == d.tick) (fun d => d.modChan c (fun x => { x with seq := max x.seq f.seq }))
    let d := d.iff (f.copiesDiffer && (k == 0 || k == 4)) (fun d => raise (d.ist (pCHS c) 9) (pCHS c) 3)
    if k ≠ 0 then lineError (countLineErr d c k) c f.src attr (rxFlagAt f k)
    else tailOf d c f v guard holdover

/-- FRAME_RECEPTION (R151). -/
def execFrameReception (c : Nat) (f : RxFrame) (s : State) : Host.Outcome State Fault Refusal :=
  act s (fun d => receive d c f)

end Sys2Proof.Machine
end

