-- ==== Sys2Proof/Machine/Wheel.lean ====
section
/-! DEFINITION. The mill wheel (R206 to R210): what work each channel has, what it costs, and which piece the mill of a hamlet
completes next; with the lookup of a frame (R159 to R163), on which its cost depends. -/

namespace Sys2Proof.Machine

open Sys2Proof

/-- A mill serves the hamlet of the channel (R216, R222). -/
def served (d : Dev) (c : Nat) : Bool :=
  d.get (HAM_MILL_MILL (hamOf c)) != 0xF && !(d.ham (hamOf c)).mig.isSome && !(d.ham (hamOf c)).isolated

/-- The match key of a frame (R159). -/
def matchKey (c : Nat) (f : RxFrame) : Nat := c % 8 * 2 ^ 30 + f.ft * 2 ^ 27 + f.mid * 2 ^ 5 + f.src

/-- The bucket of a match key (R160). -/
def bucketOf (k : Nat) : Nat :=
  (k % 256 ^^^ k / 2 ^ 8 % 256) ^^^ (k / 2 ^ 16 % 256 ^^^ k / 2 ^ 24 % 256) ^^^ (k / 2 ^ 32 % 2 * 0x80)

/-- Word `j` of hashed entry `e` of hamlet `h` (R163, R169). -/
def hashWord (d : Dev) (h e j : Nat) : Nat := natOf (d.memB (d.get (HAM_FILTADDR_ADDR h) + 16 * e + 4 * j) 4)

/-- The hashed entry matches the key (R161). -/
def hashMatch (d : Dev) (h e k : Nat) : Bool :=
  let w0 := hashWord d h e 0
  bitOf w0 31 && bitsOf w0 30 28 == k / 2 ^ 30 && bitsOf w0 27 25 == k / 2 ^ 27 % 8
    && bitsOf w0 21 0 == k / 2 ^ 5 % 2 ^ 22 && bitsOf (hashWord d h e 1) 31 27 == k % 32

/-- The masked entry `i` of channel `c` matches the frame (R162). -/
def maskMatch (d : Dev) (c i : Nat) (f : RxFrame) : Bool :=
  let w0 := d.getW (CHX_MF c i 0)
  let m := bitsOf (d.getW (CHX_MF c i 1)) 29 0
  let v := f.ft * 2 ^ 27 + f.src * 2 ^ 22 + f.mid
  bitOf w0 31 && (bitsOf w0 29 0 &&& m) == (v &&& m)

/-- The match of a frame (R162): 0 with the hashed entry, 1 with the masked entry, 2 none; and the action block. -/
def lookupFrame (d : Dev) (c : Nat) (f : RxFrame) : Nat × Nat × Nat × Nat :=
  let h := hamOf c
  let k := matchKey c f
  let hit := if d.get (HAM_FILTADDR_ADDR h) = 0 then none
    else (List.range 4).find? (fun j => hashMatch d h (4 * bucketOf k + j) k)
  match hit with
  | some j => (0, 4 * bucketOf k + j, hashWord d h (4 * bucketOf k + j) 2, hashWord d h (4 * bucketOf k + j) 3)
  | none =>
    match (List.range 64).find? (fun i => maskMatch d c i f) with
    | some i => (1, i, d.getW (CHX_MF c i 2), d.getW (CHX_MF c i 3))
    | none => (2, 0, 0, 0)

/-- A map directory entry and a map entry with each field at the width of R309. -/
def PiMap.fit (m : PiMap) : PiMap := ⟨m.nrec % 128, m.age % 512, m.first % 65536, m.ch % 64, m.src % 32⟩
def PiEnt.fit (e : PiEnt) : PiEnt := ⟨e.fmt % 8, e.bit % 8, e.offset % 1024, e.record % 65536⟩

/-- The maps in force: those of the ACTIVE package (R286, R309). -/
def Dev.maps (d : Dev) : List PiMap := match d.flash.active with | some p => p.maps.map PiMap.fit | none => []
/-- The map entries in force. -/
def Dev.ents (d : Dev) : List PiEnt := match d.flash.active with | some p => p.ents.map PiEnt.fit | none => []

/-- The entries of a map, in entry order. -/
def mapEnts (d : Dev) (m : PiMap) : List PiEnt := (d.ents.drop m.first).take m.nrec

/-- Entry `a` goes before entry `b` in the scheduled window (R137). -/
def schedBefore (a b : TxEntry) : Bool := a.slot < b.slot || (a.slot == b.slot && a.idx < b.idx)

/-- Entry `a` goes before entry `b` in the arbitrated window (R138). -/
def arbBefore (a b : TxEntry) : Bool :=
  a.ec < b.ec || (a.ec == b.ec && (a.mid < b.mid || (a.mid == b.mid && a.idx < b.idx)))

/-- The first of a list in an order. -/
def firstBy (lt : TxEntry → TxEntry → Bool) : List TxEntry → Option TxEntry
  | [] => none
  | e :: l => some (l.foldl (fun best f => if lt f best then f else best) e)

/-- A piece of work of a channel (R207, R209): its tick-bound work, the copy of descriptor `i`, the oldest held frame. -/
inductive Piece where
  | tick
  | copy (i : Nat)
  | frame
  deriving DecidableEq, Repr

/-- An attempt of the entry in the tick in force needs a copy (R134, R207). -/
def needsCopy (d : Dev) (e : TxEntry) : Bool :=
  d.isHead && e.st == 1 && e.copy.isNone && (e.qt == 1 || (e.qt == 0 && e.window ≤ d.tick) || (e.qt == 2 && e.window == d.tick))

/-- The entries of a channel that need a copy. -/
def copyList (d : Dev) (c : Nat) : List TxEntry := (d.chan c).tx.filter (needsCopy d)

/-- The entry that the mill copies next: the scheduled ones go first, each kind in the order in which the head starts it (DESIGN
CHOICE: log entry 45). -/
def copyFirst (d : Dev) (c : Nat) : Option TxEntry :=
  match firstBy schedBefore ((copyList d c).filter (fun e => e.qt == 0)) with
  | some e => some e
  | none => firstBy arbBefore (copyList d c)

/-- The granules of a payload. -/
def granCount (len : Nat) : Nat := (len + 63) / 64

/-- The cycles of a copy of descriptor `i` (R134). -/
def copyCost (d : Dev) (i : Nat) : Nat := 16 + 8 * granCount (bitsOf (d.desc i 1) 25 16)

/-- The cycles that the BUF action of descriptor `i` takes: eight for each granule (R81). -/
def bufCost (d : Dev) (i : Nat) (f : RxFrame) : Nat := 8 * granCount (min f.len (bitsOf (d.desc i 0) 9 0))

/-- The cycles of an accepted frame with the action block `aw0`, `aw1` (R81). -/
def actionCost (d : Dev) (aw0 aw1 : Nat) (f : RxFrame) : Nat :=
  if bitsOf aw0 21 16 = 0 ∨ bitOf aw0 21 = true then 24
  else
    24 + (if bitOf aw0 16 then bufCost d (bitsOf aw0 13 0) f else 0)
      + (if bitOf aw0 17 then (match d.maps[bitsOf aw1 15 0]? with | some m => 4 * m.nrec | none => 0) else 0)
      + (if bitOf aw0 18 then 8 else 0) + (if bitOf aw0 19 then 8 * countBits (bitsOf aw1 31 24) 8 else 0)
      + (if bitOf aw0 20 then 4 else 0)

/-- The cycles of a held frame (R81). A confirmation, which no filter sees, costs what a match does (DEDUCED: log entry 45). -/
def frameCost (d : Dev) (c : Nat) (x : Held) : Nat :=
  if x.reason ≠ 0 ∨ asleepNode d c x.f.src = true then 16
  else if x.confirm = true then 24
  else
    match lookupFrame d c x.f with
    | (2, _, _, _) => 24 + (if d.get (CHX_RXCFG_NOMATCH c) = 1 then bufCost d (d.get (CHX_RXCFG_DEFDESC c)) x.f else 0)
    | (_, _, aw0, aw1) => actionCost d aw0 aw1 x.f

/-- The piece of work that a channel takes next in a slot it holds, with its cycles (R209, R210, R295). -/
def nextPiece (d : Dev) (c : Nat) : Option (Piece × Nat) :=
  if (d.chan c).aged = false then some (.tick, 32 + 8 * (d.chan c).descWork.length)
  else
    match copyFirst d c with
    | some e => some (.copy e.idx, copyCost d e.idx)
    | none =>
      match (d.chan c).hold with
      | x :: _ => some (.frame, frameCost d c x)
      | [] => none

/-- The core cycle since which a channel has had pending work (R207, R208). -/
def waitSince (d : Dev) (c : Nat) : Option Nat :=
  let l := (if (d.chan c).aged = false then [d.bell.cn] else []) ++ (copyList d c).map (fun e => e.since)
    ++ (d.chan c).hold.map (fun x => x.since)
  l.head?.map (fun t => l.foldl min t)

/-- The channel within hamlet `h` that has waited longest, the lowest on a tie (R208). -/
def longest (d : Dev) (h : Nat) : Option Nat :=
  (List.range 8).foldl (fun best i =>
    match waitSince d (8 * h + i), best with
    | none, _ => best
    | some _, none => some i
    | some t, some j => if t < (waitSince d (8 * h + j)).getD 0 then some i else best) none

/-- The channel within hamlet `h` that gets slot `k`: its owner, or the borrower (R206, R208). -/
def slotHolder (d : Dev) (h k : Nat) : Option Nat :=
  if (waitSince d (8 * h + k % 8)).isSome then some (k % 8) else longest d h

/-- The core cycle at which a wheel stands. -/
def Wheel.cycle (w : Wheel) : Nat := w.start + 64 * w.slot - w.left

/-- The wheel at a core cycle, when no piece has been worked on since it stood: the rest of a slot passes, and further slots pass
idle (log entry 45). -/
def Wheel.align (w : Wheel) (now : Nat) : Wheel :=
  if now ≤ w.cycle then w
  else if now < w.start + 64 * w.slot then { w with left := w.start + 64 * w.slot - now }
  else { w with slot := (now - w.start + 63) / 64, left := 0 }

/-- The wheel turns until a piece is complete: the channel within the hamlet, the piece, and the wheel then; none when no channel
has pending work. `n` bounds the slots. -/
def turnWheel (d : Dev) (h : Nat) : Nat → Wheel → Option (Nat × Piece × Wheel)
  | 0, _ => none
  | n + 1, w =>
    if w.left = 0 then
      match slotHolder d h w.slot with
      | none => none
      | some i => turnWheel d h n { w with holder := i, left := 64, used := w.used + 1,
                                           lent := w.lent + b2n (i != w.slot % 8), slot := w.slot + 1 }
    else
      match nextPiece d (8 * h + w.holder) with
      | none => turnWheel d h n { w with left := 0 }
      | some (p, cost) =>
        let rest := cost - elemAt 0 w.done w.holder
        if rest ≤ w.left then some (w.holder, p, { w with left := w.left - rest, done := putAt w.done w.holder 0 })
        else turnWheel d h n { w with left := 0, done := putAt w.done w.holder (elemAt 0 w.done w.holder + w.left) }

/-- Enough slots for a piece to be complete in: each channel gets one of eight, and a slot carries 64 cycles. -/
def slotBound (d : Dev) (h : Nat) : Nat :=
  4 + 2 * ((List.range 8).map (fun i => ((nextPiece d (8 * h + i)).map (fun p => p.2 / 64 + 2)).getD 0)).sum

/-- The piece of work that the mill of hamlet `h` completes next. -/
def wheelNext (d : Dev) (h : Nat) : Option (Nat × Piece × Wheel) :=
  turnWheel d h (slotBound d h) ((d.ham h).wheel.align d.aon.cycles)

/-- The mill of the channel's hamlet completes piece `p` of the channel: the cycles up to its last one pass, with the slots of the
wheel in them; none when the wheel does not come to that piece next. -/
def serve (d : Dev) (c : Nat) (p : Piece) : Option Dev :=
  if served d c = false then none
  else
    match wheelNext d (hamOf c) with
    | none => none
    | some (i, q, w) =>
      if 8 * hamOf c + i = c ∧ q = p then
        some ((d.pass (w.cycle - d.aon.cycles)).setHam (hamOf c) { (d.ham (hamOf c)) with wheel := w })
      else none

/-- The slots of the tick go into the registers at a commit point: HAM_WHEEL.LENT, and MILL_USE of the serving mill. -/
def noteSlots (d : Dev) (h : Nat) : Dev :=
  let w := (d.ham h).wheel
  let m := d.get (HAM_MILL_MILL h)
  let d := d.setHam h { (d.ham h) with wheel := { w with used := 0, lent := 0 } }
  let d := d.set (HAM_WHEEL_LENT h) (min w.lent 65535)
  if m = 0xF then d
  else
    let load := min (w.used * 100 / max 1 ((d.aon.cycles - d.bell.cn) / 64)) 255
    (d.set (MILL_USE_LOAD m) load).set (MILL_USE_PEAK m) (max (d.get (MILL_USE_PEAK m)) load)

end Sys2Proof.Machine
end

