-- ==== Sys2Proof/Machine/Place.lean ====
section
/-! DEFINITION. What the mill does with a held frame (06): the pinfold, and the BUF, PI, SOE, UPL and DB actions; and the releases of
what it has placed. -/

namespace Sys2Proof.Machine

open Sys2Proof

/-- The refusal event of R182 and R493. -/
def refusalEvent (d : Dev) (c w0 w1 : Nat) : Dev :=
  d.postAll (fun x => scopeSeg x.scope c) (d.evRec 6 (pCHX c) w0 w1)

/-- Entry `i` of the pinfold of hamlet `h` (R178). -/
def writePf (d : Dev) (h i : Nat) (ws : List Nat) : Dev :=
  d.forEach ws.zipIdx (fun d wj => d.setW (HAM_PF h i wj.2) wj.1)

/-- A refused frame in the pinfold (R178 to R182), or counted only (R180). -/
def pinfold (d : Dev) (c : Nat) (x : Held) : Dev :=
  let h := hamOf c
  let f := x.f
  let d := if x.reason = 1 then d.inc (CHX_REFCNT_UNTAG c)
    else if x.reason = 2 ∨ x.reason = 4 then d.inc (CHX_REFCNT_TAG c)
    else if x.reason = 3 then d.inc (CHX_REFCNT_REPLAY c)
    else d.inc (CHX_REFCNT_FENCED c)
  if x.reason = 5 ∧ d.get (HAM_PFCTL_FENCEPF h) = 0 then d
  else
    let full := 64 ≤ d.get (HAM_PFSTAT_FILL h)
    let d := d.iff full (fun d => (d.inc (HAM_PFSTAT_LOST h)).ist (pHAM h) 9)
    if full ∧ d.get (HAM_PFCTL_OVW h) = 0 then d
    else
      let d := if full then
          (d.set (HAM_PFSTAT_RD h) ((d.get (HAM_PFSTAT_RD h) + 1) % 64)).set (HAM_PFSTAT_FILL h) 63
        else d
      let i := (d.get (HAM_PFSTAT_RD h) + d.get (HAM_PFSTAT_FILL h)) % 64
      let w0 := pfW0 x.reason c f.ft f.a f.src f.seq
      let w1 := pfW1 f.c f.mid
      let tag := if f.a then f.tag.toNat else 0
      let d := writePf d h i [w0, w1, x.epoch * 2 ^ 16 + f.len, x.vtick % 2 ^ 32, x.ns, tag / 2 ^ 32, tag % 2 ^ 32, f.crc]
      refusalEvent ((d.set (HAM_PFSTAT_FILL h) (d.get (HAM_PFSTAT_FILL h) + 1)).ist (pHAM h) 8) c w0 w1

/-- Word 0 of a slot head (R172). -/
def slotW0 (f : RxFrame) (stale : Bool) : Nat :=
  f.ft * 2 ^ 29 + b2n f.a * 2 ^ 28 + b2n stale * 2 ^ 27 + f.src * 2 ^ 22 + f.mid

/-- The payload in its granules: the bytes of the last granule beyond it are open (R173; log entry 6). -/
def putPayload (d : Dev) (g : Nat) (l : List Byte) : Dev :=
  let n := (l.length + 63) / 64 * 64 - l.length
  let fill := (List.range n).map (fun i => Config.freeByte d.fresh (granAddr g + l.length + i))
  if n = 0 then d.setMemB (granAddr g) l else (d.setMemB (granAddr g) (l ++ fill)).next

/-- Placement of a frame in receive descriptor `i` (R173, R175, R177): the device, and the slot written. `ecc` is an uncorrectable
error in the placement, which is then abandoned. DEFDESC of a frame without a match is held to the same conditions as the descriptor
of a match, and a mailbox counts the slots of its DEPTH as a FIFO does (DESIGN CHOICE: log entry 46). -/
def placeBuf (d : Dev) (c i : Nat) (x : Held) (ecc : Bool) : Dev × Option Nat :=
  let w0 := d.desc i 0
  let maxlen := bitsOf w0 9 0
  let depth := bitsOf w0 23 16
  let sg := (maxlen + 63) / 64
  let gran := bitsOf (d.desc i 1) 16 0
  if i < d.get (CHX_RXRANGE_BASE c) ∨ d.get (CHX_RXRANGE_BASE c) + d.get (CHX_RXRANGE_CNT c) ≤ i
      ∨ 2 ≤ bitsOf w0 31 30 ∨ depth = 0 ∨ 512 < maxlen ∨ 98304 < gran + depth * sg then
    (raise d (pCHX c) 0, none)
  else if ecc = true then (raise d (pCHX c) 1, none)
  else
    let w3 := d.desc i 3
    let wr := bitsOf w3 31 24
    let full := depth ≤ bitsOf w3 15 8
    let ovf := if full then min (bitsOf w3 7 0 + 1) 255 else bitsOf w3 7 0
    let d := d.iff full (fun d => (d.inc (CHX_OVFCNT_OVF c)).ist (pCHX c) 1)
    if full ∧ bitOf w0 29 = false then (d.setDesc i 3 (putBits w3 7 0 ovf), none)
    else
      let rd := if full then (bitsOf w3 23 16 + 1) % depth else bitsOf w3 23 16
      let fill := (if full then bitsOf w3 15 8 - 1 else bitsOf w3 15 8) + 1
      let f := x.f
      let l := min f.len maxlen
      let d := d.iff (maxlen < f.len) (fun d => d.inc (CHX_OVFCNT_TRUNC c))
      let d := putPayload d (gran + wr * sg) (f.payload.take l)
      let hd := natOf (d.memB (16 * i + 8) 4) + 16 * wr
      let d := d.setMemB hd (bytesOf (slotW0 f x.late)
        ++ bytesOf (f.seq * 2 ^ 16 + b2n (decide (maxlen < f.len)) * 2 ^ 15 + f.len)
        ++ bytesOf (x.tick % 2 ^ 32) ++ bytesOf x.ns)
      let d := d.setDesc i 3 ((wr + 1) % depth * 2 ^ 24 + rd * 2 ^ 16 + fill * 2 ^ 8 + ovf)
      let d := d.inc (CHX_RXCNT_COUNT c)
      (d.iff (bitOf w0 28) (fun d => d.ist (pCHX c) 0), some wr)

/-- Number of payload bytes of a map entry (R309). -/
def fmtWidth (fmt : Nat) : Nat := if fmt = 0 then 1 else if fmt = 1 then 2 else if fmt = 2 then 4 else if fmt = 3 then 8 else 1

/-- The value of a map entry, 64 bits wide with V0 in its upper word, and whether the payload ends before it (R310). -/
def entValue (e : PiEnt) (f : RxFrame) : Nat × Bool :=
  let w := fmtWidth e.fmt
  if f.len < e.offset + w then (0, true)
  else
    let v := natOf ((f.payload.drop e.offset).take w)
    if e.fmt = 3 then (v, false)
    else if e.fmt = 4 then (b2n (bitOf v e.bit) * 2 ^ 32, false)
    else (v * 2 ^ 32, false)

/-- A record of the process image written by a mill (R307, R310 to R312). -/
def writeRecord (d : Dev) (h r v qual tick ns : Nat) : Dev :=
  let front := 0xA00000 + 16 * r
  let back := 0xB00000 + 16 * r
  let same := d.memW front == v / 2 ^ 32 && d.memW (front + 4) == v % 2 ^ 32 && bitsOf (d.memW (front + 8)) 31 24 == qual
  let d := (((d.setMemW back (v / 2 ^ 32)).setMemW (back + 4) (v % 2 ^ 32)).setMemW (back + 8)
    (qual * 2 ^ 24 + tick % 2 ^ 24)).setMemW (back + 12) ns
  let d := { d with svc := { d.svc with
    dirty := putKey r h d.svc.dirty,
    changed := if same then d.svc.changed.filter (· != r) else insertNat r d.svc.changed } }
  d.inc SVC_PIWR_COUNT

/-- The PI action (R310). -/
def piAction (d : Dev) (c m : Nat) (x : Held) : Dev :=
  match d.maps[m]? with
  | none => d.inc SVC_BADMAP_COUNT
  | some mp =>
    d.forEach (mapEnts d mp) (fun d e =>
      if 5 ≤ e.fmt then d.inc SVC_BADMAP_COUNT
      else
        let (v, trunc) := entValue e x.f
        writeRecord d (hamOf c) e.record v (b2n x.late + b2n (!x.f.a) * 16 + b2n trunc * 32) x.tick x.ns)

/-- The SOE action: an entry of the sequence-of-events ring (R319 to R323). -/
def soeAction (d : Dev) (c : Nat) (x : Held) : Dev :=
  let full := 65536 ≤ d.get SVC_SOEFILL_FILL
  let d := d.iff full (fun d => (d.inc SVC_SOELOST_COUNT).ist 0x52 1)
  if full ∧ d.get SVC_SOECFG_OVW = 0 then d
  else
    let d := if full then
        (d.set SVC_SOESTAT_RD ((d.get SVC_SOESTAT_RD + 1) % 65536)).set SVC_SOEFILL_FILL 65535
      else d
    let i := d.get SVC_SOESTAT_WR
    let f := x.f
    let b (n : Nat) : Nat := if n < f.len then (elemAt 0#8 f.payload n).toNat else 0
    let d := d.setMemB (0x100000 + 16 * i) (bytesOf (x.sec % 2 ^ 32)
      ++ bytesOf (b2n x.late * 2 ^ 31 + b2n x.holdover * 2 ^ 30 + x.ns)
      ++ bytesOf (c * 2 ^ 26 + f.src * 2 ^ 21 + f.ft * 2 ^ 18 + b 0 * 2 ^ 8 + b 1)
      ++ bytesOf (f.mid * 2 ^ 10 + f.len))
    let d := (d.set SVC_SOESTAT_WR ((i + 1) % 65536)).set SVC_SOEFILL_FILL (d.get SVC_SOEFILL_FILL + 1)
    let d := (d.inc SVC_SOEWR_COUNT).ist 0x52 0
    { d with svc := { d.svc with soeNow := d.svc.soeNow ++ [i] } }

/-- The UPL action: one record in each host event queue that UPLQ names (R167). -/
def uplAction (d : Dev) (src uplq w0 w3 : Nat) : Dev :=
  d.forEach ((List.range 8).filter (fun q => bitOf uplq q)) (fun d q => d.post q (d.evRec 1 src w0 w3))

/-- The actions of a match, in the order of R165. -/
def actions (d : Dev) (c aw0 aw1 : Nat) (x : Held) (ecc : Bool) : Dev :=
  let i := bitsOf aw0 13 0
  let (d, slot) := if bitOf aw0 16 then placeBuf d c i x ecc else (d, none)
  let d := if bitOf aw0 17 then piAction d c (bitsOf aw1 15 0) x else d
  let d := if bitOf aw0 18 then soeAction d c x else d
  let w3 := match slot with | some s => s * 2 ^ 16 + i | none => 0
  let d := if bitOf aw0 19 then uplAction d (bitsOf aw0 31 22) (bitsOf aw1 31 24) (slotW0 x.f x.late) w3 else d
  if bitOf aw0 20 then intcRaise d (bitsOf aw0 31 22) w3 else d

/-- Frame `f` confirms the pending epoch of its node (R249). -/
def confirms (d : Dev) (c : Nat) (f : RxFrame) : Bool :=
  match pendingKey d c f.src with
  | none => false
  | some k => ((slotKey d c k).map (fun x => x.id)) == some (natOf (f.payload.take 2))

/-- Node `a` has confirmed the pending epoch: its bit is set, or its confirmation was delivered up to the last commit point and
waits for the mill (R256; DEDUCED: log entry 50). -/
def hasConfirmed (d : Dev) (c a : Nat) : Bool :=
  d.bit (CHX_CONFIRM c) a || (d.chan c).hold.any (fun x =>
    x.confirm && x.reason == 0 && x.f.src == a && decide (x.since ≤ d.bell.cn) && confirms d c x.f)

/-- Every enrolled node of the channel that is awake and not fenced satisfies `p`. -/
def everyNode (d : Dev) (c : Nat) (p : Nat → Bool) : Bool :=
  d.sec.vault.all (fun e => e.1 != c || asleepNode d c e.2.1 || fenced d c e.2.1 || p e.2.1)

/-- Every enrolled node of the channel that is awake and not fenced has confirmed (R250). -/
def allConfirmed (d : Dev) (c : Nat) : Bool := everyNode d c (hasConfirmed d c)

/-- A delivered confirmation (R249). -/
def confirm (d : Dev) (c : Nat) (f : RxFrame) : Dev :=
  if confirms d c f = true then
    let before := everyNode d c (d.bit (CHX_CONFIRM c))
    let d := d.setBit (CHX_CONFIRM c) f.src true
    d.iff ((d.chan c).next.isSome && !before && everyNode d c (d.bit (CHX_CONFIRM c))) (fun d => d.ist (pCHX c) 7)
  else d

/-- Checks 10 and 11 of R151 on an accepted frame. An uncorrectable error in a hashed entry discards the frame (FILT_MEM). -/
def placeAccepted (d : Dev) (c : Nat) (x : Held) (e : MemErr) : Dev :=
  if asleepNode d c x.f.src = true then d.inc (CHX_LOSSCNT_IGNQ c)
  else if x.confirm = true then confirm d c x.f
  else if e = .entry ∧ d.get (HAM_FILTADDR_ADDR (hamOf c)) ≠ 0 then raise d (pHAM (hamOf c)) 8
  else
    let (kind, i, aw0, aw1) := lookupFrame d c x.f
    if kind = 2 then
      let d := (d.inc (CHX_MISSCNT_NOMATCH c)).ist (pCHX c) 2
      if d.get (CHX_RXCFG_NOMATCH c) = 1 then (placeBuf d c (d.get (CHX_RXCFG_DEFDESC c)) x (e == .slot)).1 else d
    else
      let d := if kind = 0 then d.inc (CHX_MATCH_HASH c) else (d.inc (CHX_MATCH_MASK c)).inc (CHX_MHIT_COUNT c i)
      if bitsOf aw0 21 16 = 0 ∨ bitOf aw0 21 = true then d.inc (CHX_MISSCNT_DROP c)
      else actions d c aw0 aw1 x (e == .slot)

/-- What the mill does with the oldest held frame of the channel (R158, R162); the frame leaves the hold FIFO with it (R213). -/
def placeHeld (d : Dev) (c : Nat) (e : MemErr) : Dev :=
  match (d.chan c).hold with
  | [] => d
  | x :: rest =>
    let d := d.modChan c (fun y => { y with hold := rest })
    let d := if x.reason ≠ 0 then pinfold d c x else placeAccepted d c x e
    { d with bell := { d.bell with closed := d.nowNs } }

/-- FRAME_PLACEMENT (R162): the mill has taken the oldest held frame of the channel in its wheel slots (R209). -/
def placement (d : Dev) (c : Nat) (e : MemErr) : Dev :=
  if d.hasChan c = false ∨ d.get DEV_VIGSTAT_STATE ≠ 0 then d
  else
    match serve d c .frame with
    | some d => placeHeld d c e
    | none => d

/-- Slots of receive descriptor `i` released (R174). -/
def rxrelOp (d : Dev) (c i n : Nat) : Dev :=
  if i < d.get (CHX_RXRANGE_BASE c) ∨ d.get (CHX_RXRANGE_BASE c) + d.get (CHX_RXRANGE_CNT c) ≤ i then d
  else
    let w3 := d.desc i 3
    let depth := bitsOf (d.desc i 0) 23 16
    let n := min n (bitsOf w3 15 8)
    if depth = 0 then d
    else d.setDesc i 3 (putBits (putBits w3 23 16 ((bitsOf w3 23 16 + n) % depth)) 15 8 (bitsOf w3 15 8 - n))

/-- Pinfold entries released (R182). -/
def pfpopOp (d : Dev) (h n : Nat) : Dev :=
  let n := min n (d.get (HAM_PFSTAT_FILL h))
  (d.set (HAM_PFSTAT_RD h) ((d.get (HAM_PFSTAT_RD h) + n) % 64)).set (HAM_PFSTAT_FILL h) (d.get (HAM_PFSTAT_FILL h) - n)

/-- Sequence-of-events entries released (R323). -/
def soerelOp (d : Dev) (n : Nat) : Dev :=
  let n := min n (d.get SVC_SOEFILL_FILL)
  (d.set SVC_SOESTAT_RD ((d.get SVC_SOESTAT_RD + n) % 65536)).set SVC_SOEFILL_FILL (d.get SVC_SOEFILL_FILL - n)

/-- FRAME_PLACEMENT (R162). -/
def execFramePlacement (x : PlaceWork) (s : State) : Host.Outcome State Fault Refusal :=
  act s (fun d => placement d x.ch x.err)

end Sys2Proof.Machine
end

