-- ==== Sys2Proof/Machine/Layouts.lean ====
section
/-! DEFINITION. What the bytes of a signed body say: pennants and their operands (R263, R276, R277), HELLO and ACCEPT bodies
(R268, R269), packages with their sections (R284, R285, R309, R331, R430), and the sections as an image area holds them (R286). Signature
checks and the ML-KEM and ECDH calculations are those of Config (log entry 8). -/

namespace Sys2Proof.Machine

open Sys2Proof

/-- Bytes `[off, off + n)` of a list. -/
def bytesAt (l : List Byte) (off n : Nat) : List Byte := (l.drop off).take n

/-- The number in bytes `[off, off + n)`, most significant byte first (R263, R284). -/
def numAt (l : List Byte) (off n : Nat) : Nat := natOf (bytesAt l off n)

/-- Bytes `[off, off + n)` are zero. -/
def zerosAt (l : List Byte) (off n : Nat) : Bool := (bytesAt l off n).all (fun b => b == 0#8)

/-- Groups of `n` bytes, as many as `k`. -/
def byteGroups (n : Nat) : Nat → List Byte → List (List Byte)
  | 0, _ => []
  | k + 1, l => l.take n :: byteGroups n k (l.drop n)

/-- Lengths of the keys and signatures of R263: ML-DSA-65 and EC public key, ML-DSA-65 and EC signature. -/
def lenMldsa : Nat := 1952
def lenEc : Nat := 97
def lenSigMldsa : Nat := 3309
def lenSigEc : Nat := 96

/-- Both keys and both signatures. -/
def lenTail : Nat := lenMldsa + lenEc + lenSigMldsa + lenSigEc

/-- ASCII DUNURA-PENNANT and DUNURA-GLONATH (R263, R284). -/
def ctxPennant : List Byte := [0x44, 0x55, 0x4E, 0x55, 0x52, 0x41, 0x2D, 0x50, 0x45, 0x4E, 0x4E, 0x41, 0x4E, 0x54]
def ctxGlonath : List Byte := [0x44, 0x55, 0x4E, 0x55, 0x52, 0x41, 0x2D, 0x47, 0x4C, 0x4F, 0x4E, 0x41, 0x54, 0x48]

/-- The hash of an ML-DSA-65 and an EC public key that stand one after the other at `off` (R260, R263). -/
def keyHashAt (l : List Byte) (off : Nat) : BitVec 384 := sha384 (bytesAt l off (lenMldsa + lenEc))

/-- Both signatures at `sig` over the bytes before `upto` verify under the two keys at `key` (R264, R268, R284). -/
def signedAt (l : List Byte) (key upto sig : Nat) (ctx : List Byte) : Bool :=
  Config.verify 0 (bytesAt l key lenMldsa) (l.take upto) ctx (bytesAt l sig lenSigMldsa)
    && Config.verify 1 (bytesAt l (key + lenMldsa) lenEc) (l.take upto) [] (bytesAt l (sig + lenSigMldsa) lenSigEc)

/-- The identity hash and its prefix (R262). -/
def Otp.idHash (o : Otp) : BitVec 384 := sha384 o.idPub.flatten
def Otp.devId (o : Otp) : BitVec 128 := BitVec.ofNat 128 (o.idHash.toNat / 2 ^ 256)

/-- The bytes of SEC_IDPUB from +0x040 on: each public key filled with zero bytes to a word boundary (10). -/
def Otp.pubBytes (o : Otp) : List Byte := o.idPub.flatMap (fun k => fitBytes ((k.length + 3) / 4 * 4) k)

/-- Operand length of an operation (R276): none when the opcode is not listed. -/
def opLen (code : Nat) : Nat :=
  if code = 1 then 54 else if code = 2 ∨ code = 0x30 then 48 else if code = 0x10 then 1232
  else if code = 0x11 ∨ code = 0x13 ∨ code = 0x20 then 2 else if code = 0x50 then 8 else if code = 0x51 then 1
  else if code = 0x52 then 49 else 0

/-- The key-encryption key of an ENROLL operand (R277). -/
def enrollKek (o : Otp) (seq : Nat) (op : List Byte) : BitVec 256 :=
  kdfExpand (kdfExtract (List.replicate 48 0#8)
      (Config.decapsulate (elemAt [] o.idPriv 2) (bytesAt op 4 1088) ++ Config.ecdh (elemAt [] o.idPriv 3) (bytesAt op 1092 lenEc)))
    labelEnroll (bytesMsb o.devId.toNat 16 ++ op.take 2 ++ bytesMsb seq 8)

/-- The operand of an operation (R276). -/
def parseOperand (o : Otp) (code seq : Nat) (op : List Byte) : Operand :=
  if op.length ≠ opLen code then .noMatch
  else if code = 0x01 then .digestTick (BitVec.ofNat 384 (numAt op 0 48)) (numAt op 48 6)
  else if code = 0x02 ∨ code = 0x30 then .digest (BitVec.ofNat 384 (numAt op 0 48))
  else if code = 0x10 then
    (if zerosAt op 2 2 = false ∨ zerosAt op 1189 3 = false then .noMatch
     else
       let r := unwrap3394 (enrollKek o seq op) ((byteGroups 8 5 (bytesAt op 1192 40)).map natOf)
       .enroll (numAt op 0 1) (numAt op 1 1) (blocksKey r.1) r.2)
  else if code = 0x11 ∨ code = 0x13 then .chNode (numAt op 0 1) (numAt op 1 1)
  else if code = 0x20 then .page (numAt op 0 2)
  else if code = 0x50 then .floor (numAt op 0 8)
  else if code = 0x51 then .slot (numAt op 0 1)
  else if code = 0x52 then .slotHash (numAt op 0 1) (BitVec.ofNat 384 (numAt op 1 48))
  else .none

/-- The scope that a pennant gives (R263): page p is bit p mod 8 of byte 112 + p / 8. -/
def parseScope (l : List Byte) : Scope :=
  { priv := if numAt l 3 1 = 0 then .u else if numAt l 3 1 = 1 then .s else .k,
    segments := BitVec.ofNat 64 (numAt l 96 8), pages := BitVec.ofNat 512 (natOf (bytesAt l 112 64).reverse),
    midr := (List.range (min 8 (numAt l 108 1))).map (fun i => (numAt l (176 + 8 * i) 4 % 2 ^ 22, numAt l (180 + 8 * i) 4 % 2 ^ 22)),
    svcops := BitVec.ofNat 32 (numAt l 104 4) }

/-- The pennant that bytes spell (R263, R264). -/
def parsePennant (o : Otp) (l : List Byte) : Pennant :=
  let kind := numAt l 1 1
  let code := numAt l 92 2
  let n := numAt l 94 2
  let seq := numAt l 4 8
  let key := 256 + n
  { pver := numAt l 0 1, kind := kind, auth := numAt l 2 1, seq := seq, notBefore := numAt l 12 8, notAfter := numAt l 20 8,
    device := BitVec.ofNat 128 (numAt l 28 16), host := BitVec.ofNat 384 (numAt l 44 48), opcode := code,
    operand := if kind = 1 then (if n = 0 then .none else .noMatch) else parseOperand o code seq (bytesAt l 256 n),
    scope := parseScope l,
    formOk := decide (numAt l 108 1 ≤ 8) && decide (n ≤ 1280) && l.length == 256 + n + lenTail && zerosAt l 109 3 && zerosAt l 240 16,
    apkHash := keyHashAt l key, sigOk := signedAt l key (key + lenMldsa + lenEc) (key + lenMldsa + lenEc) ctxPennant }

/-- The HELLO that a body spells (R268). A body of another length holds no pennant of the right form. -/
def parseHello (o : Otp) (l : List Byte) (xid : Nat) : Hello :=
  let p := parsePennant o (l.take 5710)
  { pennant := { p with formOk := p.formOk && l.length == 12477 }, hostHash := keyHashAt l 5710,
    hostSigOk := signedAt l 5710 9072 9072 [], kemKey := bytesAt l 7759 1184, ecdhKey := bytesAt l 8943 lenEc,
    nonce := bytesAt l 9040 32, bodyHash := sha384 l, xid := xid }

/-- The draw `n` of the random source, `len` bytes of it (R282). -/
def randomBytes (n len : Nat) : List Byte := (List.range len).map (Config.randomByte n)

/-- The key agreement of an ACCEPT with the draw `n` (R269, R270): the ML-KEM ciphertext, the device's ephemeral ECDH key, the nonce ND,
and the key extracted from the shared secret. -/
def agree (h : Hello) (n : Nat) : List Byte × List Byte × List Byte × BitVec 384 :=
  let kem := Config.encapsulate h.kemKey n
  let pair := Config.keyPair 3 n
  let nd := randomBytes n 32
  (fitBytes 1088 kem.1, fitBytes lenEc pair.2, nd, kdfExtract (h.nonce ++ nd) (kem.2 ++ Config.ecdh pair.1 h.ecdhKey))

/-- The body of an ACCEPT (R269): 4,626 bytes. The identity signatures cover SHA-384 of the HELLO body and then the bytes before them
(DEDUCED: log entry 54). -/
def acceptBody (o : Otp) (h : Hello) (s n : Nat) : List Byte :=
  let k := agree h n
  let front := [BitVec.ofNat 8 s, 0#8, 0#8, 0#8] ++ k.1 ++ k.2.1 ++ k.2.2.1
  let msg := hashBytes h.bodyHash ++ front
  front ++ fitBytes lenSigMldsa (Config.sign 0 (elemAt [] o.idPriv 0) msg n)
    ++ fitBytes lenSigEc (Config.sign 1 (elemAt [] o.idPriv 1) msg n)

/-- The four identity key pairs from the draw `n`, in the order of SEC_IDPUB (R259, R262). -/
def identityKeys (n : Nat) : List (List Byte × List Byte) :=
  [(0, lenMldsa), (1, lenEc), (2, 1184), (3, lenEc)].map (fun e =>
    let k := Config.keyPair e.1 n
    (k.1, fitBytes e.2 k.2))

/-- A section table entry (R284): TYPE, bytes 2 to 3, OFFSET, LENGTH, bytes 12 to 15. -/
structure SectEnt where
  type : Nat
  rsvd2 : Nat
  off : Nat
  len : Nat
  rsvd12 : Nat
  deriving DecidableEq, Repr

/-- The section table of a package. -/
def sectTable (l : List Byte) : List SectEnt :=
  (List.range (numAt l 92 2)).map (fun k =>
    let a := 128 + 16 * k
    ⟨numAt l a 2, numAt l (a + 2) 2, numAt l (a + 4) 4, numAt l (a + 8) 4, numAt l (a + 12) 4⟩)

/-- The bytes of the section of a type; none when the package has no such section. -/
def sectBytes? (l : List Byte) (t : Nat) : Option (List Byte) :=
  ((sectTable l).find? (fun e => e.type == t)).map (fun e => bytesAt l e.off e.len)

/-- The bytes of a section, none when there is no such section. -/
def sectionOf (l : List Byte) (t : Nat) : List Byte := (sectBytes? l t).getD []

/-- Check 1 of R291: header and section table as in R284, sections between the table and the signature block, none on another, each
type once, types 1 to 4 present (R285). -/
def packageForm (l : List Byte) : Bool :=
  let total := numAt l 80 4
  let n := numAt l 92 2
  let t := sectTable l
  numAt l 0 4 == 0x474C4E31 && numAt l 4 1 == 1 && decide (4 ≤ n) && decide (n ≤ 8) && zerosAt l 7 1 && zerosAt l 94 34
    && l.length == total
    && t.all (fun e => decide (1 ≤ e.type) && decide (e.type ≤ 8) && e.rsvd2 == 0 && e.rsvd12 == 0
      && decide (128 + 16 * n ≤ e.off) && decide (e.off + e.len + lenTail ≤ total))
    && decide ((t.map (fun e => e.type)).Nodup) && [1, 2, 3, 4].all (fun x => t.any (fun e => e.type == x))
    && t.all (fun e => t.all (fun f => e.type == f.type || e.len == 0 || f.len == 0 || decide (e.off + e.len ≤ f.off)
      || decide (f.off + f.len ≤ e.off)))

/-- The pairs of a REGS section. -/
def parseRegs (l : List Byte) : List (Nat × Word) :=
  (byteGroups 8 (l.length / 8) l).map (fun e => (numAt e 0 4, word (numAt e 4 4)))

/-- Registers that a package commit sets although no host writes them: DEV_BPERIOD and CHC_WIN (R285). -/
def setByCommit (p off : Nat) : Bool := (p == 2 && off == 0x040) || (0x100 ≤ p && p % 4 == 0 && off == 0x0C0)

/-- The byte offsets of the words of a register row. -/
def rowOffsets (r : RegRow) : List Nat :=
  (List.range (max 1 r.n1)).flatMap (fun i => (List.range (max 1 r.n2)).map (fun j => r.off + r.s1 * i + r.s2 * j))

/-- The registers that a REGS section names: one for every register of every populated page that holds an RWS field, an RWP field or a
field set by package commit (R285). -/
def packageRegs (v : Variant) : List Nat :=
  ((List.range 512).filter (populated v)).flatMap (fun p =>
    ((rows_hdr ++ blockRows p).filter (fun r => r.acc.any (fun f => f.1 == .rws || f.1 == .rwp) || setByCommit p r.off)).flatMap
      (fun r => (rowOffsets r).map (fun off => 0x2000000 + 0x1000 * p + off)))

/-- Numbers rise strictly. -/
def rising : List Nat → Bool
  | a :: b :: l => a < b && rising (b :: l)
  | _ => true

/-- The REGS section is complete and in order (R285). -/
def regsOk (v : Variant) (l : List Byte) : Bool :=
  let r := (parseRegs l).map (fun e => e.1)
  l.length % 8 == 0 && rising r && (packageRegs v).all (fun a => r.contains a)

/-- The hashed filter entries of an HFILT section that are not all zero (R163, R285): 1,024 entries of 16 bytes for each hamlet. -/
def parseHfilt (l : List Byte) : List HashEntry :=
  ((byteGroups 16 (l.length / 16) l).zipIdx.filter (fun e => !zerosAt e.1 0 16)).map (fun e =>
    ⟨e.2 / 1024, e.2 % 1024, word (numAt e.1 0 4), word (numAt e.1 4 4), word (numAt e.1 8 4), word (numAt e.1 12 4)⟩)

/-- One channel of a DESC section as bytes (DESIGN CHOICE, log entry 49: R285 gives contents and order only): the four range fields of
16 bits, then words 0 to 2 of each receive descriptor. -/
def descBytes (e : ChanDesc) : List Byte :=
  bytesMsb e.txBase 2 ++ bytesMsb e.txCnt 2 ++ bytesMsb e.rxBase 2 ++ bytesMsb e.rxCnt 2
    ++ e.rx.flatMap (fun r => bytesOf r.w0.toNat ++ bytesOf r.w1.toNat ++ bytesOf r.w2.toNat)

/-- The channels of a DESC section from channel `c` on, `n` of them, and what is left of it; none when it ends too early. -/
def parseDesc : Nat → Nat → List Byte → Option (List ChanDesc × List Byte)
  | 0, _, l => some ([], l)
  | n + 1, c, l =>
    let base := numAt l 4 2
    let cnt := numAt l 6 2
    if l.length < 8 + 12 * cnt then none
    else
      let rx := (byteGroups 12 cnt (l.drop 8)).zipIdx.map (fun e =>
        (⟨base + e.2, word (numAt e.1 0 4), word (numAt e.1 4 4), word (numAt e.1 8 4)⟩ : RxDescInit))
      (parseDesc n (c + 1) (l.drop (8 + 12 * cnt))).map (fun r => (⟨c, numAt l 0 2, numAt l 2 2, base, cnt, rx⟩ :: r.1, r.2))

/-- One channel of a NODES section as bytes (DESIGN CHOICE, log entry 49): the node set in bits 31:1 of a word, then a group of four bits
for each address from 0 to 31. -/
def nodesBytes (e : ChanNodes) : List Byte :=
  bytesOf e.mask ++ (List.range 16).map (fun i => BitVec.ofNat 8 (lookupD 0 (2 * i) e.groups * 16 + lookupD 0 (2 * i + 1) e.groups))

/-- The channels of a NODES section. -/
def parseNodes (l : List Byte) : List ChanNodes :=
  (byteGroups 20 (l.length / 20) l).zipIdx.map (fun e =>
    let mask := numAt e.1 0 4 / 2 * 2
    ⟨e.2, mask, ((List.range 32).filter (bitOf mask)).map (fun a =>
      (a, numAt e.1 (4 + a / 2) 1 / (if a % 2 = 0 then 16 else 1) % 8))⟩)

/-- The two words of a map directory entry, and a map entry as a word (R309). -/
def mapBytes (m : PiMap) : List Byte :=
  bytesOf (m.nrec * 2 ^ 25 + m.age * 2 ^ 16 + m.first) ++ bytesOf (m.ch * 2 ^ 26 + m.src * 2 ^ 21)
def entBytes (e : PiEnt) : List Byte := bytesOf (e.fmt * 2 ^ 29 + e.bit * 2 ^ 26 + e.offset * 2 ^ 16 + e.record)

/-- A PIMAP section as bytes (R309). -/
def pimapBytes (maps : List PiMap) (ents : List PiEnt) : List Byte :=
  bytesOf maps.length ++ bytesOf ents.length ++ maps.flatMap mapBytes ++ ents.flatMap entBytes

/-- The maps and the map entries of a PIMAP section (R309). -/
def parseMaps (l : List Byte) : List PiMap :=
  (byteGroups 8 (numAt l 0 4) (l.drop 8)).map (fun e =>
    let w0 := numAt e 0 4
    let w1 := numAt e 4 4
    ⟨bitsOf w0 31 25, bitsOf w0 24 16, bitsOf w0 15 0, bitsOf w1 31 26, bitsOf w1 25 21⟩)
def parseEnts (l : List Byte) : List PiEnt :=
  (byteGroups 4 (numAt l 4 4) (l.drop (8 + 8 * numAt l 0 4))).map (fun e =>
    let w := numAt e 0 4
    ⟨bitsOf w 31 29, bitsOf w 28 26, bitsOf w 25 16, bitsOf w 15 0⟩)

/-- The SVC section's entry of a channel as bytes (R331). -/
def svcBytes (e : SvcRange) : List Byte := bytesMsb e.toBase 2 ++ bytesMsb e.toCnt 2 ++ bytesOf e.toGran

/-- The entries of an SVC section (R331). -/
def parseSvc (l : List Byte) : List SvcRange :=
  (byteGroups 8 (l.length / 8) l).zipIdx.map (fun e => ⟨e.2, numAt e.1 0 2, numAt e.1 2 2, numAt e.1 4 4⟩)

/-- Entries 16 to 255 of a GATE section (R430). -/
def parseGate (l : List Byte) : List (Nat × Word × Word) :=
  (byteGroups 8 (l.length / 8) l).zipIdx.map (fun e => (16 + e.2, word (numAt e.1 0 4), word (numAt e.1 4 4)))

/-- Check 9 of R291 but for the table of a GATE section: every section that the device expands is of the length that R285, R309, R331
and R430 give it, the ranges lie among the 16,384 descriptors, and REGS is complete and in order (DESIGN CHOICE, log entry 49: R291
gives no check of that). -/
def sectionsFit (v : Variant) (l : List Byte) : Bool :=
  let ch := Variant.channels v
  let pi := sectionOf l 5
  regsOk v (sectionOf l 1) && (sectionOf l 2).length == 16384 * Variant.hamlets v
    && (match parseDesc ch 0 (sectionOf l 3) with
        | some (ds, []) => ds.all (fun e => decide (e.txBase + e.txCnt ≤ 16384) && decide (e.rxBase + e.rxCnt ≤ 16384))
        | _ => false)
    && (sectionOf l 4).length == 20 * ch
    && ((sectBytes? l 5).isNone || (decide (numAt pi 0 4 ≤ 8192) && decide (numAt pi 4 4 ≤ 65536)
      && pi.length == 8 + 8 * numAt pi 0 4 + 4 * numAt pi 4 4))
    && ((sectBytes? l 6).isNone || (sectionOf l 6).length == 8 * ch) && ((sectBytes? l 7).isNone || (sectionOf l 7).length == 1920)

/-- The package that bytes spell on a variant (R284, R285). -/
def parsePackage (v : Variant) (l : List Byte) : Package :=
  let key := l.length - lenTail
  { auth := numAt l 5 1, kmax := numAt l 6 1, version := numAt l 8 8, device := BitVec.ofNat 128 (numAt l 16 16),
    compat := BitVec.ofNat 384 (numAt l 32 48), total := numAt l 80 4, fwver := numAt l 84 4, prob := numAt l 88 4,
    digest := sha384 l, formOk := packageForm l, apkHash := keyHashAt l key,
    sigOk := signedAt l key (key + lenMldsa + lenEc) (key + lenMldsa + lenEc) ctxGlonath, expandOk := sectionsFit v l,
    regs := parseRegs (sectionOf l 1), hfilt := parseHfilt (sectionOf l 2),
    desc := ((parseDesc (Variant.channels v) 0 (sectionOf l 3)).map (fun r => r.1)).getD [], nodes := parseNodes (sectionOf l 4),
    maps := parseMaps (sectionOf l 5), ents := parseEnts (sectionOf l 5), svc := parseSvc (sectionOf l 6),
    gate := (sectBytes? l 7).map parseGate }

/-- The expanded sections of a package but HFILT, each with its place in an image area (DESIGN CHOICE, log entry 49: R286 names the
sections and no place). -/
def areaSections (pkg : Package) : List (Nat × List Byte) :=
  [(0x20000, pkg.desc.flatMap descBytes), (0x60000, pkg.nodes.flatMap nodesBytes), (0x70000, pkg.svc.flatMap svcBytes),
   (0x80000, pimapBytes pkg.maps pkg.ents)]

end Sys2Proof.Machine
end

