-- ==== Sys2Proof/Machine/Transmit.lean ====
section
/-! DEFINITION. Sending (05): copies, attempts, the ends of entries, aging; and what happens to a channel on its line:
the TXD time-out, bus-off recovery, stuck dominant, and the automatic unfence (04, 07). -/

namespace Sys2Proof.Machine

open Sys2Proof

/-- An entry ends at a copy as malformed (R134). -/
def copyBad (d : Dev) (c : Nat) (e : TxEntry) : Dev := raise ((endEntry d c e 9).ist (pCHT c) 6) (pCHT c) 0

/-- The copy of a queued entry (R134): the descriptor and its payload read afresh, with the checks repeated. `ecc` is an
uncorrectable error in it (TX_MEM). -/
def copyEntry (d : Dev) (c : Nat) (e : TxEntry) (ecc : Bool) : Dev :=
  let i := e.idx
  let w0 := d.desc i 0
  let w1 := d.desc i 1
  let w2 := d.desc i 2
  if ecc = true then raise (endEntry d c e 4) (pCHT c) 1
  else if descBad d c w0 w1 w2 e.qt e.c = true ∨ (e.safe = true ∧ ¬ (bitsOf w0 27 25 = 3 ∧ bitOf w0 29 = true)) then
    copyBad d c e
  else
    let cp : TxCopy := ⟨word w0, word w1, d.memB (granAddr (bitsOf w2 16 0)) (bitsOf w1 25 16)⟩
    let e' := { e with copy := some cp, mid := bitsOf w0 21 0, slot := bitsOf w1 15 0, retry := bitsOf w1 31 28,
                       ntf := bitOf w1 27 }
    match e.owner with
    | some (s, sc) =>
      if scopeAdmits sc c w0 = false then scopeRefused raise (endEntry d c e 8) c i s (qpushAddr c)
      else d.modChan c (fun x => { x with tx := x.tx.map (fun f => if f.idx = i then e' else f) })
    | none => d.modChan c (fun x => { x with tx := x.tx.map (fun f => if f.idx = i then e' else f) })

/-- TRANSMIT_COPY (R134): the mill makes the copy in the channel's wheel slots (R209). -/
def transmitCopy (d : Dev) (c i : Nat) (ecc : Bool) : Dev :=
  match d.entry c i with
  | none => d
  | some e =>
    match serve d c (.copy i) with
    | some d => copyEntry d c e ecc
    | none => d

/-- The entry's frame carries a tag: a KEY frame when a key is in force, any other as its TAG bit says (R228, R247). -/
def entryTagged (d : Dev) (c : Nat) (cp : TxCopy) : Bool :=
  if bitsOf cp.w0.toNat 27 25 = 5 then (d.keyInForce c).isSome else bitOf cp.w0.toNat 29

/-- The entry's copy is complete and R135 does not hold it back. -/
def copyReady (d : Dev) (c : Nat) (e : TxEntry) : Bool :=
  e.st == 1 && (match e.copy with
    | some cp => bitsOf cp.w0.toNat 27 25 == 5 || !bitOf cp.w0.toNat 29 || (d.keyInForce c).isSome
    | none => false)

/-- A scheduled entry whose turn it is at `t` ns after the bell (R136, R137). -/
def schedReady (d : Dev) (c t : Nat) (e : TxEntry) : Bool :=
  e.qt == 0 && e.window ≤ d.tick && e.slot * 1000 ≤ t && copyReady d c e

/-- The tick before the apply tick of the entry's timed output has passed (R329). -/
def outPast (d : Dev) (e : TxEntry) : Bool :=
  match e.handle with
  | none => false
  | some h => d.svc.outs.any (fun o => o.handle == h && decide (o.tick ≤ d.tick))

/-- A priority or one-shot entry that is eligible in the arbitrated window (R138, R140, R329). -/
def arbReady (d : Dev) (c : Nat) (e : TxEntry) : Bool :=
  !outPast d e && (e.qt == 1 || (e.qt == 2 && e.window == d.tick)) && copyReady d c e

/-- The entry that the head starts at `t` ns after the bell (R137, R138). The wait of R188 after a frame of its own holds back
priority and one-shot entries alone. -/
def chooseEntry (d : Dev) (c t : Nat) : Option TxEntry :=
  if t < d.get (CHC_WIN_SCHED_END c) * 1000 then
    firstBy schedBefore ((d.chan c).tx.filter (schedReady d c t))
  else if d.bell.inst + t < (d.chan c).ownNs then none
  else firstBy arbBefore ((d.chan c).tx.filter (arbReady d c))

/-- The head may start a frame on the channel `t` ns after the bell (R70 to R72, R104, R105, R150, R369): a bell that is due goes
first, and the bus is idle. -/
def mayStart (d : Dev) (c t : Nat) : Bool :=
  d.hasChan c && !silent d c && d.running (pCHT c) && d.get (CHC_CURSTAT_STATE c) != 2 && d.bell.started
    && (d.chan c).bell != .due && busIdle d c (d.bell.inst + t) && t < d.get (CHC_WIN_ARB_END c) * 1000

/-- The status of the timed output whose frame was delivered (R329). -/
def toDelivered (d : Dev) (e : TxEntry) : Dev :=
  match e.handle with
  | none => d
  | some h =>
    match d.svc.outs.find? (fun o => o.handle == h) with
    | some o => toEnd d h (if o.late then 3 else 1) d.tick
    | none => d

/-- The cancelled timed output of an entry that ended ABORTED (R330). -/
def toAborted (d : Dev) (e : TxEntry) : Dev :=
  match e.handle with
  | none => d
  | some h =>
    match d.svc.outs.find? (fun o => o.handle == h) with
    | some o => if o.cancelled then toEnd d h 5 0 else d
    | none => d

/-- The attempt of an entry that started in tick `t` is delivered (R136, R139). A scheduled entry whose frame ran past a commit
point is QUEUED for the new tick (DEDUCED: log entry 47). -/
def entrySent (d : Dev) (c t : Nat) (e : TxEntry) : Dev :=
  let d := d.inc (CHT_SENTCNT_COUNT c)
  if e.qt = 0 ∧ e.aborting = false then
    (putEntry d c { e with st := if t = d.tick then 3 else 1, copy := none, since := d.aon.cycles }).iff e.ntf
      (fun d => d.ist (pCHT c) 0)
  else toDelivered (endEntry d c e 3) e

/-- The attempt of an entry that started in tick `t` ends in a transmit error (R136, R139, R140, R148). -/
def entryError (d : Dev) (c t : Nat) (e : TxEntry) : Dev :=
  let e := { e with att := min (e.att + 1) 15, copy := none, since := d.aon.cycles }
  if e.aborting = true then toAborted (endEntry d c e 6) e
  else if e.qt = 0 then
    ((putEntry d c (if t = d.tick then { e with st := 4 } else { e with st := 1, att := 0 })).ist (pCHT c) 1).inc
      (CHT_ENDCNT_FAILED c)
  else if e.qt = 2 then endEntry d c e 4
  else if e.retry < 15 ∧ e.retry < e.att then endEntry d c e 4
  else putEntry d c { e with st := 1 }

/-- The attempt lost arbitration in a frame that ends at `fin` (R140, R142). The entry was ACTIVE up to the loss, so that QUEUED is
a status change, which renews TICK in word 3 (DEDUCED: log entry 47). -/
def entryLost (d : Dev) (c fin : Nat) (e : TxEntry) : Dev :=
  let d := d.inc (CHT_LOSTCNT_COUNT c)
  if e.aborting = true then toAborted (endEntry d c e 6) e
  else if e.qt = 2 ∧ d.get (CHC_WIN_ARB_END c) * 1000 ≤ fin then endEntry d c e 5
  else putEntry d c { e with st := 1, copy := none, since := d.aon.cycles }

/-- The in-flight record of the channel for the next HB frame (R445). -/
def noteFlight (d : Dev) (c i outcome : Nat) : Dev := d.modChan c (fun x => { x with inFlight := some ⟨c, i, outcome⟩ })

/-- SEQ, the tag and the frame of an attempt that has won arbitration (R135), whose SOF stands at the instant `sof`: the frame is
on the wire. Its class is EC (R145), and it has DPS = 0 only where SLOWOK is in force (R94). -/
def sendEntry (d : Dev) (c sof : Nat) (e : TxEntry) (cp : TxCopy) : Dev :=
  let w0 := cp.w0.toNat
  let mid := bitsOf w0 21 0
  let ft := bitsOf w0 27 25
  let seq := (d.chan c).seq + 1
  let d := d.modChan c (fun x => { x with seq := seq })
  let dps := !(bitOf w0 28 && d.get (CHC_LINE_SLOWOK c) == 1)
  let (d, tag) := if entryTagged d c cp then headTag d c e.ec mid ft dps seq cp.payload else (d, none)
  let d := d.emit (.frame c e.idx (headFrame e.ec mid ft dps seq cp.payload tag))
  let d := notePhase d c sof e.ec mid ft tag.isSome dps cp.payload.length
  noteFlight (d.modChan c (fun x => { x with wire := some ⟨e.idx, d.tick, e.ec, ft, mid, seq, tag.isSome⟩ })) c e.idx 0

/-- The entry is ACTIVE, its frame on the wire: an abort from now on only marks it (R128, R148, R149). -/
def markActive (d : Dev) (c i : Nat) : Dev :=
  match d.entry c i with
  | some e => putEntry d c { e with st := 2 }
  | none => d

/-- The end of the attempt of the ACTIVE entry `i`. -/
def endAttempt (d : Dev) (c i : Nat) (f : Dev → Nat → TxEntry → Dev) : Dev :=
  match d.entry c i with
  | some e => f d c e
  | none => d

/-- The scheduled slots that the head no longer uses in the tick at `t` ns after the bell: those that start before the end of the
bell frame (R71), and at SCHED_END all that are left (R137). -/
def skipPassed (d : Dev) (c t : Nat) : Dev :=
  let d := skipSched d c (fun e => e.slot * 1000 < (d.chan c).bellFin)
  if d.get (CHC_WIN_SCHED_END c) * 1000 ≤ t then skipSched d c (fun _ => true) else d

/-- The head starts a frame `t.sof` ns after the bell (R137, R138). Arbitration is lost, in a frame that ends `t.fin` ns after the
bell, or the frame is on the wire. -/
def startAttempt (d : Dev) (c : Nat) (t : Attempt) : Dev :=
  if mayStart d c t.sof = false then d
  else
    let d := skipPassed d c t.sof
    match chooseEntry d c t.sof with
    | none => d
    | some e =>
      match e.copy with
      | none => d
      | some cp =>
        let sof := d.bell.inst + t.sof
        let d := markActive (d.advanceTo sof) c e.idx
        if t.line = .lost then
          let d := (endAttempt d c e.idx (fun d c e => entryLost d c t.fin e)).advanceTo (d.bell.inst + t.fin)
          noteEnd d c (d.bell.inst + t.fin) false
        else sendEntry d c sof e cp

/-- The outcome of the frame of entry `i`, started in tick `t`, goes into its descriptor (R136, R139, R148). -/
def settleEntry (d : Dev) (c i t : Nat) (o : TxLine) : Dev :=
  match o with
  | .delivered => endAttempt d c i (fun d c e => entrySent d c t e)
  | _ => endAttempt d c i (fun d c e => entryError d c t e)

/-- The frame on the wire ends `t.fin` ns after the bell, delivered or in a transmit error: TEC and the counters (R141, R189), the
in-flight record (R445), and the entry. While no mill serves the hamlet the frame engine holds the outcome (R216). -/
def finishAttempt (d : Dev) (c : Nat) (t : Attempt) : Dev :=
  match (d.chan c).wire, seenLine d c t.line with
  | none, _ => d
  | some _, .lost => d
  | some w, o =>
    let fin := d.bell.inst + t.fin
    let d := d.advanceTo fin
    let d := match o with
      | .error k => noteFlight (txError d c k false (pfW0 6 c w.ft w.tagged 0 w.seq) (pfW1 w.c w.mid)) c w.idx 2
      | _ => (noteFlight (tecDown d c) c w.idx 1).iff t.eof7 (fun d => eofSeven d c fin)
    let d := noteEnd d c fin true
    if served d c = true then settleEntry (d.modChan c (fun x => { x with wire := none })) c w.idx w.tick o
    else d.modChan c (fun x => { x with outcome := some o })

/-- The outcome that a frame engine holds goes into its descriptor when a mill serves the channel again (R216). -/
def settleHeld (d : Dev) (c : Nat) : Dev :=
  match (d.chan c).wire, (d.chan c).outcome with
  | some w, some o => settleEntry (d.modChan c (fun x => { x with wire := none, outcome := none })) c w.idx w.tick o
  | _, _ => d

/-- FRAME_ATTEMPT (R138): the start of a frame of the head, its end, or both. -/
def attempt (d : Dev) (c : Nat) (t : Attempt) : Dev :=
  match t.part with
  | .start => startAttempt d c t
  | .finish => finishAttempt d c t
  | .whole => if (d.chan c).wire.isSome then d else finishAttempt (startAttempt d c t) c t

/-- ONE_SHOT_EXPIRY (R140). -/
def oneShotEnd (d : Dev) (c i : Nat) : Dev :=
  match d.entry c i with
  | none => d
  | some e =>
    if e.qt = 2 ∧ e.st = 1 ∧ e.window ≤ d.tick then
      endEntry (d.advanceTo (d.bell.inst + d.get (CHC_WIN_ARB_END c) * 1000)) c e 5
    else d

/-- A timed output that is not delivered in tick a - 1 is aborted and ends MISSED (R329). -/
def outMissed (d : Dev) (o : TimedOut) : Dev :=
  let d := match o.desc with
    | some i => endAttempt d o.ch i abortEntry
    | none => d
  toEnd d o.handle 4 0

/-- TIMED_OUTPUT_MISSED (R329): ARB_END of tick a - 1. -/
def toMissed (d : Dev) (h : Nat) : Dev :=
  match d.svc.outs.find? (fun o => o.handle == h) with
  | none => d
  | some o =>
    if o.tick ≤ d.tick + 1 then outMissed (d.advanceTo (d.bell.inst + d.get (CHC_WIN_ARB_END o.ch) * 1000)) o else d

/-- TXD_TIMEOUT (R121). -/
def txdTimeout (d : Dev) (c : Nat) : Dev :=
  if d.hasChan c = true ∧ d.running (pCHC c) = true then
    raise ((d.inc (CHC_XSTAT_TXDTOCNT c)).ist (pCHC c) 0) (pCHC c) 0
  else d

/-- The aging step of R145 on a queued priority entry. -/
def ageEntry (d : Dev) (c : Nat) (e : TxEntry) : Dev :=
  let put (d : Dev) (e : TxEntry) : Dev :=
    d.modChan c (fun x => { x with tx := x.tx.map (fun f => if f.idx = e.idx then e else f) })
  let e := { e with due := e.due - 1 }
  let lim := d.get (CHT_AGELIM_AGELIM c)
  if lim ≠ 0 ∧ lim < e.w + 1 ∧ 2 < e.ec then
    let e := { e with ec := e.ec - 1, w := 0, proms := min (e.proms + 1) 15 }
    let d := (put d e).setDesc e.idx 3 (putBits (putBits (d.desc e.idx 3) 27 25 e.ec) 19 16 e.proms)
    (d.inc (CHT_MISC_PROM c)).ist (pCHT c) 4
  else put d { e with w := e.w + 1 }

/-- The aging steps that entry `i` has due (R145). -/
def ageDue (d : Dev) (c i : Nat) : Dev :=
  d.forEach (List.range (match d.entry c i with | some e => e.due | none => 0)) (fun d _ => endAttempt d c i ageEntry)

/-- A descriptor change of a package (R295). -/
def applyDesc (d : Dev) (r : RxDescInit) : Dev :=
  (((d.setDesc r.d 0 r.w0.toNat).setDesc r.d 1 r.w1.toNat).setDesc r.d 2 r.w2.toNat).setDesc r.d 3 0

/-- The tick-bound work of a channel (R210, R145, R295): the bell frame, the aging step, and the descriptor changes of a package. -/
def boundWork (d : Dev) (c : Nat) : Dev :=
  let d := d.forEach (d.chan c).tx (fun d e => ageDue d c e.idx)
  let d := d.forEach (d.chan c).descWork applyDesc
  let d := d.forEach ((d.chan c).tx.filter (fun e => !inRange d c e.idx e.handle.isSome)) (fun d e => abortEntry d c e)
  d.modChan c (fun x => { x with formed := true, aged := true, descWork := [] })

/-- TICK_BOUND_WORK (R210): the mill does it in the channel's first slot after the commit point (R209). -/
def tickWork (d : Dev) (c : Nat) : Dev :=
  if d.hasChan c = false then d
  else
    match serve d c .tick with
    | some d => boundWork d c
    | none => d

/-- BOCTL.RESTART (R193, R195). -/
def restartOp (d : Dev) (c : Nat) : Dev :=
  if busOff d c = true ∧ (d.get (CHS_BOCFG_MODE c) ≠ 0 ∨ (d.chan c).noAuto = true) then busOffEnd d c else d

/-- BOCTL.RCLR (R195). -/
def rclrOp (d : Dev) (c : Nat) : Dev := d.set (CHS_BOSTAT_RCNT c) 0

/-- BUS_OFF_RECOVERY (R193): the AUTO path; R105 is met. -/
def autoRecovery (d : Dev) (c : Nat) : Dev :=
  if d.hasChan c = true ∧ busOff d c = true ∧ (d.chan c).noAuto = false
      ∧ (d.get (CHS_BOCFG_MODE c) = 0 ∨ d.get (CHS_BOCFG_MODE c) = 2) then
    (busOffEnd d c).modChan c (fun x => { x with await := false, mute := false })
  else d

/-- A sequence of 11 recessive bits while BUSOFF, on the AUTO path: the 32nd ends the bus-off (R193). -/
def busOffSeq (d : Dev) (c : Nat) : Dev :=
  let n := d.get (CHS_BOSTAT_SEQ c) + 1
  if (d.chan c).noAuto = true ∨ ¬ (d.get (CHS_BOCFG_MODE c) = 0 ∨ d.get (CHS_BOCFG_MODE c) = 2) then d
  else if 32 ≤ n then autoRecovery d c
  else d.set (CHS_BOSTAT_SEQ c) n

/-- RECESSIVE_BITS_SAMPLED (R105): the channel has sampled 11 recessive bits, counted from the event or from the end of the silence of
R117 or R119; while BUSOFF, one sequence of R193. -/
def recessive (d : Dev) (c : Nat) : Dev :=
  if d.hasChan c = true ∧ d.running (pCHC c) = true ∧ d.get (CHC_CURSTAT_STATE c) ≠ 3 ∧ d.get (CHS_TEC_STUCK c) = 0
      ∧ d.get (CHC_XCVR_STBYFORCE c) = 0 ∧ d.get (CHC_XCVR_HBSTOP c) = 0 then
    if busOff d c = true then busOffSeq d c
    else if (d.chan c).await = true ∨ (d.chan c).mute = true then
      (d.advanceTo ((d.chan c).awaitNs + 11 * d.arbNs c)).modChan c (fun x => { x with await := false, mute := false })
    else d
  else d

/-- STUCK_DOM (R205). Stuck dominant is need of the segment (R360). -/
def stuckDom (d : Dev) (c : Nat) : Dev :=
  if d.hasChan c = true ∧ d.running (pCHC c) = true ∧ d.get (CHC_CURSTAT_STATE c) ≠ 3 ∧ d.get (CHS_TEC_STUCK c) = 0
      ∧ d.get (CHC_XCVR_STBYFORCE c) = 0 ∧ d.get (CHC_XCVR_HBSTOP c) = 0
      ∧ (d.chan c).isolated = false ∧ (d.ham (hamOf c)).isolated = false then
    let d := ((recUp d c).set (CHS_TEC_STUCK c) 1).ist (pCHS c) 7
    curfewCause (raise (d.inc (CHS_STUCK_COUNT c)) (pCHS c) 1) c 2
  else d

/-- STUCK_END (R205). -/
def stuckEnd (d : Dev) (c us : Nat) : Dev :=
  if d.hasChan c = true ∧ d.get (CHS_TEC_STUCK c) = 1 then
    let d := d.set (CHS_TEC_STUCK c) 0
    let d := d.set (CHS_STUCK_MAXDUR c) (max (d.get (CHS_STUCK_MAXDUR c)) (min us (fldTop (CHS_STUCK_MAXDUR c))))
    condEnd (waitAfter d c 0) (pCHS c) 1
  else d

/-- AUTO_UNFENCE (R203, R204), for the commit point that comes next. -/
def autoUnfence (d : Dev) (c a : Nat) : Dev :=
  if d.hasChan c = true ∧ d.get (CHS_NSCFG_AUTOUNF c) = 1 ∧ d.get (CHS_FENCEHOLD_HOLD c) ≠ 0
      ∧ ((d.chan c).fenceUntil.any (fun e => e.1 == a && e.2 + b2n (asleepNode d c a) ≤ d.tick + 1)) = true then
    unfence d c a ((d.chan c).unfReq.contains a)
  else d

/-- An abort of the named entry, or of every entry (R148). A cancelled timed output ends with its entry. -/
def abortOp (d : Dev) (c i : Nat) : Dev :=
  match d.entry c i with
  | some e => abortEntry d c e
  | none => d

/-- TRANSMIT_COPY (R134). -/
def execTransmitCopy (c : Nat) (x : CopyWork) (s : State) : Host.Outcome State Fault Refusal :=
  act s (fun d => transmitCopy d c x.idx x.ecc)
/-- FRAME_ATTEMPT (R138). -/
def execFrameAttempt (c : Nat) (t : Attempt) (s : State) : Host.Outcome State Fault Refusal :=
  act s (fun d => attempt d c t)
/-- ONE_SHOT_EXPIRY (R140). -/
def execOneShotExpiry (c i : Nat) (s : State) : Host.Outcome State Fault Refusal := act s (fun d => oneShotEnd d c i)
/-- TIMED_OUTPUT_MISSED (R329). -/
def execTimedOutputMissed (h : Nat) (s : State) : Host.Outcome State Fault Refusal := act s (fun d => toMissed d h)
/-- TXD_TIMEOUT (R121). -/
def execTxdTimeout (c : Nat) (s : State) : Host.Outcome State Fault Refusal := act s (fun d => txdTimeout d c)
/-- TICK_BOUND_WORK (R210). -/
def execTickBoundWork (c : Nat) (s : State) : Host.Outcome State Fault Refusal := act s (fun d => tickWork d c)
/-- BUS_OFF_RECOVERY (R193). -/
def execBusOffRecovery (c : Nat) (s : State) : Host.Outcome State Fault Refusal := act s (fun d => autoRecovery d c)
/-- RECESSIVE_BITS_SAMPLED (R105). -/
def execRecessiveBitsSampled (c : Nat) (s : State) : Host.Outcome State Fault Refusal := act s (fun d => recessive d c)
/-- STUCK_DOM (R205). -/
def execStuckDom (c : Nat) (s : State) : Host.Outcome State Fault Refusal := act s (fun d => stuckDom d c)
/-- STUCK_END (R205). -/
def execStuckEnd (c us : Nat) (s : State) : Host.Outcome State Fault Refusal := act s (fun d => stuckEnd d c us)
/-- AUTO_UNFENCE (R203). -/
def execAutoUnfence (c a : Nat) (s : State) : Host.Outcome State Fault Refusal := act s (fun d => autoUnfence d c a)

end Sys2Proof.Machine
end

