-- ==== Sys2Proof/Machine/Mills.lean ====
section
/-! DEFINITION. Mills and hamlets (08): lockstep, migration, isolation, self-tests. -/

namespace Sys2Proof.Machine

open Sys2Proof

/-- The hamlet whose migration mill `m` carries out. -/
def migratingTo (d : Dev) (m : Nat) : Option Nat :=
  d.hamList.find? (fun h => match (d.ham h).mig with | some g => g.spare == m | none => false)

/-- The channels of hamlet `h`. -/
def Dev.hamChans (d : Dev) (h : Nat) : List Nat := d.chanList.filter (fun c => hamOf c == h)

/-- HAM_NOSPARE is raised with an isolation when no spare exists (R222). -/
def noSpareSrc (d : Dev) : Option Nat := if spareOf d = none then some 0 else none

/-- Mill `m` runs its self-test as after a fault (R220). -/
def testAfterFault (d : Dev) (m : Nat) : Dev :=
  ((d.set (MILL_STAT_STATE m) 4).set (MILL_STAT_HAM m) 0xF).setMill m
    ⟨2, false, d.tick + d.get (PG_QUIET_QUIET (pMILL m)), false⟩

/-- A serving mill halts on fault source `s` of its page: a migration when LIMIT allows it, an isolation otherwise (R214,
R220, R222). -/
def millHalts (d : Dev) (m s : Nat) : Dev :=
  let h := d.get (MILL_STAT_HAM m)
  let d := raiseImm d (pMILL m) s 2 (s + 1)
  if d.get (MILL_STAT_STATE m) = 1 ∧ d.get (MILL_STAT_HAM m) = h then
    isolateHam raise (testAfterFault d m) h (noSpareSrc d)
  else d

/-- LOCKSTEP_MISMATCH (R211, R221, R223). -/
def lockstep (d : Dev) (m port ch : Nat) : Dev :=
  let st := d.get (MILL_STAT_STATE m)
  if d.hasMill m = false ∨ st = 0 ∨ st = 5 then d
  else
    let d := (d.inc (MILL_MMCNT_COUNT m)).setW (MILL_MMINFO m) (port * 2 ^ 28 + ch * 2 ^ 25 + d.tick16)
    let d := d.ist (pMILL m) 0
    if st = 1 then millHalts d m 0
    else
      let d := raise d (pMILL m) 0
      if st = 3 then
        match migratingTo d m with
        | some h =>
          let d := testAfterFault d m
          isolateHam raise d h (noSpareSrc d)
        | none => d
      else
        let d := d.set (MILL_BIST_RESULT m) 2
        if st = 4 then latchOff d (pMILL m) else d.set (MILL_STAT_STATE m) 5

/-- Mismatches in the same cycle: those of mills that serve no hamlet act first, then those of serving mills in the order of their
hamlets, so that the lower-numbered hamlet takes the spare (R223; log entry 48). -/
def lockstepAll (d : Dev) (l : List (Nat × Nat × Nat)) : Dev :=
  let key (x : Nat × Nat × Nat) : Nat := (d.get (MILL_STAT_HAM x.1) + 1) % 16
  d.forEach ((List.range 16).flatMap (fun k => l.filter (fun x => key x == k))) (fun d x => lockstep d x.1 x.2.1 x.2.2)

/-- HAM_MIGRATE.GO (R214, R223). -/
def migrateOp (d : Dev) (h : Nat) : Dev :=
  if (spareOf d).isNone = true ∨ (d.ham h).mig.isSome = true ∨ (d.ham h).isolated = true then d.ist (pHAM h) 2
  else startMigration raise d h 3

/-- MIGRATION_COMPLETE (R215): `ns` is the duration. The self-test that the spare ended leaves no result (DESIGN CHOICE: log entry 48),
the wheel starts at slot 0 with no piece of work begun, the outcomes that the frame engines hold go into their descriptors (R216),
and the quiet periods that wait for the migration start (R410). -/
def migrationDone (d : Dev) (h ns : Nat) : Dev :=
  match (d.ham h).mig with
  | none => d
  | some g =>
    let d := (d.set (MILL_STAT_STATE g.spare) 1).set (MILL_STAT_HAM g.spare) h
    let d := if d.get (MILL_BIST_RESULT g.spare) = 3 then d.set (MILL_BIST_RESULT g.spare) 0 else d
    let d := (d.set (HAM_MILL_MILL h) g.spare).set (HAM_MILL_PREV h) (g.old.getD 0xF)
    let d := d.inc (HAM_MILL_MIGCNT h)
    let d := (d.set (HAM_MIGLAST_CAUSE h) g.cause).set (HAM_MIGLAST_DUR h) (min ns (fldTop (HAM_MIGLAST_DUR h)))
    let w := (d.ham h).wheel
    let d := (d.ist (pHAM h) 1).setHam h { (d.ham h) with
      mig := none, wheel := { Wheel.fromCycle d.aon.cycles with used := w.used, lent := w.lent } }
    let d := d.forEach (d.hamChans h) settleHeld
    quietAfter d (pHAM h :: g.old.toList.map pMILL)

/-- HAM_MIGTIME (R219). -/
def migTime (d : Dev) (h : Nat) : Dev := if (d.ham h).mig.isSome then raise d (pHAM h) 1 else d

/-- HAM_CTXMEM (R222). The mill that served the hamlet, or that migrated it, is sound and becomes a spare (DEDUCED:
log entry 21). -/
def ctxMem (d : Dev) (h : Nat) : Dev :=
  if d.hasHam h = false ∨ (d.ham h).isolated = true then d
  else
    let m := match (d.ham h).mig with | some g => g.spare | none => d.get (HAM_MILL_MILL h)
    let d := (d.set (MILL_STAT_STATE m) 2).set (MILL_STAT_HAM m) 0xF
    isolateHam raise d h (some 2)

/-- MILL_BIST.START: a SPARE or FAILED mill runs its self-test. -/
def bistWrite (d : Dev) (m : Nat) : Dev :=
  if d.get (MILL_STAT_STATE m) = 2 ∨ d.get (MILL_STAT_STATE m) = 5 then
    (d.set (MILL_BIST_RESULT m) 3).setMill m { d.mill m with asked := true }
  else d

/-- The self-test that a spare or a testing mill repeats (R221). -/
def bistRepeat (d : Dev) (m : Nat) : Dev :=
  if d.hasMill m = true ∧ (d.get (MILL_STAT_STATE m) = 2 ∨ d.get (MILL_STAT_STATE m) = 4) then
    d.set (MILL_BIST_RESULT m) 3
  else d

/-- A self-test has passed (R220). -/
def bistPass (d : Dev) (m : Nat) : Dev :=
  if d.get (MILL_STAT_STATE m) = 4 then
    if (d.mill m).why = 4 then (d.set (MILL_STAT_STATE m) 2).setMill m ⟨1, true, 0, false⟩
    else d.setMill m { d.mill m with passed := true }
  else d

/-- A self-test has failed (R214, R220, R221, R223). -/
def bistFail (d : Dev) (m : Nat) : Dev :=
  let st := d.get (MILL_STAT_STATE m)
  if st = 4 then raise (latchOff d (pMILL m)) (pMILL m) 1
  else if st = 3 then
    match migratingTo d m with
    | some h =>
      let d := (d.set (MILL_STAT_STATE m) 5).set (MILL_STAT_HAM m) 0xF
      let d := isolateHam raise d h (noSpareSrc d)
      raise d (pMILL m) 1
    | none => d
  else if st = 1 then condEnd (millHalts d m 1) (pMILL m) 1
  else raise (d.set (MILL_STAT_STATE m) 5) (pMILL m) 1

/-- BIST_COMPLETE (R220, R221). -/
def bistEnd (d : Dev) (m : Nat) (pass : Bool) : Dev :=
  if d.hasMill m = false ∨ d.get (MILL_BIST_RESULT m) ≠ 3 then d
  else
    let d := (d.inc (MILL_BIST_RUNS m)).ist (pMILL m) 1
    let d := (d.set (MILL_BIST_RESULT m) (if pass then 1 else 2)).setMill m { d.mill m with asked := false }
    if pass then bistPass d m else bistFail d m

/-- At a commit point, a mill whose self-test after a fault has passed becomes the spare once its quiet period has
elapsed (R220); its RCNT rises after a fault, and beyond RLIM it latches off. -/
def millSpare (d : Dev) (m : Nat) : Dev :=
  let x := d.mill m
  if d.get (MILL_STAT_STATE m) = 4 ∧ x.passed = true ∧ x.quiet < d.tick then
    if x.why = 2 then
      let d := (d.inc (PG_RCNT_COUNT (pMILL m))).modPage (pMILL m) (fun p => { p with level := 0, quiet := none, quietDue := 0 })
      if d.get (PG_QUIET_RLIM (pMILL m)) < d.get (PG_RCNT_COUNT (pMILL m)) then latchOff d (pMILL m)
      else (d.set (MILL_STAT_STATE m) 2).setMill m ⟨1, true, 0, false⟩
    else (d.set (MILL_STAT_STATE m) 2).setMill m ⟨1, true, 0, false⟩
  else d

/-- RELEASE of a MILL page: a FAILED mill runs the self-test again (R220). -/
def releaseMill (d : Dev) (m : Nat) : Dev :=
  if d.get (MILL_STAT_STATE m) = 5 then
    condEnd (((d.set (MILL_STAT_STATE m) 4).set (MILL_BIST_RESULT m) 3).setMill m ⟨4, false, 0, false⟩) (pMILL m) 1
  else d

/-- RELEASE of a HAM page: the isolation ends once a spare exists, and a migration to it follows (R222). HBn resumes: R119. -/
def releaseHam (d : Dev) (h : Nat) : Dev :=
  if (d.ham h).isolated = true ∧ (spareOf d).isSome = true then
    let d := condEnd (condEnd (d.setHam h { (d.ham h) with isolated := false, ctxError := false }) (pHAM h) 0) (pHAM h) 2
    startMigration raise (d.forEach (d.hamChans h) (fun d c => waitAfter d c 70000)) h 5
  else d

/-- LOCKSTEP_MISMATCH (R211). -/
def execLockstepMismatch (m port : Nat) (x : Mismatch) (s : State) : Host.Outcome State Fault Refusal :=
  act s (fun d => lockstepAll d ((m, port, x.ch) :: x.more))
/-- MIGRATION_COMPLETE (R215). -/
def execMigrationComplete (h ns : Nat) (s : State) : Host.Outcome State Fault Refusal :=
  act s (fun d => migrationDone d h ns)
/-- HAM_MIGTIME (R219). -/
def execHamMigtime (h : Nat) (s : State) : Host.Outcome State Fault Refusal := act s (fun d => migTime d h)
/-- HAM_CTXMEM (R222). -/
def execHamCtxmem (h : Nat) (s : State) : Host.Outcome State Fault Refusal := act s (fun d => ctxMem d h)
/-- BIST_COMPLETE (R220). -/
def execBistComplete (m : Nat) (pass : Bool) (s : State) : Host.Outcome State Fault Refusal :=
  act s (fun d => bistEnd d m pass)

end Sys2Proof.Machine
end

