-- ==== Sys2Proof/Machine/Escalate.lean ====
section
/-! DEFINITION. The timed events of the fault machinery (16), and what a RELEASE does to a page (R414, R422). -/

namespace Sys2Proof.Machine

open Sys2Proof

/-- ESCALATION_TIMER_EXPIRY (R408): the level 1 reaction. -/
def timerExpiry (d : Dev) (p : Nat) : Dev :=
  match (d.page p).timer with
  | none => d
  | some t =>
    let d := (d.pass (t - d.aon.cycles)).modPage p (fun x => { x with timer := none })
    if d.get (PG_ESC_LIMIT p) = 0 ∨ (d.page p).latched = true then d else react raise d p 1 0

/-- SHADOW_END (R410, R412). -/
def shadowEndOp (d : Dev) (p : Nat) : Dev :=
  match (d.page p).shadow with
  | none => d
  | some _ => shadowDone (d.pass ((d.page p).shadowLast + cyc (d.get (PG_ESC_SHADOW p)) - d.aon.cycles)) p

/-- QUIET_PERIOD_END (R411), in the tick with which the period ends or later. -/
def quietEnd (d : Dev) (p : Nat) : Dev :=
  match (d.page p).quiet with
  | none => d
  | some e => if e ≤ d.tick then stranded raise (recover d p) p else d

/-- FAULT_PIN_PULSE_END (R417), at the instant at which the pulse ends. -/
def pulseEnd (d : Dev) (k : Nat) : Dev :=
  if elemAt false d.pins.pulse k then
    let d := d.pass (elemAt 0 d.pins.ends k - d.aon.cycles)
    { d with pins := { d.pins with pulse := putAt d.pins.pulse k false } }
  else d

/-- Another page of the channel keeps it isolated (R409, R413). -/
def keepsIsolated (d : Dev) (p : Nat) : Bool :=
  ((List.range 4).map (fun i => 0x100 + 4 * pageChan p + i)).any (fun q =>
    q != p && ((d.page q).latched || (d.page q).level == 2))

/-- RELEASE of DEV page 0x001: the safe state ends, and the queued safe entries are aborted (R422). -/
def leaveSafe (d : Dev) : Dev :=
  if d.get DEV_SAFE_ACTIVE = 0 then d
  else
    (d.forEach d.chanList (fun d c =>
      d.forEach ((d.chan c).tx.filter (fun e => e.safe)) (fun d e => abortEntry d c e))).set DEV_SAFE_ACTIVE 0

/-- RELEASE of a page of a channel: its isolation ends unless another page keeps it (R409, R413). HBn resumes: R119. -/
def releaseChan (d : Dev) (p : Nat) : Dev :=
  let c := pageChan p
  let held := keepsIsolated d p
  let d := d.iff ((d.chan c).isolated && !held) (fun d => waitAfter d c 70000)
  d.modChan c (fun x => { x with isolated := held })

/-- RELEASE of page `p` (R414, R222, R220, R422): the latch-off, the FAILED state of a mill, an isolation or the safe
state ends; the page takes a block reset with its shadow, RCNT and level are 0. -/
def releasePage (d : Dev) (p : Nat) : Dev :=
  let d := d.modPage p (fun x => { x with latched := false, level := 0, quiet := none, quietDue := 0 })
  let d := softReset (d.set (PG_RCNT_COUNT p) 0) p
  let d := if 0x100 ≤ p then
      releaseChan d p
    else if 0x90 ≤ p then releaseHam d (p - 0x90)
    else if 0x80 ≤ p then releaseMill d (p - 0x80)
    else if p = 1 then leaveSafe d
    else d
  fltEvent d p 6

/-- ESCALATION_TIMER_EXPIRY (R408). -/
def execEscalationTimerExpiry (p : Nat) (s : State) : Host.Outcome State Fault Refusal := act s (fun d => timerExpiry d p)
/-- SHADOW_END (R410). -/
def execShadowEnd (p : Nat) (s : State) : Host.Outcome State Fault Refusal := act s (fun d => shadowEndOp d p)
/-- QUIET_PERIOD_END (R411). -/
def execQuietPeriodEnd (p : Nat) (s : State) : Host.Outcome State Fault Refusal := act s (fun d => quietEnd d p)
/-- FAULT_PIN_PULSE_END (R417). -/
def execFaultPinPulseEnd (k : Nat) (s : State) : Host.Outcome State Fault Refusal := act s (fun d => pulseEnd d k)

end Sys2Proof.Machine
end

