-- ==== Sys2Proof/Machine/Time.lean ====
section
/-! DEFINITION. Time (13): the two gPTP domains, selection, steering, asymmetry, holdover, peer delay. -/

namespace Sys2Proof.Machine

open Sys2Proof

/-- State of domain `x`: 0 ABSENT, 1 ACQUIRE, 2 LOCKED, 3 SUSPECT. -/
def domState (d : Dev) (x : Nat) : Nat := d.get (TIME_DSTAT_STATE x)

/-- The other domain. -/
def otherDom (x : Nat) : Nat := 1 - x

/-- A domain moves to a state (R345). On entering ACQUIRE and on leaving it the device asks its master for the intervals of R343: -5 and
-5, then SYNCLOG and PDLOG (DESIGN CHOICE, log entry 56: R343 does not say when it asks). -/
def domTo (d : Dev) (x st : Nat) : Dev :=
  let was := domState d x
  let side : Side := if x = 0 then .a else .b
  let ask := if st = 1 then (-5, -5)
    else (toSigned 4 (d.get (TIME_DCFG_SYNCLOG x)), toSigned 4 (d.get (TIME_DCFG_PDLOG x)))
  (d.set (TIME_DSTAT_STATE x) st).iff ((was == 1) != (st == 1) && d.upOk x) (fun d =>
    (d.inc (UPL_TXCNT_COUNT x)).emit (.intervalRequest side ask.1 ask.2))

/-- Device time is loaded: set, and every offset measured against the new time (R341). `by'` is TIME_STAT.SETBY. -/
def loadTime (d : Dev) (ns by' : Nat) : Dev :=
  let step : Int := (ns : Int) - d.nowNs
  let shift (m : Dom) : Dom :=
    { m with ofs := m.ofs - step, acq := m.acq.map (fun o => o - step), rel := if m.relative then m.rel else m.rel - step }
  let d := { d with aon := { d.aon with time := ns * nsUnits, set := true },
                    tim := { d.tim with doms := d.tim.doms.map shift },
                    bell := if d.bell.started then d.bell else { d.bell with next := ns + 2000000 } }
  (d.set TIME_STAT_SETBY by').ist 0x10 0

/-- Holdover begins (R348): the last learned rate, no correction. -/
def enterHoldover (d : Dev) : Dev :=
  let d := ((((d.set TIME_STAT_STATE 2).set TIME_STAT_SLEWING 0).inc TIME_HOLDSTAT_ENTRIES).ist 0x10 2).set TIME_ERR_OFS 0
  { d with aon := { d.aon with rate := d.aon.learned },
           tim := { d.tim with holdStart := d.nowSec, holdRaised := false } }

/-- Length in seconds of the current holdover, saturating. -/
def holdLen (d : Dev) : Nat := min (d.nowSec - d.tim.holdStart) 65535

/-- Holdover ends (R348). -/
def leaveHoldover (d : Dev) : Dev :=
  condEnd (((d.set TIME_HOLDSTAT_DUR (holdLen d)).set TIME_STAT_STATE 1).ist 0x10 3) 0x10 0

/-- The domain that R346 selects, after an event of domain `x`. -/
def chooseDom (d : Dev) (x : Nat) : Option Nat :=
  let prim := d.get TIME_CFG_PRIM
  let sel := d.get TIME_STAT_SEL
  if d.get TIME_CFG_REVERT = 1 ∧ domState d prim = 2 then some prim
  else if d.get TIME_CFG_REVERT = 0 ∧ d.get TIME_STAT_STATE = 1 ∧ domState d sel = 2 then some sel
  else if domState d x = 2 then some x
  else if domState d (otherDom x) = 2 then some (otherDom x)
  else none

/-- Selection (R346, R347, R348). -/
def reselect (d : Dev) (x : Nat) : Dev :=
  if d.aon.set = false then d
  else
    match chooseDom d x with
    | some y =>
      if d.get TIME_STAT_STATE = 1 then
        if d.get TIME_STAT_SEL = y then d
        else ((((d.set TIME_STAT_SEL y).ist 0x10 1).inc TIME_SWCNT_SWITCHES).set TIME_STAT_SLEWING 1)
      else ((leaveHoldover d).set TIME_STAT_SEL y).set TIME_STAT_SLEWING 1
    | none => if d.get TIME_STAT_STATE = 1 then enterHoldover d else d

/-- The steering limit in units of 2^-40 (R340). -/
def slewLimit (d : Dev) : Nat := d.get TIME_CFG_SLEW * 2 ^ 40 / 1000000

/-- The mean of the rates of the last evaluations (R340). -/
def meanRate (l : List Int) : Int := if l = [] then 0 else l.foldl (· + ·) 0 / (l.length : Int)

/-- Steering at an evaluation of the selected domain (R340, R347). The measured rate and the size of the correction are
open values (log entry 6); the correction has the sign of the offset and stays within SLEW. -/
def steer (d : Dev) (x : Nat) : Dev :=
  if d.get TIME_STAT_STATE ≠ 1 ∨ d.get TIME_STAT_SEL ≠ x then d
  else
    let o := (d.dom x).ofs
    let rates := ((((d.open' % 2 ^ 32 : Nat) : Int) - 2 ^ 31) :: d.aon.rates).take 64
    let d := d.next
    let corr : Int := ((d.open' % (slewLimit d + 1) : Nat) : Int)
    let d := d.next
    let learned := meanRate rates
    let rate := if o = 0 then learned else if 0 < o then learned + corr else learned - corr
    let d := { d with aon := { d.aon with rates := rates, learned := learned, rate := rate } }
    let d := d.set TIME_ERR_OFS (satInt32 o)
    if absInt o ≤ 10 then d.set TIME_STAT_SLEWING 0 else d

/-- The suspicion, FROZEN and STABLE of a domain clear. -/
def clearSuspicion (d : Dev) (x : Nat) : Dev :=
  condEnd ((d.set (TIME_DSTAT_FROZEN x) 0).set (TIME_DSTAT_STABLE x) 0) (pDOM x) 0

/-- The domain goes to ABSENT (R345). -/
def domAbsent (d : Dev) (x : Nat) : Dev :=
  let st := domState d x
  if st = 0 then d
  else
    let d := domTo (clearSuspicion d x) x 0
    let d := d.setDom x { (d.dom x) with acq := [], seen := false }
    let d := if 2 ≤ st then raise ((d.ist (pDOM x) 1).inc (TIME_DCNT_LOSSES x)) (pDOM x) 1 else d
    reselect d x

/-- A domain in ACQUIRE takes one more offset, and locks on three that agree within 1 us (R345). -/
def acquire (d : Dev) (x : Nat) (o : Int) : Dev :=
  let acq := (o :: (d.dom x).acq).take 3
  let d := d.setDom x { (d.dom x) with acq := acq }
  if acq.length = 3 ∧ acq.all (fun a => acq.all (fun b => decide (absInt (a - b) ≤ 1000))) = true then
    let d := (domTo d x 2).ist (pDOM x) 0
    d.setDom x { (d.dom x) with acq := [] }
  else d

/-- The first lock loads device time from T of the domain that locks, of PRIM's when both do (R341). -/
def firstLock (d : Dev) : Dev :=
  if d.aon.set then d
  else
    match [d.get TIME_CFG_PRIM, otherDom (d.get TIME_CFG_PRIM)].find? (fun y => domState d y == 2) with
    | some y => ((loadTime d ((d.dom y).ofs + d.nowNs).toNat (y + 1)).set TIME_STAT_STATE 1).set TIME_STAT_SEL y
    | none => d

/-- The domain becomes SUSPECT (R349, R350). -/
def suspect (d : Dev) (x : Nat) : Dev :=
  let d := ((domTo d x 3).set (TIME_DSTAT_FROZEN x) 1).set (TIME_DSTAT_STABLE x) 0
  raise ((d.inc (TIME_DCNT_SUSPECTS x)).ist (pDOM x) 2) (pDOM x) 0

/-- An evaluation of a SUSPECT domain (R351). -/
def suspectEval (d : Dev) (x : Nat) (stable : Bool) : Dev :=
  let n := if stable then min (d.get (TIME_DSTAT_STABLE x) + 1) 16 else 0
  let d := d.set (TIME_DSTAT_STABLE x) n
  if n = 16 then
    condEnd (((domTo d x 2).set (TIME_DSTAT_FROZEN x) 0).ist (pDOM x) 3) (pDOM x) 0
  else d

/-- The part hears a Sync of domain `x`: its uplink is up and the domain is neither OFF nor not asCapable, which keeps it ABSENT
(R345). -/
def domHears (d : Dev) (x : Nat) : Bool :=
  d.upOk x && d.get (TIME_DCFG_OFF x) == 0 && d.get (TIME_DSTAT_ASCAP x) == 1

/-- One evaluation of domain `x` (R344, R345, R349 to R351), before device time is set and a domain selected. Its truth value says that
r has stepped (R352). -/
def evalDom (d : Dev) (x : Nat) (m : SyncMsg) : Dev × Bool :=
  let top := if d.aon.set then d.nowSec / 2 ^ 48 else 0
  let t : Int := ((top * 2 ^ 48 + m.sec % 2 ^ 48) * 1000000000 + m.ns : Nat) + m.pd
    + toSigned 16 (d.get (TIME_ASYM_ASYM x))
  let o : Int := t - d.nowNs
  let y := otherDom x
  let rel := domState d y == 2
  let r : Int := if rel then o - (d.dom y).ofs else o
  let old := d.dom x
  let st := domState d x
  let dr := absInt (r - old.rel)
  let dpd := absInt ((m.pd : Int) - old.pd)
  let comparable := old.seen && old.relative == rel && !old.skip
  let stepped := d.get TIME_ASYMSTEP_STEP < dr
  let moved := d.get TIME_ASYMPD_PD < dpd
  let d := d.setDom x { old with ofs := o, rel := r, pd := m.pd, seen := true, relative := rel, skip := false }
  let d := (d.set (TIME_DREL_REL x) (satInt32 r)).set (TIME_DPD_PD x) (m.pd % 2 ^ 32)
  let d := if st = 0 then acquire ((domTo d x 1).setDom x { (d.dom x) with acq := [] } |> fun d => condEnd d (pDOM x) 1) x o
    else if st = 1 then acquire d x o
    else if st = 2 then (if comparable = true ∧ stepped ∧ moved then suspect d x else d)
    else suspectEval d x (decide (¬ stepped ∧ ¬ moved))
  (if domState d x = 3 then d else d.set (TIME_DOFS_OFS x) (satInt32 (d.dom x).ofs), comparable && decide stepped)

/-- A step of domain `x` while neither domain becomes SUSPECT (R352). -/
def countStep (d : Dev) (x : Nat) : Dev :=
  let d := d.inc (TIME_DCNT_STEPS x)
  if d.get TIME_STAT_STATE = 1 ∧ d.get TIME_STAT_SEL = x then d.set TIME_STAT_SLEWING 1 else d

/-- The Sync of domain `x`, if one has arrived and is heard: counted on its uplink, and evaluated. -/
def evalHeard (d : Dev) (x : Nat) (m : Option SyncMsg) : Dev × Bool :=
  match m with
  | some m => if domHears d x then evalDom (d.inc (UPL_RXCNT_COUNT x)) x m else (d, false)
  | none => (d, false)

/-- SYNC (R344 to R354): the evaluation of domain `x`, with `also` that of the other domain in the same cycle; what follows from both,
the setting of device time and the selection, happens once (R341, R354). Each domain steers at its own evaluation alone (R340, R347). -/
def syncBoth (d : Dev) (x : Nat) (m : SyncMsg) (also : Option SyncMsg) : Dev :=
  let y := otherDom x
  let evalX := domHears d x
  let evalY := also.isSome && domHears d y
  let was (z : Nat) : Bool := domState d z == 3
  let a := evalHeard d x (some m)
  let b := evalHeard a.1 y also
  let calm := (domState b.1 x != 3 || was x) && (domState b.1 y != 3 || was y)
  let d := (b.1.iff (a.2 && calm) (fun d => countStep d x)).iff (b.2 && calm) (fun d => countStep d y)
  ((reselect (firstLock d) x).iff evalX (fun d => steer d x)).iff evalY (fun d => steer d y)

/-- SYNC: nothing happens where neither domain hears a Sync. -/
def sync (d : Dev) (x : Nat) (m : SyncMsg) (also : Option SyncMsg) : Dev :=
  if domHears d x = true ∨ (also.isSome = true ∧ domHears d (otherDom x) = true) then syncBoth d x m also else d

/-- ANNOUNCE (R343, R345, R354): the grandmaster, stepsRemoved and the UTC offset. -/
def announce (d : Dev) (x gm utc steps : Nat) : Dev :=
  if d.upOk x = false ∨ d.get (TIME_DCFG_OFF x) = 1 then d
  else
    let d := d.inc (UPL_RXCNT_COUNT x)
    let m := { (d.dom x) with steps := steps }
    let d := ((d.set (TIME_DSTAT_UTCOFS x) utc).setW (TIME_GMIDHI x) (gm / 2 ^ 32)).setW (TIME_GMIDLO x) gm
    let d := d.setDom x { m with gm := some gm }
    match m.gm with
    | none => d
    | some g =>
      if g = gm then d
      else
        let d := (d.ist (pDOM x) 4).inc (TIME_DCNT_GMCHG x)
        if 2 ≤ domState d x then
          let d := domTo (clearSuspicion d x) x 1
          reselect (d.setDom x { (d.dom x) with acq := [], seen := false }) x
        else d

/-- SYNC_TIMEOUT (R345): no Sync for three intervals, asCapable lost, or the link down. -/
def syncLost (d : Dev) (x : Nat) (why : SyncLoss) : Dev :=
  let d := match why with
    | .noSync => d
    | .notCapable => d.set (TIME_DSTAT_ASCAP x) 0
    | .linkDown => d.set (TIME_DSTAT_ASCAP x) 0
  domAbsent d x

/-- PDELAY_RESP (R343): meanLinkDelay, neighborRateRatio and asCapable. -/
def pdelayDone (d : Dev) (x mld : Nat) (ppm : Int) : Dev :=
  let ok := mld ≤ 800 && absInt ppm ≤ 200
  let d := d.setDom x { (d.dom x) with mld := mld, ratioPpm := ppm }
  let d := (d.set (TIME_DLINK_MLD x) (min mld 65535)).setB (TIME_DSTAT_ASCAP x) ok
  if ok then d else domAbsent d x

/-- TIME_HOLDLIM (R348): once in a holdover. -/
def holdLimit (d : Dev) : Dev :=
  let lim := d.get TIME_HOLDLIM_SEC
  if d.get TIME_STAT_STATE = 2 ∧ lim ≠ 0 ∧ d.tim.holdRaised = false then
    let d := d.advanceTo ((d.tim.holdStart + lim) * 1000000000)
    raise { d with tim := { d.tim with holdRaised := true } } 0x10 0
  else d

/-- A read of TIME_NOWLO copies the rest of the same instant (R339). -/
def captureNow (d : Dev) : Dev :=
  let d := (d.setW TIME_NOWLO (d.nowSec % 2 ^ 32)).setW TIME_NOWHI (d.nowSec / 2 ^ 32)
  (d.setW TIME_NOWNS d.nowSub).setW TIME_NOWFRAC (d.aon.time % nsUnits / 2 ^ 32)

/-- SYNC (R344). -/
def execSync (x : Side) (m : SyncIn) (s : State) : Host.Outcome State Fault Refusal :=
  act s (fun d => sync d x.num m.msg m.also)
/-- ANNOUNCE (R345). -/
def execAnnounce (x : Side) (gm : Nat) (m : AnnounceIn) (s : State) : Host.Outcome State Fault Refusal :=
  act s (fun d => announce d x.num gm m.utc m.steps)
/-- PDELAY_REQ (R343): the answer goes out on the same uplink. -/
def execPdelayReq (x : Side) (s : State) : Host.Outcome State Fault Refusal :=
  act s (fun d => d.iff (d.upOk x.num) (fun d =>
    ((d.inc (UPL_RXCNT_COUNT x.num)).inc (UPL_TXCNT_COUNT x.num)).emit (.pdelay x true)))
/-- PDELAY_SEND (R343). -/
def execPdelaySend (x : Side) (s : State) : Host.Outcome State Fault Refusal :=
  act s (fun d => d.iff (d.upOk x.num) (fun d => (d.inc (UPL_TXCNT_COUNT x.num)).emit (.pdelay x false)))
/-- PDELAY_RESP (R343). -/
def execPdelayResp (x : Side) (mld : Nat) (ppm : Int) (s : State) : Host.Outcome State Fault Refusal :=
  act s (fun d => d.iff (d.upOk x.num) (fun d => pdelayDone (d.inc (UPL_RXCNT_COUNT x.num)) x.num mld ppm))
/-- SYNC_TIMEOUT (R345). -/
def execSyncTimeout (x : Side) (why : SyncLoss) (s : State) : Host.Outcome State Fault Refusal :=
  act s (fun d => syncLost d x.num why)
/-- TIME_HOLDLIM (R348). -/
def execTimeHoldlim (s : State) : Host.Outcome State Fault Refusal := act s holdLimit

end Sys2Proof.Machine
end

