-- ==== Sys2Proof/Machine/Keys.lean ====
section
/-! DEFINITION. Epoch keys (09): the start of a change, use limits, the deadline, activation, erasure, KEY frames. -/

namespace Sys2Proof.Machine

open Sys2Proof

/-- The segment is under curfew: ASLEEP or WAKING (R246, R371). -/
def underCurfew (d : Dev) (c : Nat) : Bool := 3 ≤ d.get (CHC_CURSTAT_STATE c)

/-- A cause of R246 arises; a pending change serves it (R256). The start tick counts from here, or from the segment's
waking. -/
def epochRequest (d : Dev) (c : Nat) : Dev :=
  if (d.chan c).next.isSome = true ∨ (d.chan c).epWant ≠ 0 then d
  else d.modChan c (fun x => { x with epWant := 1, epStart := d.tick })

/-- A REVOKE discards NEXT and starts a change anew with the identifier after it (R256). -/
def epochAnew (d : Dev) (c : Nat) : Dev :=
  match (d.chan c).next with
  | some k => d.modChan c (fun x => { x with next := none, epWant := 2, epId := (k.id + 1) % 65536, epStart := d.tick })
  | none => epochRequest d c

/-- The identifier that NEXT takes (R246, R256). -/
def nextEpochId (d : Dev) (c : Nat) : Nat :=
  if (d.chan c).epWant = 2 then (d.chan c).epId
  else match d.keyInForce c with
    | some k => (k.id + 1) % 65536
    | none => 1

/-- A change that is asked for may start in the tick in force: its start tick has come, and at start-up that is the tick of the first
bell (R246, R255, R471 step 8). -/
def startDue (d : Dev) (c : Nat) : Bool :=
  d.bell.started && ((d.chan c).epWant == 1 || (d.chan c).epWant == 2) && decide ((d.chan c).epStart ≤ d.tick)

/-- The node number under which `keySent` holds that a node is owed the key in force (R257). -/
def owesCur (a : Nat) : Nat := a + 32

/-- EPOCH_CHANGE_START (R245, R246): the random source delivers `key`, a draw that counts under R282, and NEXT is loaded. A pending change is need of
the segment (R360). -/
def epochStart (d : Dev) (c : Nat) (key : BitVec 256) : Dev :=
  if d.hasChan c = true ∧ d.isHead = true ∧ underCurfew d c = false ∧ (d.chan c).next = none
      ∧ startDue d c = true ∧ d.get SEC_RNG_OK = 1 then
    let d := d.draw.1
    let id := nextEpochId d c
    let dl := (d.chan c).epStart + d.get (CHX_KEYCFG_LEAD c)
    curfewCause ((d.zero [CHX_CONFIRM_MASK c, CHX_EPSTAT_POSTP c]).modChan c (fun x =>
      { x with next := some ⟨id, key, 0, false⟩, epWant := 0, epDeadline := dl, keySent := x.keySent.filter (fun e => owesCur 0 ≤ e.1) })) c 2
  else d

/-- KEY_LIFE_EXPIRY (R246). -/
def keyLife (d : Dev) (c : Nat) : Dev :=
  if d.hasChan c = true ∧ d.isHead = true ∧ d.has (CHX_KEYCFG_LIFE c) = true
      ∧ (d.chan c).epLast + d.get (CHX_KEYCFG_LIFE c) * 1024 ≤ d.tick then
    epochRequest d c
  else d

/-- The soft limit and the cap of a key's use count (R253). -/
def softLimit : Nat := 251658240
def useCap : Nat := 268435456

/-- A key at its cap retires (R253). -/
def capOf (k : Option EpKey) : Option EpKey :=
  k.map (fun x => if useCap ≤ x.use then { x with retired := true } else x)

/-- The number of keys of the channel that reach the cap with this check. -/
def capped (x : Chan) : Nat :=
  ([x.old, x.cur, x.next].filter (fun k => match k with | some y => useCap ≤ y.use && !y.retired | none => false)).length

/-- KEY_USE_CHECK (R253, R254). -/
def keyUseCheck (d : Dev) (c : Nat) : Dev :=
  if d.hasChan c = false ∨ served d c = false then d
  else
    let x := d.chan c
    let use := (x.cur.map (fun k => k.use)).getD 0
    let d := if softLimit ≤ use ∧ d.get (CHX_KEYUSE_SOFT c) = 0 then
        epochRequest ((d.set (CHX_KEYUSE_SOFT c) 1).ist (pCHX c) 5) c
      else d
    let n := capped x
    if n = 0 then d
    else
      let d := if useCap ≤ use then d.set (CHX_KEYUSE_CAP c) 1 else d
      let d := (d.modChan c (fun x => { x with old := capOf x.old, cur := capOf x.cur, next := capOf x.next })).add
        (CHX_EPCNT_CAPHIT c) n
      raise d (pCHX c) 2

/-- KEY_GEN (R255). -/
def keyGen (d : Dev) (c : Nat) : Dev :=
  if d.hasChan c = true ∧ d.isHead = true ∧ underCurfew d c = false ∧ (d.chan c).next = none
      ∧ startDue d c = true
      ∧ (d.chan c).epStart + d.get (CHX_KEYCFG_LEAD c) / 2 ≤ d.tick then
    raise (d.modChan c (fun x => { x with epStart := d.tick + 1 })) (pCHX c) 3
  else d

/-- The deadline of the pending change at the commit point of tick `t` (R251). -/
def deadlineOp (d : Dev) (c t : Nat) : Dev :=
  let x := d.chan c
  if x.next.isNone = true ∨ x.epWant = 3 ∨ t < x.epDeadline then d
  else if allConfirmed d c = true then d.modChan c (fun x => { x with epWant := 3 })
  else
    let d := d.ist (pCHX c) 6
    if d.get (CHX_KEYCFG_POSTPONE c) = 1 ∧ d.get (CHX_EPSTAT_POSTP c) < 3 then
      ((d.inc (CHX_EPSTAT_POSTP c)).inc (CHX_EPCNT_POSTPONED c)).modChan c
        (fun x => { x with epDeadline := x.epDeadline + d.get (CHX_KEYCFG_LEAD c) })
    else d.modChan c (fun x => { x with epWant := 3 })

/-- EPOCH_DEADLINE, for the commit point that comes next (R251). -/
def epochDeadline (d : Dev) (c : Nat) : Dev :=
  if d.hasChan c = true ∧ d.isHead = true then deadlineOp d c (d.tick + 1) else d

/-- OLD is erased at the commit point of tick A + 16 (R252). -/
def eraseOld (d : Dev) (c t : Nat) : Dev :=
  if (d.chan c).old.isSome = true ∧ (d.chan c).epLast + 16 ≤ t then d.modChan c (fun x => { x with old := none }) else d

/-- The pending change activates at the commit point of tick `t` (R250, R254). -/
def activates (d : Dev) (c t : Nat) : Bool :=
  let x := d.chan c
  match x.next with
  | none => false
  | some _ =>
    match x.cur with
    | some k => k.retired
        || (x.epStart + 2 ≤ t && (x.epLast == 0 || x.epLast + 16 ≤ t) && (x.epDeadline ≤ t || allConfirmed d c))
    | none => x.epStart + 2 ≤ t && (x.epLast == 0 || x.epLast + 16 ≤ t) && (x.epDeadline ≤ t || allConfirmed d c)

/-- Activation (R250): CUR becomes OLD, NEXT becomes CUR. A retired CUR is no candidate as OLD either. -/
def activate (d : Dev) (c t : Nat) : Dev :=
  let d := d.modChan c (fun x => { x with old := x.cur, cur := x.next, next := none, epWant := 0, epLast := t })
  let d := (d.zero [CHX_KEYUSE_SOFT c, CHX_KEYUSE_CAP c, CHX_EPSTAT_POSTP c]).set (CHX_EPSTAT_ACT c) t
  (d.inc (CHX_EPCNT_CHANGES c)).ist (pCHX c) 4

/-- Step 2 of R75 on the keys of channel `c` at the commit point of tick `t`: the erasure first (R256), then the
deadline, then the activation. -/
def epochCommit (d : Dev) (c t : Nat) : Dev :=
  let d := eraseOld d c t
  if d.isHead = false then d
  else
    let d := deadlineOp d c t
    if activates d c t = true then activate d c t else d

/-- OLD_KEY_ERASE, for the commit point that comes next. -/
def oldErase (d : Dev) (c : Nat) : Dev := if d.hasChan c then eraseOld d c (d.tick + 1) else d

/-- The enrollment key of node `a` of channel `c` (R244). -/
def enrollKey (d : Dev) (c a : Nat) : Option (BitVec 256) :=
  (d.sec.vault.find? (fun e => e.1 == c && e.2.1 == a)).map (fun e => e.2.2)

/-- The key slot that the next KEY frame to node `a` carries: the one in force when an ENROLL owes it, else that of the
pending epoch, which the node has not confirmed (R248, R257). -/
def keyToSend (d : Dev) (c a : Nat) : Option Nat :=
  if (d.chan c).keySent.any (fun e => e.1 == owesCur a) ∧ (slotKey d c 0).isSome = true then some 0
  else (pendingKey d c a).filter (fun _ =>
    !d.bit (CHX_CONFIRM c) a && match findKey a (d.chan c).keySent with
    | some t => t + 4 ≤ d.tick
    | none => true)

/-- KEY_FRAME_PUSH (R247, R248): steward firmware fills descriptor `i` with the KEY frame for node `a` and pushes it. -/
def keyPush (d : Dev) (c a i : Nat) : Dev :=
  match keyToSend d c a, enrollKey d c a with
  | some k, some ek =>
    match slotKey d c k with
    | none => d
    | some key =>
      if d.hasChan c = false ∨ d.isHead = false ∨ fenced d c a = true ∨ asleepNode d c a = true
          ∨ inRange d c i false = false ∨ (d.entry c i).isSome = true then d
      else
        let d := (d.setDesc i 0 (1 * 2 ^ 30 + 5 * 2 ^ 25 + 2 * 2 ^ 22 + 0x3FFF00 + a)).setDesc i 1 (15 * 2 ^ 28 + 52 * 2 ^ 16)
        let d := d.setMemB (granAddr (bitsOf (d.desc i 2) 16 0)) (keyPayload ek a key.id key.key)
        let d := d.modChan c (fun x =>
          { x with keySent := if x.keySent.any (fun e => e.1 == owesCur a) ∧ x.next.isSome then delKey (owesCur a) x.keySent
                              else bindKey a d.tick (delKey (owesCur a) x.keySent) })
        pushOp raise d c i ⟨none, none, false, true⟩
  | _, _ => d

/-- EPOCH_CHANGE_START (R246). -/
def execEpochChangeStart (c : Nat) (key : BitVec 256) (s : State) : Host.Outcome State Fault Refusal :=
  act s (fun d => epochStart d c key)
/-- KEY_LIFE_EXPIRY (R246). -/
def execKeyLifeExpiry (c : Nat) (s : State) : Host.Outcome State Fault Refusal := act s (fun d => keyLife d c)
/-- KEY_USE_CHECK (R253). -/
def execKeyUseCheck (c : Nat) (s : State) : Host.Outcome State Fault Refusal := act s (fun d => keyUseCheck d c)
/-- KEY_GEN (R255). -/
def execKeyGen (c : Nat) (s : State) : Host.Outcome State Fault Refusal := act s (fun d => keyGen d c)
/-- EPOCH_DEADLINE (R251). -/
def execEpochDeadline (c : Nat) (s : State) : Host.Outcome State Fault Refusal := act s (fun d => epochDeadline d c)
/-- OLD_KEY_ERASE (R252). -/
def execOldKeyErase (c : Nat) (s : State) : Host.Outcome State Fault Refusal := act s (fun d => oldErase d c)
/-- KEY_FRAME_PUSH (R248). -/
def execKeyFramePush (c a i : Nat) (s : State) : Host.Outcome State Fault Refusal := act s (fun d => keyPush d c a i)

end Sys2Proof.Machine
end

