-- ==== Sys2Proof/Machine/Curfew.lean ====
section
/-! DEFINITION. Curfew (14): the call, the commit, the sleep and the wakes. -/

namespace Sys2Proof.Machine

open Sys2Proof

/-- The device itself needs channel `c` (R360). -/
def needed (d : Dev) (c : Nat) : Bool :=
  !(d.chan c).tx.isEmpty || d.svc.outs.any (fun o => o.ch == c) || (d.chan c).next.isSome || busOff d c
    || d.has (CHS_TEC_STUCK c) || !d.isHead

/-- The curfew commits at the commit point of tick `t` (R369). -/
def commitsAt (d : Dev) (c t : Nat) : Bool := d.get (CHC_CURSTAT_STATE c) == 1 && (d.chan c).callTick + 2 ≤ t

/-- CALLED to ENTRY at the commit point of tick `t` (R369). -/
def curfewCommitAt (d : Dev) (c t : Nat) : Dev :=
  if commitsAt d c t = true then
    ((d.set (CHC_CURSTAT_STATE c) 2).ist (pCHC c) 9).modChan c (fun x => { x with callTick := t - 2 })
  else d

/-- AWAKE to CALLED at the commit point of tick `t`, with the crier-free ticks `idle` and the configuration word `cfg`
(R369). -/
def curfewCallAt (d : Dev) (c t idle cfg : Nat) : Dev :=
  if d.get (CHC_CURSTAT_STATE c) = 0 ∧ bitOf cfg 31 = true ∧ max (bitsOf cfg 15 0) 1 ≤ idle ∧ needed d c = false
      ∧ d.get (CHC_VETO_MASK c) = 0 ∧ d.running (pCHC c) = true then
    (((d.set (CHC_CURSTAT_STATE c) 1).inc (CHC_CURCNT_CALLS c)).ist (pCHC c) 8).modChan c (fun x => { x with callTick := t })
  else d

/-- CURFEW_CALL, for the commit point that comes next: IDLE rises at it, and the pending configuration commits (R359). -/
def curfewCall (d : Dev) (c : Nat) : Dev :=
  if d.hasChan c then
    curfewCallAt d c (d.tick + 1) (min (d.get (CHC_CURSTAT_IDLE c) + 1) 65535) (d.pendingW (CHC_CURCFG c))
  else d

/-- CURFEW_COMMIT, for the commit point that comes next. -/
def curfewCommit (d : Dev) (c : Nat) : Dev := if d.hasChan c then curfewCommitAt d c (d.tick + 1) else d

/-- SLEEP (R364, R369): the entry delay after the bell frame that carries COMMIT has ended, 100 us after the end of the interframe
space of that frame, which may be a late one (R74), and a frame that is on the bus then has ended with its own. -/
def sleepOp (d : Dev) (c : Nat) : Dev :=
  if d.hasChan c = true ∧ d.get (CHC_CURSTAT_STATE c) = 2 ∧ (d.chan c).bell = .sent then
    let fin := max (d.bell.inst + (d.chan c).bellFin + 3 * d.arbNs c + 100000) (d.chan c).idleNs
    (((d.advanceTo fin).set (CHC_CURSTAT_STATE c) 3).inc (CHC_SLPCNT_SLEEPS c)).ist (pCHC c) 11
  else d

/-- A wake pattern on channel `c` outside vigil (R366, R369): on an awake bus it is a stuff error as well, with no node
attributed. -/
def wakePattern (d : Dev) (c : Nat) : Dev :=
  if d.hasChan c = false ∨ d.running (pCHC c) = false then d
  else
    let d := if hears d c = true ∧ d.get (CHC_CURSTAT_STATE c) ≤ 2 then rxError (countLineErr d c 1) c 0 false else d
    if d.isHead then curfewCause d c 1 else d

/-- FALSE_WAKE (R366). -/
def falseWake (d : Dev) (c : Nat) : Dev :=
  if d.hasChan c = true ∧ d.get (CHC_CURSTAT_STATE c) = 3 then (d.inc (CHC_WAKECNT_FALSE c)).ist (pCHC c) 13 else d

/-- A session's veto set (R361, R363). -/
def vetoSetOp (d : Dev) (c s : Nat) : Dev :=
  curfewCause (d.set (CHC_VETO_MASK c) (putBit (d.get (CHC_VETO_MASK c)) s true)) c 3

/-- A session's veto withdrawn (R361). -/
def vetoClearOp (d : Dev) (c s : Nat) : Dev := d.set (CHC_VETO_MASK c) (putBit (d.get (CHC_VETO_MASK c)) s false)

/-- The curfew of channel `c` at the commit point of tick `t`, after the shadows have committed: EN = 0, IDLE, the commit
and the call, with the flags of bell `t` (R359, R362, R363, R369). A COMMIT whose bell was missed goes with the next
bell. -/
def curfewTick (d : Dev) (c t : Nat) : Dev :=
  let d := if d.get (CHC_CURCFG_EN c) = 0 then curfewCause d c 5 else d
  let d := d.add (CHC_CURSTAT_IDLE c) 1
  let d := if d.get (CHC_CURSTAT_STATE c) = 2 ∧ (d.chan c).bell ≠ .sent then d.modChan c (fun x => { x with callTick := t - 2 })
    else d
  let d := curfewCommitAt d c t
  let d := curfewCallAt d c t (d.get (CHC_CURSTAT_IDLE c)) (d.getW (CHC_CURCFG c))
  let st := d.get (CHC_CURSTAT_STATE c)
  d.modChan c (fun x =>
    { x with call := st == 1 && x.callTick == t, commit := st == 2 && x.callTick + 2 == t })

/-- CURFEW_CALL (R369). -/
def execCurfewCall (c : Nat) (s : State) : Host.Outcome State Fault Refusal := act s (fun d => curfewCall d c)
/-- CURFEW_COMMIT (R369). -/
def execCurfewCommit (c : Nat) (s : State) : Host.Outcome State Fault Refusal := act s (fun d => curfewCommit d c)
/-- SLEEP (R364). -/
def execSleep (c : Nat) (s : State) : Host.Outcome State Fault Refusal := act s (fun d => sleepOp d c)
/-- FALSE_WAKE (R366). -/
def execFalseWake (c : Nat) (s : State) : Host.Outcome State Fault Refusal := act s (fun d => falseWake d c)

end Sys2Proof.Machine
end

