-- ==== Sys2Proof/Machine/Services.lean ====
section
/-! DEFINITION. Services (12): quality marks, publication of records and ring entries, timed outputs. -/

namespace Sys2Proof.Machine

open Sys2Proof

/-- A quality mark on record `r` (R313): `bits` are ORed into QUAL for the next bell. -/
def markRecord (d : Dev) (r bits : Nat) : Dev :=
  let front := 0xA00000 + 16 * r
  let back := 0xB00000 + 16 * r
  let dirty := (findKey r d.svc.dirty).isSome
  let d := if dirty then d
    else d.forEach (List.range 4) (fun d j => d.setMemW (back + 4 * j) (d.memW (front + 4 * j)))
  let w := d.memW (back + 8)
  let q := bitsOf w 31 24 ||| bits
  let changed := decide (q ≠ bitsOf w 31 24)
  let d := d.setMemW (back + 8) (putBits w 31 24 q)
  let d := if dirty then d else { d with svc := { d.svc with dirty := putKey r 8 d.svc.dirty } }
  let d := if changed then { d with svc := { d.svc with changed := insertNat r d.svc.changed } } else d
  d.inc SVC_PIMARK_COUNT

/-- The tick in which a map was last applied, from the TICK field of its first record `r`, for the marks of tick `n`; the commit tick
of a package that marked the record INIT, also while the mark waits for its bell (R314, R315). -/
def mapTick (d : Dev) (n r : Nat) : Nat :=
  let w := d.memW (0xA00000 + 16 * r + 8)
  if bitOf w 31 = true ∨ lookupD (n + 1) r d.svc.initAt = n then lookupD d.svc.firstTick r d.svc.initAt % 2 ^ 24 else w % 2 ^ 24

/-- The marks FENCED and ASLEEP that each map takes at the bell, in map order (R314). -/
def bellMarks (d : Dev) : List Nat :=
  d.maps.map (fun m => 2 * b2n (fenced d m.ch m.src) + 8 * b2n (asleepNode d m.ch m.src))

/-- Map `m` takes TIMEOUT in tick `n` (R314). -/
def mapOld (d : Dev) (n : Nat) (m : PiMap) : Bool :=
  match mapEnts d m with
  | [] => false
  | e :: _ => m.age != 0 && decide (m.age < (n % 2 ^ 24 + 2 ^ 24 - mapTick d n e.record) % 2 ^ 24)

/-- The marks of tick `n`, in map order (R314); `atBell` are those that stood at its bell. -/
def applyMarks (d : Dev) (n : Nat) (atBell : List Nat) : Dev :=
  d.forEach d.maps.zipIdx (fun d mi =>
    let m := mi.1
    let bits := elemAt 0 atBell mi.2 + 4 * b2n (mapOld d n m)
    if bits = 0 then d else d.forEach (mapEnts d m) (fun d e => markRecord d e.record bits))

/-- A service record placed in the queue of session `s`, or discarded for want of room (R318). -/
def svcPost (d : Dev) (s : Nat) (soe : Bool) (r : EvRec) : Dev :=
  if (d.ses s).st ≠ .opened then d
  else if (d.ses s).queue.length < Config.queueRoom then
    let d := d.modSes s (fun x => { x with queue := x.queue ++ [r] })
    if soe then d else d.inc SVC_PIPUB_COUNT
  else
    let d := d.inc SVC_EVLOST_COUNT
    if soe then d.set (SVC_SUBCTL_LOSTSOE s) 1 else d.set (SVC_SUBCTL_LOST s) 1

/-- A record of a service with word 1 naming tick `n` - 1 (R317, R324). -/
def svcRec (kind source n w2 w3 : Nat) : EvRec :=
  ⟨word (kind * 2 ^ 24 + source), word (n + 2 ^ 32 - 1), word w2, word w3, none⟩

/-- Range `i` of session `s` is enabled and holds record `r` (SVC_SUBRNG). -/
def rangeHolds (d : Dev) (s r i : Nat) : Bool :=
  d.getW (SVC_SUBRNG s i) != 0 && d.get (SVC_SUBRNG_LO s i) ≤ r && r ≤ d.get (SVC_SUBRNG_HI s i)

/-- The ranges of session `s` that hold record `r`, lowest first. -/
def rangesOf (d : Dev) (s r : Nat) : List Nat := (List.range 16).filter (rangeHolds d s r)

/-- The record has 8 value bytes (R317). -/
def wideRecord (d : Dev) (r : Nat) : Bool := d.ents.any (fun e => e.record == r && e.fmt == 3)

/-- Change publication of record `r` to session `s` (R316, R317). -/
def publishRecord (d : Dev) (s : Nat) (k : SvcWork) (late : Bool) (r : Nat) : Dev :=
  match rangesOf d s r with
  | [] => d
  | i :: l =>
    if k.changed.contains r = false ∧ (i :: l).any (fun j => bitOf (d.get (SVC_SUBCTL_EVERY s)) j) = false then d
    else
      let a := 0xA00000 + 16 * r
      let w2 := r * 2 ^ 16 + (bitsOf (d.memW (a + 8)) 31 24 ||| b2n late) * 2 ^ 8
      let d := svcPost d s false (svcRec 2 i k.tick w2 (d.memW a))
      if wideRecord d r then svcPost d s false (svcRec 2 i k.tick (w2 + 2 ^ 7) (d.memW (a + 4))) else d

/-- Publication of ring entry `i` to session `s` (R324). -/
def publishSoe (d : Dev) (s : Nat) (k : SvcWork) (late : Bool) (i : Nat) : Dev :=
  if d.get (SVC_SUBCTL_SOE s) = 0 then d
  else
    let a := 0x100000 + 16 * i
    let w1 := d.memW (a + 4)
    let w2 := d.memW (a + 8)
    svcPost d s true (svcRec 3 (bitsOf w2 31 26) k.tick
      (i * 2 ^ 16 + bitsOf w2 25 21 * 2 ^ 11 + b2n (late || bitOf w1 31) * 2 ^ 10) w1)

/-- The resync records of session `s` (R318, R324). -/
def resync (d : Dev) (s n : Nat) : Dev :=
  let room (d : Dev) : Bool := (d.ses s).st == .opened && (d.ses s).queue.length < Config.queueRoom
  let d := if d.has (SVC_SUBCTL_LOST s) && room d then
      svcPost (d.set (SVC_SUBCTL_LOST s) 0) s false (svcRec 2 0 n (2 ^ 6) 0)
    else d
  if d.has (SVC_SUBCTL_LOSTSOE s) && room d then
    svcPost (d.set (SVC_SUBCTL_LOSTSOE s) 0) s true (svcRec 3 0 n 1 0)
  else d

/-- The publications of one tick's work to session `s` (R316 to R318, R324). -/
def publishTo (d : Dev) (k : SvcWork) (late : Bool) (s : Nat) : Dev :=
  let d := resync d s k.tick
  let d := d.forEach k.switched (fun d r => publishRecord d s k late r)
  d.forEach k.soe (fun d i => publishSoe d s k late i)

/-- SERVICES_TICK_WORK (R334): the oldest work not closed. Work of an earlier tick is late: its marks are those of the
next tick. The share of steward time that it took is an open value (log entry 6). -/
def tickServices (d : Dev) : Dev :=
  match d.svc.work with
  | [] => d
  | k :: rest =>
    if d.works 0x50 = false ∨ d.get DEV_VIGSTAT_STATE ≠ 0 then d
    else
      let late := decide (k.tick < d.tick)
      let d := if late then d else applyMarks d k.tick k.marks
      let d := d.forEach (List.range 8) (fun d s => publishTo d k late s)
      let d := { d with svc := { d.svc with work := rest }, bell := { d.bell with closed := max d.bell.closed d.nowNs } }
      let load := d.open' % 101
      (d.next.set SVC_LOAD_LAST load).set SVC_LOAD_PEAK (max (d.get SVC_LOAD_PEAK) load)

/-- The apply tick of an instant in ns, not before the bell in force (R325, R327). -/
def applyTick (d : Dev) (t : Nat) : Nat :=
  if t < d.bell.next then d.tick else d.tick + 1 + (t - d.bell.next) / d.periodNs

/-- The timed output with handle `h` changed. -/
def modOut (d : Dev) (h : Nat) (f : TimedOut → TimedOut) : Dev :=
  { d with svc := { d.svc with outs := d.svc.outs.map (fun x => if x.handle = h then f x else x) } }

/-- A handle that no queued entry has; which one is open (R326; log entry 6). -/
def freeHandle (d : Dev) : Nat :=
  let used (h : Nat) : Bool := d.svc.outs.any (fun o => o.handle == h)
  (((List.range 4096).map (fun k => (d.open' + k) % 4096)).find? (fun h => !used h)).getD 0

/-- A status without an entry (R326: handle 0x1FFF). -/
def toRefuse (d : Dev) (s ch st : Nat) : Dev := toStatus d s ch 0x1FFF st 0

/-- A timed output is queued (R326, R333). -/
def toQueue (d : Dev) (s ch mid t tick : Nat) (policy late : Bool) (data : List Byte) : Dev :=
  let h := freeHandle d
  let o : TimedOut :=
    { handle := h, sess := s, ch := ch, mid := mid, apply := t, tick := tick, policy := policy, late := late, data := data,
      desc := none, cancelled := false }
  let d := d.next
  let d := ({ d with svc := { d.svc with outs := d.svc.outs ++ [o] } }.toCount).inc SVC_TOACC_COUNT
  curfewCause (toStatus d s ch h 0 0) ch 2

/-- The checks of R325 on the scope of session `s`. -/
def toInScope (d : Dev) (s ch mid : Nat) : Bool :=
  let sc := (d.ses s).scope
  scopeOp sc 4 && scopeSeg sc ch && scopeMid sc mid

/-- TIMED_OUTPUT_REQUEST (R325, R326): word 7 of block `s` written with GO = 1, checks 2 to 5. SEC names the seconds
of device time with the high bits that device time has. -/
def toRequest (d : Dev) (s w7 : Nat) : Dev :=
  let w (j : Nat) : Nat := d.getW (SVC_TOREQ s j)
  let ch := bitsOf (w 0) 31 26
  let mid := bitsOf (w 0) 21 0
  let policy := bitOf (w 0) 25
  let ns := bitsOf (w 2) 29 0
  let dlen := bitsOf w7 4 0
  let t := (d.nowSec / 2 ^ 32 * 2 ^ 32 + w 1) * 1000000000 + ns
  if d.hasChan ch = false ∨ 16 < dlen ∨ 1000000000 ≤ ns ∨ d.get (SVC_TORANGE_CNT ch) = 0 then toRefuse d s ch 8
  else if d.bell.inst ≤ t ∧ d.tick + 16777215 < applyTick d t then toRefuse d s ch 7
  else if 4096 ≤ d.svc.outs.length ∨ 1024 ≤ (d.svc.outs.filter (fun o => o.sess == s)).length then toRefuse d s ch 6
  else
    let data := (bytesOf (w 3) ++ bytesOf (w 4) ++ bytesOf (w 5) ++ bytesOf (w 6)).take dlen
    if d.bell.inst ≤ t ∧ d.tick + 2 ≤ applyTick d t then toQueue d s ch mid t (applyTick d t) policy false data
    else
      let d := d.inc SVC_TOLATE_COUNT
      if policy = false then toRefuse (d.ist 0x53 0) s ch 2
      else toQueue d s ch mid (d.bell.next + d.periodNs) (d.tick + 2) policy true data

/-- TOCAN with GO = 1 (R330). -/
def toCancel (d : Dev) (s h : Nat) : Dev :=
  match d.svc.outs.find? (fun o => o.handle == h && o.sess == s) with
  | none => d
  | some o =>
    match o.desc with
    | none => toEnd d h 5 0
    | some i =>
      let d := abortOp (modOut d h (fun x => { x with cancelled := true })) o.ch i
      if (d.entry o.ch i).isSome then d else toEnd d h 5 0

/-- The granule of service descriptor `i` of channel `c` (R331). -/
def svcGranule (d : Dev) (c i : Nat) : Nat :=
  match d.flash.active with
  | some p => (match p.svc.find? (fun e => e.ch == c) with | some e => e.toGran + (i - e.toBase) | none => 0)
  | none => 0

/-- The payload of a timed output's frame (R328). -/
def toPayload (o : TimedOut) : List Byte :=
  bytesOf (o.apply / 1000000000 % 2 ^ 32) ++ bytesOf (b2n o.late * 2 ^ 31 + o.apply % 1000000000) ++ o.data

/-- The push of a due timed output (R328, R329). -/
def toPush (d : Dev) (o : TimedOut) : Dev :=
  let free := (List.range (d.get (SVC_TORANGE_CNT o.ch))).map (fun k => d.get (SVC_TORANGE_BASE o.ch) + k)
  match free.find? (fun i => !d.svc.outs.any (fun x => x.ch == o.ch && x.desc == some i)) with
  | none => toEnd d o.handle 9 0
  | some i =>
    let pl := toPayload o
    let g := svcGranule d o.ch i
    let d := (((d.setDesc i 0 (1 * 2 ^ 30 + 2 ^ 29 + 3 * 2 ^ 25 + d.get SVC_TOCFG_CLASS * 2 ^ 22 + o.mid)).setDesc i 1
      (15 * 2 ^ 28 + pl.length * 2 ^ 16)).setDesc i 2 g).setMemB (granAddr g) pl
    let d := modOut d o.handle (fun x => { x with desc := some i })
    pushOp raise d o.ch i ⟨none, some o.handle, false, false⟩

/-- Insertion by handle. -/
def byHandle (o : TimedOut) : List TimedOut → List TimedOut
  | [] => [o]
  | x :: l => if o.handle ≤ x.handle then o :: x :: l else x :: byHandle o l

/-- Right after step 2 of the commit point of the tick in force, each entry due in it is pushed, in handle order (R328). One whose
tick has passed, as after a takeover, has missed it (R329). -/
def toPushDue (d : Dev) : Dev :=
  let d := d.forEach (d.svc.outs.filter (fun o => o.desc.isNone && o.tick ≤ d.tick)) (fun d o => toEnd d o.handle 4 0)
  let due := d.svc.outs.filter (fun o => o.desc.isNone && o.tick == d.tick + 1)
  d.forEach (due.foldr byHandle []) (fun d o => toPush d o)

/-- The apply ticks after a commit that changed the bell period (R327); the tick in force is the commit tick. -/
def toRecompute (d : Dev) : Dev :=
  d.forEach (d.svc.outs.filter (fun o => o.desc.isNone && d.tick + 1 ≤ o.tick)) (fun d o =>
    let a := applyTick d o.apply
    if d.tick + 1 ≤ a then modOut d o.handle (fun x => { x with tick := a })
    else
      let d := d.inc SVC_TOLATE_COUNT
      if o.policy = false then toEnd (d.ist 0x53 0) o.handle 2 0
      else modOut d o.handle (fun x => { x with apply := d.bell.next + d.periodNs, tick := d.tick + 2, late := true }))

/-- SERVICES_TICK_WORK (R334). -/
def execServicesTickWork (s : State) : Host.Outcome State Fault Refusal := act s tickServices

end Sys2Proof.Machine
end

