-- ==== Sys2Proof/Machine/Pennants.lean ====
section
/-! DEFINITION. Sessions, pennants and operations (10): PXM reassembly, HELLO and ACCEPT, session ends and keys, the checks of a
pennant, and the operations of R276 but ARM and ROLLBACK. -/

namespace Sys2Proof.Machine

open Sys2Proof

/-- A step that acts on the fuses as well. -/
def actAll (s : State) (f : State → State) : Host.Outcome State Fault Refusal := .next (if s.dev.powered then f s else s)

/-- The authority slot `k`. -/
def Otp.slot (o : Otp) (k : Nat) : AuthSlot := elemAt ⟨false, 0#384, false⟩ o.slots k

/-- The slot is usable (R260). -/
def Otp.usable (o : Otp) (k : Nat) : Bool := k < 4 && (o.slot k).prog && !(o.slot k).revoked

/-- The security subsystem works: not latched off or in reset, and the part is not in vigil (R377). -/
def secWorks (d : Dev) : Bool := d.works 0x20 && d.get DEV_VIGSTAT_STATE == 0

/-- A discarded frame of uplink `u` (R60). -/
def discard (d : Dev) (u : Nat) (f : Fld) : Dev := (d.inc f).ist (pUPL u) 2

/-- Core cycles in the 400 ms of R58. -/
def dupCycles : Nat := 200000000

/-- The first copy of a message within 400 ms (R58). -/
def firstCopy (d : Dev) (mac prp : Nat) : Bool :=
  !d.seen.any (fun e => e.1 == mac && e.2.1 == prp && d.aon.cycles < e.2.2 + dupCycles)

/-- The message is noted as seen; entries older than 400 ms are dropped. -/
def noteCopy (d : Dev) (mac prp : Nat) : Dev :=
  { d with seen := d.seen.filter (fun e => d.aon.cycles < e.2.2 + dupCycles && !(e.1 == mac && e.2.1 == prp))
      ++ [(mac, prp, d.aon.cycles)] }

/-- Refusal of a HELLO (type 1), an operation (2) or a COMMISSION (3): the record of R279, in every S session's queue. -/
def refuse (d : Dev) (type auth reason sess seq : Nat) : Dev :=
  let w := reason * 2 ^ 24 + type * 2 ^ 20 + auth % 4 * 2 ^ 18 + sess * 2 ^ 12
  let d := ((d.setW PEN_REFLAST w).setW PEN_REFTICK d.tick).inc PEN_CNT_REFUSED
  let d := d.ist 0x28 3
  d.postAll (fun x => x.scope.priv == .s) (d.evRec 6 0x28 w seq)

/-- A refused HELLO (R269, R279): the record, and a REFUSE with the reason and the HELLO's XID. -/
def refuseHello (d : Dev) (h : Hello) (reason : Nat) : Dev :=
  (refuse d 1 h.pennant.auth reason 8 (if reason = 1 then 0 else h.pennant.seq % 2 ^ 32)).send (.pxmRefuse reason h.xid)

/-- A session ends and its number is free (R273, R361): its keys, its event queue and its unacknowledged messages go, its vetoes end.
Its queued operations are discarded but for those that `keep` names (R278). -/
def endSession (d : Dev) (s : Nat) (keep : OpReq → Bool) : Dev :=
  if (d.ses s).st = .free then d
  else
    let opened := decide ((d.ses s).st = .opened)
    let d := hostRetract d s
    let d := d.setSes s Sess.reset
    let d := d.forEach (d.sec.ops.filter (fun o => o.sess == s && !keep o)) (fun d _ => d.set (PEN_OPSTAT_STATE s) 0)
    let d := { d with sec := { d.sec with ops := d.sec.ops.filter (fun o => o.sess != s || keep o) } }
    let d := d.forEach d.chanList (fun d c => vetoClearOp d c s)
    if opened then d.ist 0x28 1 else d

/-- A session closes (R273, R278). -/
def closeSession (d : Dev) (s : Nat) : Dev := endSession d s (fun _ => false)

/-- A fragment is added to the parts of a body that have arrived. -/
def addPart (got : List (Nat × List Byte)) (off : Nat) (data : List Byte) : List (Nat × List Byte) :=
  if got.any (fun e => e.1 == off && e.2.length == data.length) then got else got ++ [(off, data)]

/-- The first bytes of a body that have arrived without a gap, after `n` passes. -/
def reached (got : List (Nat × List Byte)) : Nat → Nat → Nat
  | 0, r => r
  | n + 1, r => reached got n (got.foldl (fun r e => if e.1 ≤ r then max r (e.1 + e.2.length) else r) r)

/-- Byte `i` of a body from its parts. -/
def partByte (got : List (Nat × List Byte)) (i : Nat) : Byte :=
  match got.find? (fun e => e.1 ≤ i && i < e.1 + e.2.length) with
  | some e => elemAt 0#8 e.2 (i - e.1)
  | none => 0#8

/-- The fragment is one of the body in reassembly (R267). -/
def sameBody (r : Reasm) (f : PxmFrag) : Bool := r.mac == f.mac && r.xid == f.xid && r.type == f.type && r.total == f.total

/-- The frame is a PXM as R267 lays it out: header fields, and at most 1,400 bytes of data inside the body. -/
def pxmForm (f : PxmFrag) : Bool :=
  f.ver == 1 && [1, 2, 3, 5].contains f.type && decide (f.frag ≤ f.nfrag) && decide (f.nfrag < 16) && (f.type == 2 || f.sess == 0xFF)
    && (f.type == 3 || f.reason == 0) && f.rsvd == 0 && decide (f.data.length ≤ 1400) && decide (f.offset + f.data.length ≤ f.total)

/-- What a complete body is (R261, R267, R268): a COMMISSION of another length than 48 bytes is none (DESIGN CHOICE: log entry 54). -/
def bodyOf (o : Otp) (type xid : Nat) (l : List Byte) : PxmBody :=
  if type = 1 then .hello (parseHello o l xid)
  else if type = 5 ∧ l.length = 48 then .commission (BitVec.ofNat 384 (natOf l)) xid
  else .other

/-- PXM_FRAGMENT (R267): after the duplicate check, the fragment is added to its body; a complete body waits to be handled. A frame
that is no PXM is one without a valid SecTAG, and is discarded as such (DEDUCED: log entry 54). -/
def pxmFragment (o : Otp) (d : Dev) (f : PxmFrag) : Dev :=
  let u := f.side.num
  if pxmForm f = false then discard d u (UPL_DISC0_NOSECTAG u)
  else if firstCopy d f.mac f.prp = false then discard d u (UPL_DISC1_DUP u)
  else
    let d := noteCopy { d with lastMsg := d.aon.cycles } f.mac f.prp
    let d := d.inc (UPL_RXCNT_COUNT u)
    let old := match d.reasm.find? (fun r => sameBody r f) with | some r => r.got | none => []
    let got := addPart old f.offset f.data
    let rest := d.reasm.filter (fun r => !sameBody r f)
    if f.total ≤ reached got got.length 0 then
      let d := { d with reasm := rest }
      match bodyOf o f.type f.xid ((List.range f.total).map (partByte got)) with
      | .other => d
      | b => { d with sec := { d.sec with bodies := d.sec.bodies ++ [b] } }
    else { d with reasm := rest ++ [⟨f.side, f.mac, f.xid, f.type, f.total, got⟩] }

/-- PXM_TIMEOUT (R267): an incomplete body is discarded. -/
def pxmTimeout (d : Dev) (u mac xid : Nat) : Dev :=
  if d.reasm.any (fun r => r.mac == mac && r.xid == xid) then
    discard { d with reasm := d.reasm.filter (fun r => !(r.mac == mac && r.xid == xid)) } u (UPL_DISC2_PXMTO u)
  else d

/-- The first element that satisfies `p`, and the list without it. -/
def takeFirst {α : Type} (p : α → Bool) : List α → Option α × List α
  | [] => (none, [])
  | a :: l => if p a then (some a, l) else ((takeFirst p l).1, a :: (takeFirst p l).2)

def PxmBody.isHello : PxmBody → Bool
  | .hello _ => true
  | _ => false

def PxmBody.isCommission : PxmBody → Bool
  | .commission _ _ => true
  | _ => false

/-- The body without element taken. -/
def setBodies (d : Dev) (l : List PxmBody) : Dev := { d with sec := { d.sec with bodies := l } }

/-- One pennant is under check and four more are queued (R274). -/
def secFull (d : Dev) : Bool := 5 ≤ d.sec.hellos.length + d.sec.ops.length

/-- HELLO (R268, R274): the oldest reassembled HELLO is queued for checking, or refused at once. -/
def helloOp (d : Dev) : Dev :=
  if secWorks d = false then d
  else
    match takeFirst PxmBody.isHello d.sec.bodies with
    | (some (.hello h), rest) =>
      let d := setBodies d rest
      let p := h.pennant
      if d.sess.all (fun x => x.st != .free) = true ∧ d.sess.all (fun x => x.host != p.host) = true then refuseHello d h 10
      else if secFull d = true then refuseHello d h 11
      else if d.get SEC_RNG_OK = 0 then refuseHello d h 13
      else { d with sec := { d.sec with hellos := d.sec.hellos ++ [h] } }
    | _ => d

/-- Opcodes of the operation table (R276). -/
def opListed (code : Nat) : Bool :=
  [0x0001, 0x0002, 0x0010, 0x0011, 0x0012, 0x0013, 0x0020, 0x0030, 0x0040, 0x0050, 0x0051, 0x0052, 0x0060].contains code

/-- The operand has the form that the operation table gives the opcode. -/
def operandFits (code : Nat) : Operand → Bool
  | .none => code == 0x12 || code == 0x40 || code == 0x60
  | .digestTick _ _ => code == 1
  | .digest _ => code == 2 || code == 0x30
  | .enroll _ _ _ _ => code == 0x10
  | .chNode _ _ => code == 0x11 || code == 0x13
  | .page _ => code == 0x20
  | .floor _ => code == 0x50
  | .slot _ => code == 0x51
  | .slotHash _ _ => code == 0x52
  | .noMatch => false

/-- Check 1 of R264. -/
def pennantForm (p : Pennant) : Bool :=
  p.pver == 1 && (p.kind == 1 || p.kind == 2) && p.scope.priv != .k && p.formOk
    && (if p.kind = 1 then p.opcode == 0 && p.operand == .none else opListed p.opcode && operandFits p.opcode p.operand)

/-- Check 12 of R264. -/
def opScope (p : Pennant) : Bool :=
  match p.operand with
  | .enroll ch _ _ _ => ch < 64 && scopeSeg p.scope ch
  | .chNode ch _ => ch < 64 && scopeSeg p.scope ch
  | .page n => n < 512 && scopePage p.scope n
  | _ => true

/-- The checks of R264 in order; `kind` is the kind that fits the path, `host` the presenting host's hash, `hostSig` the
outcome of the host signatures of a HELLO. Answers the reason of the first failure, 0 for none. -/
def checkPennant (o : Otp) (d : Dev) (p : Pennant) (kind : Nat) (host : BitVec 384) (hostSig : Bool) : Nat :=
  if pennantForm p = false then 1
  else if p.kind ≠ kind then 9
  else if p.device ≠ o.devId then 4
  else if o.usable p.auth = false ∨ p.apkHash ≠ (o.slot p.auth).hash then 2
  else if d.aon.set = false then 12
  else if d.nowSec < p.notBefore then 5
  else if p.notAfter ≤ d.nowSec then 6
  else if p.seq < elemAt 0 d.flash.floors p.auth ∧ kind = 1 then 7
  else if p.seq ≤ elemAt 0 d.flash.opseq p.auth ∧ kind = 2 then 7
  else if p.host ≠ host then 8
  else if hostSig = false then 8
  else if p.sigOk = false then 3
  else if kind = 2 ∧ d.cert = true ∧ (p.opcode = 0x40 ∨ p.opcode = 0x60) then 14
  else if kind = 2 ∧ opScope p = false then 16
  else 0

/-- The session of a HELLO that passes (R269, R270): the number is taken until the first valid URT message, the keys are agreed on with
a draw of the random source, and the ACCEPT of 4,626 bytes goes out in four frames. -/
def acceptSession (o : Otp) (d : Dev) (h : Hello) (s : Nat) : Dev :=
  let p := h.pennant
  let n := d.draw.2
  let d := d.draw.1
  (d.setSes s { Sess.reset with st := .accepted, scope := p.scope, host := p.host, auth := p.auth, seq := p.seq,
                                notAfter := p.notAfter, prk := (agree h n).2.2.2,
                                txAt := [d.aon.cycles, d.aon.cycles] }).sendFrames 4 (.pxmAccept s h.xid (acceptBody o h s n))

/-- ACCEPT (R264, R268, R269, R273): the check of the oldest queued HELLO completes. -/
def acceptOp (o : Otp) (d : Dev) : Dev :=
  if secWorks d = false then d
  else
    match d.sec.hellos with
    | [] => d
    | h :: rest =>
      let d := { d with sec := { d.sec with hellos := rest } }
      let p := h.pennant
      let reason := checkPennant o d p 1 h.hostHash h.hostSigOk
      if reason ≠ 0 then refuseHello d h reason
      else if d.get SEC_RNG_OK = 0 then refuseHello d h 13
      else
        let d := d.forEach (List.range 8) (fun d s =>
          if (d.ses s).st ≠ .free ∧ (d.ses s).host = p.host then closeSession d s else d)
        match (List.range 8).find? (fun s => (d.ses s).st == .free) with
        | some s => acceptSession o d h s
        | none => refuseHello d h 10

/-- COMMISSION (R261): slot 0 is programmed while every slot is blank; a refusal's reason code is open (log entry 6). -/
def commission (s : State) : State :=
  let d := s.dev
  match takeFirst PxmBody.isCommission d.sec.bodies with
  | (some (.commission h _), rest) =>
    if secWorks d = false then s
    else
      let d := setBodies d rest
      if s.otp.slots.any (fun k => k.prog) = true then { s with dev := refuse d.next 3 0 (d.open' % 256) 8 0 }
      else
        let k := { (s.otp.slot 0) with prog := true, hash := h }
        { s with otp := { s.otp with slots := putAt s.otp.slots 0 k }, dev := d }
  | _ => s

/-- SESSION_OPEN_TIMEOUT (R272). -/
def openTimeout (d : Dev) (s : Nat) : Dev := if (d.ses s).st = .accepted then closeSession d s else d

/-- SESSION_LIVE_TIMEOUT (R273). -/
def liveTimeout (d : Dev) (s : Nat) : Dev :=
  if (d.ses s).st = .opened ∧ (d.ses s).live = false then closeSession d s else d

/-- SESSION_LIVENESS_LOST (R56). -/
def livenessLost (d : Dev) (s : Nat) : Dev := d.modSes s (fun x => { x with live := false })

/-- SESSION_EXPIRY (R273), at a commit point. -/
def sessionExpiry (d : Dev) (s : Nat) : Dev :=
  if (d.ses s).st ≠ .free ∧ d.aon.set = true ∧ (d.ses s).notAfter ≤ d.nowSec then closeSession d s else d

/-- The place of a secure channel's key index in `keyIdx` (R270, R271). -/
def saPlace (u : Nat) (deviceSends : Bool) : Nat := if deviceSends then u else 2 + u

/-- A receiver's window of 64 packet numbers holds `pn`, when `want` is the next one expected (R271; PRESUMED, log entry 54: the lowest
acceptable number of IEEE 802.1AE). -/
def pnOk (want pn : Nat) : Bool := 1 ≤ pn && want ≤ pn + 64

/-- The receiver takes key index i + 1 into use with packet number `pn`, and keeps key i (R271). -/
def rxNextKey (x : Sess) (u pn : Nat) : Sess :=
  let k := saPlace u false
  { x with keyIdx := putAt x.keyIdx k ((elemAt 0 x.keyIdx k + 1) % 2 ^ 32), oldKey := putAt x.oldKey u true,
           rxOld := putAt x.rxOld u (elemAt 1 x.rxPn u), rxPn := putAt x.rxPn u (pn + 1) }

/-- What a frame with an association number and a packet number does to a session's receive channel on uplink `u`; none when replay
protection or the number of the key discards it (R271). -/
def saTake (x : Sess) (u an pn : Nat) : Option Sess :=
  let i := elemAt 0 x.keyIdx (saPlace u false)
  if an = i % 4 then
    (if pnOk (elemAt 1 x.rxPn u) pn then some { x with rxPn := putAt x.rxPn u (max (elemAt 1 x.rxPn u) (pn + 1)) } else none)
  else if an = (i + 1) % 4 then (if pnOk 1 pn then some (rxNextKey x u pn) else none)
  else if an = (i + 3) % 4 ∧ elemAt false x.oldKey u = true then
    (if pnOk (elemAt 1 x.rxOld u) pn then some { x with rxOld := putAt x.rxOld u (max (elemAt 1 x.rxOld u) (pn + 1)) } else none)
  else none

/-- The packet number and the age in core cycles at which a sender moves on: 0xF000_0000 and 24 h (R271). -/
def pnLimit : Nat := 0xF0000000
def sakCycles : Nat := 86400 * 500000000

/-- A transmit packet number of the device has reached its limit, or its key has been installed for 24 h (R271). -/
def txRolls (d : Dev) (s u : Nat) : Bool :=
  pnLimit ≤ elemAt 1 (d.ses s).txPn u || elemAt 0 (d.ses s).txAt u + sakCycles ≤ d.aon.cycles

/-- KEY_INDEX_ROLLOVER (R271): the sender moves to key index i + 1. The device does when its packet number or its key's age says so; a
receiving device takes key i + 1 into use and keeps key i for a second. -/
def rollover (d : Dev) (s u : Nat) (deviceSends : Bool) : Dev :=
  if (d.ses s).st = .free then d
  else if deviceSends = false then d.modSes s (fun x => rxNextKey x u 0)
  else if txRolls d s u = false then d
  else d.modSes s (fun x => { x with keyIdx := putAt x.keyIdx u ((elemAt 0 x.keyIdx u + 1) % 2 ^ 32), txPn := putAt x.txPn u 1,
                                     txAt := putAt x.txAt u d.aon.cycles })

/-- OLD_SAK_RETIRE (R271). -/
def sakRetire (d : Dev) (s u : Nat) : Dev := d.modSes s (fun x => { x with oldKey := putAt x.oldKey u false })

/-- The pennant in the buffer of session `s`, `len` bytes long (R275). -/
def bufferPennant (o : Otp) (d : Dev) (s len : Nat) : Pennant := parsePennant o (d.memB (0xFF0000 + 0x2000 * s) len)

/-- The operation that session `s` presented before is not done or refused (R275). -/
def opRuns (d : Dev) (s : Nat) : Bool := 1 ≤ d.get (PEN_OPSTAT_STATE s) && d.get (PEN_OPSTAT_STATE s) ≤ 3

/-- A pennant `p` that session `s` presents is queued, or refused as BUSY (R274, R275). While its operation before runs, PEN_OPSTAT goes
on to report that one. -/
def opQueue (d : Dev) (s : Nat) (p : Pennant) : Dev :=
  if opRuns d s then refuse d 2 p.auth 11 s (p.seq % 2 ^ 32)
  else
    let d := d.setW (PEN_OPSTAT s) (1 * 2 ^ 28 + p.opcode * 2 ^ 8)
    if secFull d then refuse ((d.set (PEN_OPSTAT_STATE s) 5).set (PEN_OPSTAT_REASON s) 11) 2 p.auth 11 s (p.seq % 2 ^ 32)
    else { d with sec := { d.sec with ops := d.sec.ops ++ [⟨s, p, (d.ses s).host⟩] } }

/-- PEN_OPGO (R275): the buffer is copied, as the pennant that its bytes spell. -/
def opGo (o : Otp) (d : Dev) (s len : Nat) : Dev := opQueue d s (bufferPennant o d s len)

/-- The state of the last operation of session `s` (PEN_OPSTAT). -/
def opState (d : Dev) (s st reason : Nat) : Dev := (d.set (PEN_OPSTAT_STATE s) st).set (PEN_OPSTAT_REASON s) reason

/-- The operation of session `s` is done (R275). -/
def opDone (d : Dev) (s : Nat) : Dev := (opState d s 4 0).ist 0x28 2

/-- An operation refused (R279). -/
def opRefuse (d : Dev) (r : OpReq) (reason : Nat) : Dev :=
  refuse (opState d r.sess 5 reason) 2 r.pennant.auth reason r.sess (if reason = 1 then 0 else r.pennant.seq % 2 ^ 32)

/-- The oldest operation is checked and, when its opcode is `code`, run by `f`, whose truth value says that its operand
checks passed (R264, R265, R275). An operation whose opcode the table does not list is refused by whichever row comes. -/
def runOpWith (s : State) (code : Nat) (f : OpReq → State → State × Bool) : State :=
  match s.dev.sec.ops with
  | [] => s
  | r :: rest =>
    if secWorks s.dev = false ∨ (List.range 8).any (fun i => s.dev.get (PEN_OPSTAT_STATE i) == 3) = true
        ∨ ¬ (r.pennant.opcode = code ∨ opListed r.pennant.opcode = false) then s
    else
      let d := { s.dev with sec := { s.dev.sec with ops := rest } }
      let reason := checkPennant s.otp d r.pennant 2 r.host true
      if reason ≠ 0 then { s with dev := opRefuse d r reason }
      else
        let d := { d with flash := { d.flash with opseq := putAt d.flash.opseq r.pennant.auth r.pennant.seq } }
        match f r { s with dev := d } with
        | (t, false) => { t with dev := opRefuse t.dev r 15 }
        | (t, true) => { t with dev := (if code = 0x13 then opState t.dev r.sess 3 0 else opDone t.dev r.sess).inc PEN_CNT_OPS }

/-- The same for an operation that changes nothing when an operand check fails. -/
def runOp (s : State) (code : Nat) (f : OpReq → State → Option State) : State :=
  runOpWith s code (fun r s => match f r s with | some t => (t, true) | none => (s, false))

/-- The channel and node of an operand exist. -/
def nodeOk (d : Dev) (ch node : Nat) : Bool := d.hasChan ch && 1 ≤ node && node ≤ 31

/-- ENROLL (R257, R277). -/
def enrollOp (r : OpReq) (s : State) : Option State :=
  match r.pennant.operand with
  | .enroll ch a key ok =>
    if nodeOk s.dev ch a = false ∨ ok = false then none
    else
      let d := (s.dev.storeKey ch a (some key)).setBit (CHX_CONFIRM ch) a false
      let d := d.modChan ch (fun x =>
        { x with keySent := delKey a (delKey (owesCur a) x.keySent) ++ (if x.cur.isSome then [(owesCur a, 0)] else []) })
      some { s with dev := d }
  | _ => none

/-- REVOKE (R258). -/
def revokeOp (r : OpReq) (s : State) : Option State :=
  match r.pennant.operand with
  | .chNode ch a =>
    if nodeOk s.dev ch a = false then none
    else
      let d := (s.dev.storeKey ch a none).setBit (CHX_CONFIRM ch) a false
      some { s with dev := epochAnew d ch }
  | _ => none

/-- REKEY (R246). -/
def rekeyOp (r : OpReq) (s : State) : Option State :=
  some { s with dev := s.dev.forEach (s.dev.chanList.filter (scopeSeg r.pennant.scope)) epochRequest }

/-- UNFENCE (R203): the node is unfenced at the next commit point. -/
def unfenceOp (r : OpReq) (s : State) : Option State :=
  match r.pennant.operand with
  | .chNode ch a =>
    if nodeOk s.dev ch a = false then none
    else some { s with dev := s.dev.modChan ch (fun x => { x with unfReq := insertNat a x.unfReq }) }
  | _ => none

/-- RELEASE (R414, R422). -/
def releaseOp (r : OpReq) (s : State) : Option State :=
  match r.pennant.operand with
  | .page p => if populated s.dev.part p then some { s with dev := releasePage s.dev p } else none
  | _ => none

/-- GATE (R437). -/
def gateOp (r : OpReq) (s : State) : Option State :=
  match r.pennant.operand with
  | .digest h => some { s with dev := ({ s.dev with gate := { s.dev.gate with permit := some h } }).set GATE_COMMIT_PERMIT 1 }
  | _ => none

/-- DEBUG (R276). -/
def debugOp (r : OpReq) (s : State) : Option State :=
  some { s with dev := ({ s.dev with sec := { s.dev.sec with debugUntil := r.pennant.notAfter } }).set SEC_MODE_DEBUG 1 }

/-- DEBUG_PORT_CLOSE (R276). -/
def debugClose (d : Dev) : Dev :=
  if d.get SEC_MODE_DEBUG = 1 ∧ d.sec.debugUntil ≤ d.nowSec then d.set SEC_MODE_DEBUG 0 else d

/-- FLOOR (R273, R276). -/
def floorOp (r : OpReq) (s : State) : Option State :=
  match r.pennant.operand with
  | .floor v =>
    let k := r.pennant.auth
    if v ≤ elemAt 0 s.dev.flash.floors k then none
    else
      let d := { s.dev with flash := { s.dev.flash with floors := putAt s.dev.flash.floors k v } }
      some { s with dev := d.forEach (List.range 8) (fun d i =>
        if (d.ses i).auth = k ∧ (d.ses i).seq < v then closeSession d i else d) }
  | _ => none

/-- AUTHREV (R273, R276, R278): the slot's sessions close at once; an operation of the slot stays queued, to be refused. -/
def authrevOp (r : OpReq) (s : State) : Option State :=
  match r.pennant.operand with
  | .slot k =>
    let o := { s.otp with slots := putAt s.otp.slots k { (s.otp.slot k) with revoked := true } }
    if 4 ≤ k ∨ (List.range 4).any (fun i => o.usable i) = false then none
    else some { s with otp := o, dev := s.dev.forEach (List.range 8) (fun d i =>
      if (d.ses i).auth = k then endSession d i (fun r => r.pennant.auth == k) else d) }
  | _ => none

/-- AUTHADD (R276). -/
def authaddOp (r : OpReq) (s : State) : Option State :=
  match r.pennant.operand with
  | .slotHash k h =>
    if 4 ≤ k ∨ (s.otp.slot k).prog = true then none
    else some { s with otp := { s.otp with slots := putAt s.otp.slots k { (s.otp.slot k) with prog := true, hash := h } } }
  | _ => none

/-- CERTIFY (R280): the fuse is blown; the locks apply at the next commit point. -/
def certifyOp (_ : OpReq) (s : State) : Option State :=
  some { s with otp := { s.otp with cert := true }, dev := { s.dev with certPend := true } }

/-- RNG_HEALTH (R282): `apt` tells the adaptive proportion test from the repetition count test. -/
def rngHealth (d : Dev) (apt : Bool) : Dev :=
  let d := d.inc (if apt then SEC_RNG_APTFAIL else SEC_RNG_RCTFAIL)
  raise (d.set SEC_RNG_OK 0) 0x20 0

/-- RNG_RECOVERY (R282). -/
def rngRecovery (d : Dev) : Dev := condEnd (d.set SEC_RNG_OK 1) 0x20 0

/-- PXM_FRAGMENT (R267). -/
def execPxmFragment (f : PxmFrag) (s : State) : Host.Outcome State Fault Refusal := act s (fun d => pxmFragment s.otp d f)
/-- PXM_TIMEOUT (R267). -/
def execPxmTimeout (x : Side) (mac xid : Nat) (s : State) : Host.Outcome State Fault Refusal :=
  act s (fun d => pxmTimeout d x.num mac xid)
/-- HELLO (R268). -/
def execHello (s : State) : Host.Outcome State Fault Refusal := act s helloOp
/-- ACCEPT (R269). -/
def execAccept (s : State) : Host.Outcome State Fault Refusal := act s (fun d => acceptOp s.otp d)
/-- COMMISSION (R261). -/
def execCommission (s : State) : Host.Outcome State Fault Refusal := actAll s commission
/-- SESSION_OPEN_TIMEOUT (R272). -/
def execSessionOpenTimeout (i : Nat) (s : State) : Host.Outcome State Fault Refusal := act s (fun d => openTimeout d i)
/-- SESSION_LIVE_TIMEOUT (R273). -/
def execSessionLiveTimeout (i : Nat) (s : State) : Host.Outcome State Fault Refusal := act s (fun d => liveTimeout d i)
/-- SESSION_LIVENESS_LOST (R56). -/
def execSessionLivenessLost (i : Nat) (s : State) : Host.Outcome State Fault Refusal := act s (fun d => livenessLost d i)
/-- SESSION_EXPIRY (R273). -/
def execSessionExpiry (i : Nat) (s : State) : Host.Outcome State Fault Refusal := act s (fun d => sessionExpiry d i)
/-- KEY_INDEX_ROLLOVER (R271). -/
def execKeyIndexRollover (i : Nat) (x : Side) (deviceSends : Bool) (s : State) : Host.Outcome State Fault Refusal :=
  act s (fun d => rollover d i x.num deviceSends)
/-- OLD_SAK_RETIRE (R271). -/
def execOldSakRetire (i : Nat) (x : Side) (s : State) : Host.Outcome State Fault Refusal := act s (fun d => sakRetire d i x.num)
/-- ENROLL (R257). -/
def execEnroll (s : State) : Host.Outcome State Fault Refusal := actAll s (fun s => runOp s 0x10 enrollOp)
/-- REVOKE (R258). -/
def execRevoke (s : State) : Host.Outcome State Fault Refusal := actAll s (fun s => runOp s 0x11 revokeOp)
/-- REKEY (R246). -/
def execRekey (s : State) : Host.Outcome State Fault Refusal := actAll s (fun s => runOp s 0x12 rekeyOp)
/-- UNFENCE (R203). -/
def execUnfence (s : State) : Host.Outcome State Fault Refusal := actAll s (fun s => runOp s 0x13 unfenceOp)
/-- RELEASE (R414). -/
def execRelease (s : State) : Host.Outcome State Fault Refusal := actAll s (fun s => runOp s 0x20 releaseOp)
/-- GATE (R437). -/
def execGate (s : State) : Host.Outcome State Fault Refusal := actAll s (fun s => runOp s 0x30 gateOp)
/-- DEBUG (R276). -/
def execDebug (s : State) : Host.Outcome State Fault Refusal := actAll s (fun s => runOp s 0x40 debugOp)
/-- DEBUG_PORT_CLOSE (R276). -/
def execDebugPortClose (s : State) : Host.Outcome State Fault Refusal := act s debugClose
/-- FLOOR (R276). -/
def execFloor (s : State) : Host.Outcome State Fault Refusal := actAll s (fun s => runOp s 0x50 floorOp)
/-- AUTHREV (R278). -/
def execAuthrev (s : State) : Host.Outcome State Fault Refusal := actAll s (fun s => runOp s 0x51 authrevOp)
/-- AUTHADD (R276). -/
def execAuthadd (s : State) : Host.Outcome State Fault Refusal := actAll s (fun s => runOp s 0x52 authaddOp)
/-- CERTIFY (R280). -/
def execCertify (s : State) : Host.Outcome State Fault Refusal := actAll s (fun s => runOp s 0x60 certifyOp)
/-- RNG_HEALTH (R282). -/
def execRngHealth (apt : Bool) (s : State) : Host.Outcome State Fault Refusal := act s (fun d => rngHealth d apt)
/-- RNG_RECOVERY (R282). -/
def execRngRecovery (s : State) : Host.Outcome State Fault Refusal := act s rngRecovery

end Sys2Proof.Machine
end

