-- ==== Sys2Proof/Machine/Gates.lean ====
section
/-! DEFINITION. Access gates (17): the protection table, the checks of an access in the order of R431, and the commit of a
table. -/

namespace Sys2Proof.Machine

open Sys2Proof

/-- Word `j` of table entry `i` in force (R427). -/
def tblW (d : Dev) (i j : Nat) : Nat := d.getW (GATE_TBL i j)

/-- The entry is valid and its region holds 4 KiB granule `g`. -/
def entHolds (e : Nat × Nat) (g : Nat) : Bool := bitOf e.1 11 && e.1 / 4096 ≤ g && g ≤ e.2 / 4096

/-- The entry that holds granule `g`: no two valid entries share one (R430). -/
def entryOf (d : Dev) (g : Nat) : Option (Nat × Nat) :=
  ((List.range 256).map (fun i => (tblW d i 0, tblW d i 1))).find? (fun e => entHolds e g)

/-- The attribute bit of access type `ty` (0 R, 1 W, 2 X) at a privilege (R427). -/
def attrBit (p : Priv) (ty : Nat) : Nat := 3 * Priv.code p + 2 - ty

/-- The 4 KiB granule of the descriptor area is mill-only (R434). -/
def millOnly (d : Dev) (g : Nat) : Bool := g < 64 && d.bit (GATE_RXGRAN (g / 32)) (g % 32)

/-- The byte lies within R33. -/
def inMap (a : Nat) : Bool :=
  a < 0x1040000 || (0x2000000 ≤ a && a < 0x2200000) || (0x4000000 ≤ a && a < 0x8000000)

/-- The 4 KiB granules of an access. -/
def granules (addr len : Nat) : List Nat :=
  (List.range ((addr + len - 1) / 4096 + 1 - addr / 4096)).map (fun i => addr / 4096 + i)

/-- The first byte of the access in granule `g`. -/
def byteIn (addr g : Nat) : Nat := max addr (4096 * g)

/-- The address is in register space. -/
def inRegs (a : Nat) : Bool := 0x2000000 ≤ a && a < 0x2200000

/-- The scope of a session that names page `p`; no other initiator acts in a pennant scope (R7, R272). -/
def Dev.namesPage (d : Dev) (w : Who) (p : Nat) : Bool :=
  match w with
  | .session s => scopePage (d.ses s).scope p
  | _ => false

/-- The write condition of an entry admits session `s` (R427). -/
def hostAdmits (d : Dev) (e : Nat × Nat) (s : Nat) : Bool :=
  let h := bitsOf e.1 10 9
  if h = 0 then true else if h = 1 then false else if h = 2 then bitsOf e.2 11 9 == s
  else scopePage (d.ses s).scope (bitsOf e.2 8 0)

/-- The session-bound block of a register: none is unbound, `some none` admits no session (R433). -/
def boundTo (p off : Nat) : Option (Option Nat) :=
  if p = 0x53 ∧ 0x100 ≤ off ∧ off < 0x200 then some (some ((off - 0x100) / 0x20))
  else if p = 0x54 ∧ 0x040 ≤ off ∧ off < 0x440 then some (some ((off - 0x040) / 0x80))
  else if p = 0x31 ∧ 0x200 ≤ off ∧ off < 0x400 then
    (if (off - 0x100) % 0x40 = 8 then some (some ((off - 0x100) / 0x40 - 4))
     else if (off - 0x100) % 0x40 = 0 ∨ (off - 0x100) % 0x40 = 4 then some none else none)
  else none

/-- A register row has a field of access code `a`. -/
def hasAcc (r : RegRow) (a : Acc) : Bool := r.acc.any (fun f => f.1 == a)

/-- The fields of the register at an offset hold one with access code `a`. -/
def regHas (p off : Nat) (a : Acc) : Bool := match regRow p off with | some r => hasAcc r a | none => false

/-- Word 0 of the timed-output request block of session `s` once the words `ws` of an access have been written (R325). -/
def reqWord (d : Dev) (s : Nat) (ws : List (Nat × Nat)) : Nat := (findKey (0x2053100 + 0x20 * s) ws).getD (d.getW (SVC_TOREQ s 0))

/-- A session's write that lies outside its pennant scope: PEN_CLOSE of another session (R273), GO of a timed-output request
(R325). -/
def outOfScope (d : Dev) (s p off v : Nat) (ws : List (Nat × Nat)) : Bool :=
  (p == 0x28 && off == 0x080 && bitOf v 3 && bitsOf v 2 0 != s && !d.namesPage (.session s) 0x28)
  || (p == 0x53 && decide (0x100 ≤ off ∧ off < 0x200) && (off - 0x100) % 0x20 == 0x1C && bitOf v 31
      && !toInScope d s (bitsOf (reqWord d s ws) 31 26) (bitsOf (reqWord d s ws) 21 0))

/-- Checks 5 to 8 of R431 and those of R231, R336 and R448 on the write of `v` to the register at address `a`: the reason,
0 for none. `ws` are the words of the access with their addresses. -/
def regReason (d : Dev) (w : Who) (ws : List (Nat × Nat)) (a v : Nat) : Nat :=
  let p := (a - 0x2000000) / 4096
  let off := a % 4096
  let ses : Option Nat := match w with | .session s => some s | _ => none
  let bad : Bool := match ses, boundTo p off with
    | some s, some b => b != some s
    | _, _ => false
  let lacks (b : Nat) : Bool := match ses with | some s => !scopeOp (d.ses s).scope b | none => false
  if bad = true then 8
  else if ses.isSome = true ∧ d.get TWIN_STAT_ROLE = 2 ∧ populated d.part p = true ∧ off ≠ 0x028
      ∧ (regHas p off .rws = true ∨ regHas p off .rwp = true ∨ 0x100 ≤ p ∨ (0x50 ≤ p ∧ p ≤ 0x54)) then 8
  else if regHas p off .rwp = true ∧ populated d.part p = true ∧ d.namesPage w p = false then 5
  else if d.cert = true ∧ regHas p off .rwl = true ∧ populated d.part p = true then 6
  else if d.cert = true ∧ 0x100 ≤ p ∧ p % 4 = 2 ∧ off = 0x080 ∧ bitOf v 31 = false ∧ populated d.part p = true then 6
  else if p = 0x54 ∧ 0x040 ≤ off ∧ off < 0x440 then
    (let ctl := (off - 0x40) % 0x80 == 0
     let s := (off - 0x40) / 0x80
     let diff := if ctl then v ^^^ (match findKey (SVC_SUBCTL s) d.shadows with
       | some (m, x) => (d.getW (SVC_SUBCTL s) &&& (2 ^ 32 - 1 - m)) ||| (x.toNat &&& m)
       | none => d.getW (SVC_SUBCTL s)) else 0
     if ctl = true ∧ bitOf diff 30 = true ∧ lacks 1 = true then 7
     else if (ctl = false ∨ bitsOf diff 15 0 ≠ 0) ∧ lacks 0 = true then 7 else 0)
  else if p = 0x53 ∧ 0x100 ≤ off ∧ off < 0x200 ∧ lacks 4 = true then 7
  else if p = 0x53 ∧ off = 0x048 ∧ lacks 5 = true then 7
  else if p = 0x52 ∧ off = 0x04C ∧ lacks 2 = true then 7
  else if p = 0x50 ∧ off = 0x004 ∧ bitOf v 1 = true ∧ lacks 3 = true then 7
  else if (match ses with | some s => outOfScope d s p off v ws | none => false) = true then 7
  else if populated d.part p = false then 9
  else 0

/-- The first element of a list that `f` gives a reason, with its byte. -/
def firstReason {α : Type} (f : α → Nat) (at' : α → Nat) : List α → Option (Nat × Nat)
  | [] => none
  | a :: l => if f a ≠ 0 then some (f a, at' a) else firstReason f at' l

/-- Check 1 of R431 on an access of `len` bytes at `addr`: the address lies in the map, and register space takes aligned words. -/
def addrFault (ty addr len : Nat) : Option (Nat × Nat) :=
  firstReason (fun g =>
    if inMap (byteIn addr g) = false ∨ (ty = 1 ∧ 0x4000000 ≤ byteIn addr g)
      ∨ (inRegs (byteIn addr g) = true ∧ (addr % 4 ≠ 0 ∨ len % 4 ≠ 0)) then 1 else 0) (byteIn addr) (granules addr len)

/-- The checks of R431 in order on an access of `len` bytes at `addr`; `vals` are the words of a write. Answers the reason
of the first failure with the first forbidden byte. -/
def gateCheck (d : Dev) (w : Who) (ty addr len : Nat) (vals : List Nat) : Option (Nat × Nat) :=
  let gs := granules addr len
  let priv := d.whoPriv w
  let words : List (Nat × Nat) := vals.zipIdx.map (fun x => (addr + 4 * x.2, x.1))
  let ses : Option Nat := match w with | .session s => some s | _ => none
  let isMill : Bool := match w with | .mill _ => true | _ => false
  let c1 := addrFault ty addr len
  let c2 := firstReason (fun g => if (entryOf d g).isNone then 2 else 0) (byteIn addr) gs
  let c3 := firstReason (fun g => match entryOf d g with
    | some e => if bitOf e.1 (attrBit priv ty) = false ∨ (ty = 1 ∧ millOnly d g = true ∧ isMill = false) then 3 else 0
    | none => 0) (byteIn addr) gs
  let c4 := match ses with
    | none => none
    | some s => if ty ≠ 1 then none else firstReason (fun g => match entryOf d g with
        | some e => if hostAdmits d e s then 0 else 4
        | none => 0) (byteIn addr) gs
  let regs := words.filter (fun x => inRegs x.1)
  let c5 (lo hi : Nat) := firstReason (fun x : Nat × Nat =>
    let r := regReason d w words x.1 x.2
    if r = lo ∨ r = hi then r else 0) (fun x => x.1) regs
  [c1, c2, c3, c4, c5 8 8, c5 5 5, c5 6 6, c5 7 7, c5 9 9].findSome? id

/-- Entries of a table are well formed together (R430, R436): 0, 0, 0, or the error of GATE_COMMIT with its two entries.
`entry` gives the two words of each entry. -/
def tableError (entry : Nat → Nat × Nat) : Nat × Nat × Nat :=
  let es := (List.range 256).map (fun i => (i, entry i))
  match es.find? (fun e => 16 ≤ e.1 && e.2.2 / 4096 < e.2.1 / 4096) with
  | some e => (2, e.1, e.1)
  | none =>
    let vs := es.filter (fun e => bitOf e.2.1 11)
    match (vs.flatMap (fun a => (vs.filter (fun b =>
        a.1 < b.1 && a.2.1 / 4096 ≤ b.2.2 / 4096 && b.2.1 / 4096 ≤ a.2.2 / 4096)).map (fun b => (a.1, b.1)))).head? with
    | some ab => (1, ab.1, ab.2)
    | none => (0, 0, 0)

/-- The staged entry `i`: entries 0 to 15 are those in force (GATE_STG). -/
def stgEntry (d : Dev) (i : Nat) : Nat × Nat :=
  if i < 16 then (tblW d i 0, tblW d i 1) else (d.getW (GATE_STG i 0), d.getW (GATE_STG i 1))

/-- A list of entries 16 to 255 over the fixed ones. -/
def listEntry (d : Dev) (l : List (Nat × Word × Word)) (i : Nat) : Nat × Nat :=
  if i < 16 then (tblW d i 0, tblW d i 1)
  else match findKey i l with | some e => (e.1.toNat, e.2.toNat) | none => (0, 0)

/-- The staged entries 16 to 255. -/
def stagedList (d : Dev) : List (Nat × Word × Word) :=
  (List.range 240).map (fun k => (k + 16, word (d.getW (GATE_STG (k + 16) 0)), word (d.getW (GATE_STG (k + 16) 1))))

/-- The digest of the staged entries (R430, R437). -/
def stagedDigest (d : Dev) : BitVec 384 :=
  sha384 ((stagedList d).flatMap (fun e => bytesOf e.2.1.toNat ++ bytesOf e.2.2.toNat))

/-- A commit refused (R436, R437, R438). -/
def gateRefuse (d : Dev) (err a b : Nat) : Dev :=
  (((d.set GATE_COMMIT_ERR err).set GATE_COMMIT_ENTA a).set GATE_COMMIT_ENTB b).ist 0x40 2

/-- The drain of a commit starts (R436 step 2); `byGo` tells a commit that GATE_COMMIT.GO started. -/
def startDrain (d : Dev) (l : List (Nat × Word × Word)) (byGo : Bool) : Dev :=
  ({ d with gate := { d.gate with drain := some l, byGo := byGo } }).set GATE_COMMIT_BUSY 1

/-- The permit is gone (R437). -/
def dropPermit (d : Dev) : Dev := ({ d with gate := { d.gate with permit := none } }).set GATE_COMMIT_PERMIT 0

/-- A table that fails R430 refuses its commit; any other starts to drain (R436). -/
def tryCommit (d : Dev) (entry : Nat → Nat × Nat) (l : List (Nat × Word × Word)) (byGo : Bool) : Dev :=
  match tableError entry with
  | (0, _, _) => startDrain d l byGo
  | (e, a, b) => raise (gateRefuse d e a b) 0x40 2

/-- GATE_COMMIT.GO (R436 to R438). -/
def gateGo (d : Dev) : Dev :=
  if d.get GATE_COMMIT_BUSY = 1 then gateRefuse d 4 0 0
  else if d.cert = true ∧ d.gate.permit ≠ some (stagedDigest d) then gateRefuse d 3 0 0
  else
    let t := tryCommit d (stgEntry d) (stagedList d) true
    if d.cert = true ∧ t.get GATE_COMMIT_BUSY = 1 then dropPermit t else t

/-- Entries 16 to 255 of the table in force take new values. -/
def writeTable (d : Dev) (l : List (Nat × Word × Word)) : Dev :=
  d.forEach (List.range 240) (fun d k =>
    let e := listEntry d l (k + 16)
    (d.setW (GATE_TBL (k + 16) 0) e.1).setW (GATE_TBL (k + 16) 1) e.2)

/-- GATE_DRAIN_COMPLETE (R436 step 3). -/
def drainDone (d : Dev) : Dev :=
  match d.gate.drain with
  | none => d
  | some l =>
    let d := (writeTable d l).incWrap GATE_GEN_GEN
    (({ d with gate := { d.gate with drain := none } }).set GATE_COMMIT_BUSY 0).ist 0x40 1

/-- The access touches a region that the commit in progress changes (R436 step 2). -/
def heldByDrain (d : Dev) (addr len : Nat) : Bool :=
  match d.gate.drain with
  | none => false
  | some l => (List.range 240).any (fun k =>
      let old := (tblW d (k + 16) 0, tblW d (k + 16) 1)
      let new := listEntry d l (k + 16)
      old != new && (granules addr len).any (fun g => entHolds old g || entHolds new g))

/-- A held access waits for the drain: it is checked under the new generation (R436). -/
def settle (d : Dev) (addr len : Nat) : Dev := if heldByDrain d addr len then drainDone d else d

/-- GATE_DRAIN_COMPLETE (R436). -/
def execGateDrainComplete (s : State) : Host.Outcome State Fault Refusal := act s drainDone

end Sys2Proof.Machine
end

