-- ==== Sys2Proof/Machine/Packages.lean ====
section
/-! DEFINITION. Glonath packages (11): loading, verification, arming, the effects of a commit and of a return. The
registers hold CFG_STAT.STAGED, PROB, NOPKG and LASTERR; the packages are in `Flash`. -/

namespace Sys2Proof.Machine

open Sys2Proof

/-- STAGED state codes of R303. -/
def stEmpty : Nat := 0
def stLoading : Nat := 1
def stLoaded : Nat := 2
def stVerifying : Nat := 3
def stVerified : Nat := 4
def stArmed : Nat := 5
def stRejected : Nat := 6

/-- CFG_STAT.STAGED. -/
def stagedSt (d : Dev) : Nat := d.get CFG_STAT_STAGED

/-- The flash changed. -/
def Dev.modFlash (d : Dev) (f : Flash → Flash) : Dev := { d with flash := f d.flash }
/-- The package handling changed. -/
def Dev.modCfg (d : Dev) (f : CfgSt → CfgSt) : Dev := { d with cfg := f d.cfg }

/-- CFG_STAT.LASTERR (R304). -/
def lastErr (d : Dev) (code : Nat) : Dev := d.set CFG_STAT_LASTERR code

/-- STAGED becomes REJECTED with a reason; the package stays in flash (R291). -/
def rejectStaged (d : Dev) (code : Nat) : Dev := ((d.set CFG_STAT_STAGED stRejected).ist 0x60 2).set CFG_STAT_LASTERR code

/-- The image area of a role: 0 ACTIVE, 1 PREVIOUS, 2 STAGED (R286). -/
def Dev.area (d : Dev) (role : Nat) : Option Nat := elemAt none d.flash.areas role

/-- The image area that neither ACTIVE nor PREVIOUS owns. -/
def freeArea (d : Dev) : Nat :=
  match (List.range 3).find? (fun a => d.area 0 != some a && d.area 1 != some a) with
  | some a => a
  | none => 2

/-- Base address of an image area (R286). -/
def areaBase (a : Nat) : Nat := 0xC00000 + 0x100000 * a

/-- Memory of `n` bytes from `a` cleared. -/
def clearMem (d : Dev) (a n : Nat) : Dev := { d with mem := d.mem.filter (fun c => c.1 < a || a + n ≤ c.1) }

/-- The expanded sections of a package in area `a`: the hashed filter tables in hamlet order from its start (R163, R286), then DESC,
NODES, SVC and PIMAP. -/
def expand (d : Dev) (pkg : Package) (a : Nat) : Dev :=
  let d := (clearMem d (areaBase a) 0x100000).forEach pkg.hfilt (fun d e =>
    d.setMemB (areaBase a + 0x4000 * e.ham + 16 * e.idx)
      (bytesOf e.w0.toNat ++ bytesOf e.w1.toNat ++ bytesOf e.w2.toNat ++ bytesOf e.w3.toNat))
  d.forEach (areaSections pkg) (fun d x => d.setMemB (areaBase a + x.1) x.2)

/-- The STAGED package and its image area are gone; the load that ran has ended (R290, R293, R299). -/
def freeStaged (d : Dev) : Dev :=
  ((d.modFlash (fun f => { f with staged := none, areas := putAt f.areas 2 none })).modCfg
    (fun c => { c with loading := [], chunks := [], lsess := none })).set CFG_LOADED_BYTES 0

/-- A chunk length that R289 admits. -/
def lenOk (len : Nat) : Bool := len % 4 == 0 && 4 ≤ len && len ≤ 65536

/-- The chunk in the load window (R289): it is taken as it stands at the CFG_LOAD write (DESIGN CHOICE: log entry 49). -/
def windowBytes (d : Dev) (len : Nat) : List Byte := d.memB 0xFE0000 len

/-- CFG_LOAD with FIRST = 1 by session `s` (R289, R290). A first chunk that does not hold the header is refused as LENGTH (DESIGN
CHOICE, log entry 49: R290 gives no reason). -/
def loadFirst (d : Dev) (s len : Nat) : Dev :=
  if stagedSt d = stVerifying ∨ stagedSt d = stArmed then lastErr d 14
  else if lenOk len = false ∨ len < 128 then lastErr d 17
  else
    ((freeStaged d).modCfg (fun c => { c with chunks := [windowBytes d len], lsess := some s, permit := none })).set
      CFG_STAT_STAGED stLoading

/-- CFG_LOAD with FIRST = 0 by session `s` (R289). -/
def loadNext (d : Dev) (s len : Nat) : Dev :=
  if d.cfg.lsess ≠ some s then lastErr d 16
  else if stagedSt d ≠ stLoading then lastErr d 14
  else if lenOk len = false then lastErr d 17
  else d.modCfg (fun c => { c with chunks := c.chunks ++ [windowBytes d len] })

/-- The bytes of `l` stand in STAGED's flash slot, as the package that they spell; no chunk is on its way. -/
def keepLoaded (d : Dev) (l : List Byte) : Dev :=
  (d.modFlash (fun f => { f with staged := some (parsePackage d.part l) })).modCfg (fun c => { c with loading := [], chunks := [] })

/-- TOTAL of the header in the bytes of a package (R284). -/
def totalOf (l : List Byte) : Nat := numAt l 80 4

/-- CHUNK_APPENDED: the oldest chunk reaches flash, or programming fails (R289, R290). -/
def chunkDone (d : Dev) (flashOk : Bool) : Dev :=
  match d.cfg.chunks with
  | [] => d
  | c :: rest =>
    let l := d.cfg.loading ++ c
    if flashOk = false then raise (rejectStaged (keepLoaded d d.cfg.loading) 10) 0x60 3
    else if 0x800000 < totalOf l ∨ totalOf l < l.length then rejectStaged (keepLoaded d d.cfg.loading) 8
    else
      let d := (d.modCfg (fun x => { x with loading := l, chunks := rest })).set CFG_LOADED_BYTES l.length
      if l.length = totalOf l then ((keepLoaded d l).set CFG_STAT_STAGED stLoaded).ist 0x60 0 else d

/-- CFG_CMD.CMD = VERIFY (R291). -/
def verifyStart (d : Dev) : Dev :=
  if stagedSt d = stLoaded then (d.modCfg (fun c => { c with loading := [], chunks := [] })).set CFG_STAT_STAGED stVerifying
  else lastErr d 14

/-- The ASCII text of the part number, a hyphen and the stepping (R287): the stepping 0x00 is A0, 0x01 is A1, 0x10 is B0. -/
def partText (v : Variant) (step : Nat) : List Byte :=
  let digits := match v with
    | .dn6400 => [0x36, 0x34, 0x30, 0x30]
    | .dn3200 => [0x33, 0x32, 0x30, 0x30]
    | .dn1600 => [0x31, 0x36, 0x30, 0x30]
    | .dn0800 => [0x30, 0x38, 0x30, 0x30]
  ([0x44, 0x4E, 0x2D] ++ digits ++ [0x2D, 0x41 + step / 16, 0x30 + step % 16]).map (BitVec.ofNat 8)

/-- The compatibility hash (R287). -/
def compatHash (d : Dev) : BitVec 384 := sha384 (partText d.part d.step)

/-- Check 6 of R291: a higher version than ACTIVE's, or a permit for the digest. -/
def versionOk (d : Dev) (pkg : Package) : Bool :=
  (match d.flash.active with | some a => a.version < pkg.version | none => true) || d.cfg.permit == some pkg.digest

/-- The digest of a GATE section (R430). -/
def listDigest (l : List (Nat × Word × Word)) : BitVec 384 :=
  sha384 ((List.range 240).flatMap (fun k => match findKey (k + 16) l with
    | some e => bytesOf e.1.toNat ++ bytesOf e.2.toNat
    | none => List.replicate 8 0#8))

/-- The section equals entries 16 to 255 of the table in force. -/
def sameTable (d : Dev) (l : List (Nat × Word × Word)) : Bool :=
  (List.range 240).all (fun k => listEntry d l (k + 16) == (tblW d (k + 16) 0, tblW d (k + 16) 1))

/-- Check 8 of R291. -/
def gateAllowed (d : Dev) (pkg : Package) : Bool :=
  match pkg.gate with
  | none => true
  | some l => !d.cert || sameTable d l || d.gate.permit == some (listDigest l)

/-- Check 9 of R291, with R430 for the GATE section. -/
def expandsOk (d : Dev) (pkg : Package) : Bool :=
  pkg.expandOk && (match pkg.gate with | none => true | some l => (tableError (listEntry d l)).1 == 0)

/-- Checks 1 to 5, 7 and 9 of R291 (the start-up check of R301); with `full`, checks 6 and 8 in their places. The reason
code of the first failure, 0 for none. -/
def checkPackage (o : Otp) (d : Dev) (full : Bool) (pkg : Package) : Nat :=
  if pkg.formOk = false then 1
  else if o.usable pkg.auth = false ∨ pkg.apkHash ≠ (o.slot pkg.auth).hash then 2
  else if pkg.device ≠ 0#128 ∧ pkg.device ≠ o.devId then 6
  else if pkg.compat ≠ compatHash d then 5
  else if pkg.fwver ≠ d.flash.fwver then 7
  else if full = true ∧ versionOk d pkg = false then 4
  else if pkg.sigOk = false then 3
  else if full = true ∧ gateAllowed d pkg = false then 9
  else if expandsOk d pkg = false then 11
  else 0

/-- VERIFY_COMPLETE (R291). -/
def verifyDone (o : Otp) (d : Dev) : Dev :=
  if stagedSt d ≠ stVerifying then d
  else
    match d.flash.staged with
    | none => d
    | some pkg =>
      let reason := checkPackage o d true pkg
      if reason ≠ 0 then rejectStaged d reason
      else
        let a := freeArea d
        (((expand d pkg a).modFlash (fun f => { f with areas := putAt f.areas 2 (some a) })).set CFG_STAT_STAGED
          stVerified).ist 0x60 1

/-- DISARM (R293). -/
def disarmOp (d : Dev) : Dev := if stagedSt d = stArmed then d.set CFG_STAT_STAGED stVerified else lastErr d 14

/-- ERASE (R293). -/
def eraseOp (d : Dev) : Dev :=
  let st := stagedSt d
  if st = stArmed ∨ st = stVerifying then lastErr d 14
  else if st = stEmpty then d
  else
    let d := (freeStaged d).set CFG_STAT_STAGED stEmpty
    if st = stLoading then lastErr d 18 else d

/-- CFG_CMD.CMD: 1 VERIFY, 2 DISARM, 3 ERASE. -/
def cfgCommand (d : Dev) (cmd : Nat) : Dev :=
  if cmd = 1 then verifyStart d else if cmd = 2 then disarmOp d else if cmd = 3 then eraseOp d else d

/-- The checks of R292 in order: the LASTERR code of the first failure, 0 for none. -/
def armReason (d : Dev) (digest : BitVec 384) (t : Nat) : Nat :=
  match d.flash.staged with
  | none => 14
  | some pkg =>
    if stagedSt d ≠ stVerified then 14
    else if digest ≠ pkg.digest then 15
    else if versionOk d pkg = false then 4
    else if d.has CFG_STAT_PROB = true then 13
    else if t < d.tick + 2 then 12
    else 0

/-- ARM (R292): the truth value says that STAGED is armed. -/
def armOp (r : OpReq) (s : State) : State × Bool :=
  match r.pennant.operand with
  | .digestTick h t =>
    let reason := armReason s.dev h t
    if reason ≠ 0 then ({ s with dev := lastErr s.dev reason }, false)
    else
      let d := ((s.dev.set CFG_STAT_STAGED stArmed).setW CFG_ARMTICKLO (t % 2 ^ 32)).setW CFG_ARMTICKHI (t / 2 ^ 32 % 2 ^ 16)
      ({ s with dev := d.ist 0x60 3 }, true)
  | _ => (s, false)

/-- ROLLBACK (R301). -/
def rollbackOp (r : OpReq) (s : State) : State × Bool :=
  match r.pennant.operand with
  | .digest h =>
    if h = 0#384 then
      (if s.dev.flash.previous.isNone then (s, false)
       else ({ s with dev := s.dev.modCfg (fun c => { c with manualAt := insertNat (s.dev.tick + 2) c.manualAt }) }, true))
    else ({ s with dev := s.dev.modCfg (fun c => { c with permit := some h }) }, true)
  | _ => (s, false)

/-- The commit tick of the armed package. -/
def armTick (d : Dev) : Nat := d.getW CFG_ARMTICKHI * 2 ^ 32 + d.getW CFG_ARMTICKLO

/-- Registers that a write commands and that hold nothing (they read 0): a package value of one has no effect. -/
def commandReg (p off : Nat) : Bool :=
  (0x90 ≤ p && p < 0x98 && off == 0x044) || (0x80 ≤ p && p < 0x90 && off == 0x04C)
  || (p == 0x60 && (off == 0x044 || off == 0x048)) || (p == 0x40 && off == 0x044) || (p == 0x70 && off == 0x054)
  || (p == 0 && off == 0x04C) || (p == 0x42 && 0x800 ≤ off)

/-- The field is one that a package value replaces: RW, RWS, RWP and RWL fields, and every field of a register that is set
by package commit. -/
def coveredField (p off : Nat) (f : Acc × Nat × Nat) : Bool :=
  setByCommit p off || f.1 == .rw || f.1 == .rws || f.1 == .rwp || f.1 == .rwl

/-- The mask of some fields of a register row. -/
def rowMask (r : RegRow) (pick : Acc × Nat × Nat → Bool) : Nat :=
  r.acc.foldl (fun m f => if pick f then m ||| maskBits f.2.1 f.2.2 else m) 0

/-- `x` with the bits of a mask replaced by those of `v`. -/
def blend (x m v : Nat) : Nat := (x &&& (2 ^ 32 - 1 - m % 2 ^ 32)) ||| (v &&& m)

/-- The pending host shadows of a register discarded, each field counted in SUPERSEDED (R294). -/
def dropShadow (d : Dev) (r : RegRow) (k : Nat) : Dev :=
  match findKey k d.shadows with
  | none => d
  | some (m, _) =>
    let n := (r.acc.filter (fun f => f.1 == .rws && m &&& maskBits f.2.1 f.2.2 != 0)).length
    ({ d with shadows := delKey k d.shadows }).add CFG_CNT_SUPERSEDED n

/-- ENFORCE stays 1 in certified mode (R231, R280). -/
def enforceKept (d : Dev) (p off x : Nat) : Nat :=
  if d.cert = true ∧ 0x100 ≤ p ∧ p % 4 = 2 ∧ off = 0x080 then putBit x 31 true else x

/-- One pair of a REGS section applied (R294, R296). At start-up (`boot`) no block runs and R296 does not apply. -/
def applyPair (boot : Bool) (d : Dev) (a v : Nat) : Dev :=
  let p := (a - 0x2000000) / 4096
  let off := a % 4096
  if inRegs a = false ∨ populated d.part p = false ∨ commandReg p off = true then d
  else
    match regRow p off with
    | none => d
    | some r =>
      if hasAcc r .rws = false ∧ hasAcc r .rwp = false ∧ setByCommit p off = false then d
      else
        let k := rkey p off
        let old := d.getW k
        let new := enforceKept d p off (heldAs p off (blend old (rowMask r (coveredField p off)) v))
        let d := (dropShadow d r k).setW k new
        let d := if (p = 0x11 ∨ p = 0x12) ∧ off = 0x044 ∧ old ≠ new then d.setDom (p - 0x11) { (d.dom (p - 0x11)) with skip := true }
          else d
        if boot = false ∧ p = 0x52 ∧ off = 0x040 ∧ bitOf old 31 ≠ bitOf new 31 ∧ d.has (PG_CTL_EN p) = true then softReset d p
        else d

/-- Pages that hold a register of the REGS section take the new generation (R297). -/
def genPages (d : Dev) (pkg : Package) : Dev :=
  d.forEach pkg.regs (fun d e =>
    let p := (e.1 - 0x2000000) / 4096
    if inRegs e.1 = true ∧ populated d.part p = true then d.setW (PG_GEN p) (d.getW CFG_GEN) else d)

/-- The records of a package's map entries with their entry and source. -/
def pkgRecords (pkg : Package) : List (Nat × PiEnt × Nat × Nat) :=
  pkg.maps.flatMap (fun m => ((pkg.ents.drop m.first).take m.nrec).map (fun e => (e.record, e, m.ch, m.src)))

/-- The records of the map entries that a package adds or changes (R315). -/
def newRecords (old : Option Package) (pkg : Package) : List Nat :=
  let was := match old with | some p => pkgRecords p | none => []
  ((pkgRecords pkg).filter (fun e => !was.contains e)).map (fun e => e.1)

/-- The DESC entry of channel `c`. -/
def chanDesc (pkg : Package) (c : Nat) : ChanDesc :=
  match pkg.desc.find? (fun e => e.ch == c) with | some e => e | none => ⟨c, 0, 0, 0, 0, []⟩

/-- The receive descriptors of channel `c` whose words 0 to 2 or whose channel change (R295). -/
def descChanges (old : Option Package) (pkg : Package) (c : Nat) : List RxDescInit :=
  let was := match old with | some p => (chanDesc p c).rx | none => []
  (chanDesc pkg c).rx.filter (fun r => !was.contains r)

/-- The descriptor ranges of channel `c` and its descriptor changes (R288, R295). Changes that an earlier package left
still to be made are made with them. -/
def applyDescSection (old : Option Package) (pkg : Package) (boot : Bool) (d : Dev) (c : Nat) : Dev :=
  let e := chanDesc pkg c
  let d := ((d.set (CHT_TXRANGE_BASE c) e.txBase).set (CHT_TXRANGE_CNT c) e.txCnt).setW (CHT_TXADDR c) (16 * e.txBase)
  let d := ((d.set (CHX_RXRANGE_BASE c) e.rxBase).set (CHX_RXRANGE_CNT c) e.rxCnt).setW (CHX_RXADDR c) (16 * e.rxBase)
  let left := (d.chan c).descWork
  let work := (e.rx.filter (fun r => left.any (fun l => l.d == r.d) && !(descChanges old pkg c).contains r)) ++ descChanges old pkg c
  if boot then d.forEach work applyDesc else d.modChan c (fun x => { x with descWork := work })

/-- The node set and quiet groups of channel `c` (R285, R373); the nodes that enter or leave it (R204). -/
def applyNodes (pkg : Package) (d : Dev) (c : Nat) : Dev :=
  let n := match pkg.nodes.find? (fun e => e.ch == c) with | some e => e | none => ⟨c, 0, []⟩
  let was := (d.chan c).nodeSet
  let d := d.modChan c (fun x => { x with nodeSet := n.mask, groups := n.groups })
  d.forEach ((List.range 32).filter (fun a => 1 ≤ a && bitOf was a != bitOf n.mask a)) (fun d a =>
    let d := ((d.setBit (CHS_FENCE c) a false).set (CHS_NODE_FENCED c a) 0).set (CHS_NODE_SCORE c a) 0
    let d := (d.set (CHS_NODE_WARN c a) 0).setBit (CHS_WARNM c) a false
    d.modChan c (fun x => { x with fenceUntil := x.fenceUntil.filter (fun e => e.1 != a), unfReq := x.unfReq.filter (· != a) }))

/-- The service range of channel `c` (R331). -/
def applySvcRange (pkg : Package) (d : Dev) (c : Nat) : Dev :=
  let e := match pkg.svc.find? (fun e => e.ch == c) with | some e => e | none => ⟨c, 0, 0, 0⟩
  (d.set (SVC_TORANGE_BASE c) e.toBase).set (SVC_TORANGE_CNT c) e.toCnt

/-- The granule of the descriptor area holds a receive descriptor of a channel (R434). -/
def holdsRx (d : Dev) (g : Nat) : Bool :=
  d.chanList.any (fun c =>
    let b := d.get (CHX_RXRANGE_BASE c)
    let n := d.get (CHX_RXRANGE_CNT c)
    n != 0 && b / 256 ≤ g && g ≤ (b + n - 1) / 256)

/-- The marks of GATE_RXGRAN (R434). -/
def markGranules (d : Dev) : Dev :=
  d.forEach (List.range 64) (fun d g => d.setBit (GATE_RXGRAN (g / 32)) (g % 32) (holdsRx d g))

/-- GATE_STG takes the entries of a table. -/
def stageTable (d : Dev) (entry : Nat → Nat × Nat) : Dev :=
  d.forEach (List.range 240) (fun d k =>
    (d.setW (GATE_STG (k + 16) 0) (entry (k + 16)).1).setW (GATE_STG (k + 16) 1) (entry (k + 16)).2)

/-- The GATE section of a package starts its commit; a GO still in progress is refused as SUPERSEDED (R429, R436, R438);
at start-up it takes effect at once (R471 step 6). -/
def applyGate (pkg : Package) (boot : Bool) (d : Dev) : Dev :=
  match pkg.gate with
  | none => stageTable d (fun i => (tblW d i 0, tblW d i 1))
  | some l =>
    let e := listEntry d l
    let d := if d.gate.drain.isSome then
        gateRefuse (({ d with gate := { d.gate with drain := none } }).set GATE_COMMIT_BUSY 0) 5 0 0
      else d
    let d := if d.cert = true ∧ sameTable d l = false then dropPermit d else d
    let d := stageTable d e
    if boot then (if (tableError e).1 = 0 then writeTable d l else d) else tryCommit d e l false

/-- A package takes force: the effects of R294 and R295 but the roles, at tick `t`. -/
def takeForce (d : Dev) (old : Option Package) (pkg : Package) (area : Option Nat) (boot : Bool) : Dev :=
  let d := d.forEach pkg.regs (fun d e => applyPair boot d e.1 e.2.toNat)
  let d := match area with
    | some a => d.forEach d.hamList (fun d h => d.setW (HAM_FILTADDR h) (areaBase a + 0x4000 * h))
    | none => d
  let d := d.forEach d.chanList (fun d c => applySvcRange pkg (applyNodes pkg (applyDescSection old pkg boot d c) c) c)
  let d := if boot then d else { d with svc := { d.svc with initTodo := newRecords old pkg } }
  applyGate pkg boot (markGranules d)

/-- CFG_GEN rises once at a commit point (R297). -/
def raiseGen (d : Dev) : Dev :=
  if d.cfg.genAt = some d.tick then d
  else (d.incWrap CFG_GEN_GEN).modCfg (fun c => { c with genAt := some d.tick })

/-- The copy of the role record that start-up uses: the valid one with the higher sequence number (R286). -/
def Flash.record (f : Flash) : RoleRec :=
  let a := elemAt ⟨0, false, none, none, [0, 1, 2], false⟩ f.recs 0
  let b := elemAt ⟨0, false, none, none, [0, 1, 2], false⟩ f.recs 1
  if a.valid = true ∧ (b.valid = false ∨ b.seq ≤ a.seq) then a else b

/-- The number of the other copy, which the next writing replaces. -/
def Flash.spareCopy (f : Flash) : Nat := if f.record = elemAt f.record f.recs 0 then 1 else 0

/-- The writing of the role record starts: the older copy is not valid while it is written (R286). -/
def Flash.startRecord (f : Flash) : Flash :=
  { f with recordDone := false, recs := putAt f.recs f.spareCopy { f.record with valid := false } }

/-- The roles after a change of ACTIVE: packages, flash slots and image areas in the order ACTIVE, PREVIOUS, STAGED; the
role record is still to be written (R286, R294). -/
def setRoles (d : Dev) (act prev staged : Option Package) (slots : List Nat) (areas : List (Option Nat)) : Dev :=
  d.modFlash (fun f => { f.startRecord with active := act, previous := prev, staged := staged, slots := slots, areas := areas })

def slotOf (d : Dev) (role : Nat) : Nat := elemAt 0 d.flash.slots role

/-- Probation of `n` ticks starts in the tick in force (R298). -/
def startProbation (d : Dev) (n : Nat) : Dev :=
  let d := d.modCfg (fun c => { c with failed := 0, failAt := 0, escSeen := false, ovrSeen := false, sessRun := 0, probStart := d.tick, probLen := n })
  if n = 0 then d.ist 0x60 5 else (d.set CFG_STAT_PROB 1).set CFG_PROBLEFT_TICKS (min n (fldTop CFG_PROBLEFT_TICKS))

/-- Probation is over. -/
def endProbation (d : Dev) : Dev :=
  ((d.set CFG_STAT_PROB 0).set CFG_PROBLEFT_TICKS 0).modCfg (fun c => { c with failed := 0, failAt := 0 })

/-- CFG_CNT.COMMITS and PG_IST.COMMIT (R294, R299). -/
def countCommit (d : Dev) : Dev := (d.inc CFG_CNT_COMMITS).ist 0x60 4

/-- The armed package commits (R294, R298); the tick in force is the commit tick. -/
def commitPackage (d : Dev) : Dev :=
  match d.flash.staged with
  | none => d
  | some pkg =>
    let old := d.flash.active
    let d := setRoles d (some pkg) old none [slotOf d 2, slotOf d 0, slotOf d 1] [d.area 2, d.area 0, none]
    let d := ((d.set CFG_STAT_STAGED stEmpty).set CFG_LOADED_BYTES 0).modCfg (fun c => { c with permit := none, lsess := none })
    let d := takeForce d old pkg (d.area 0) false
    let d := genPages (raiseGen d) pkg
    let d := startProbation d (if pkg.prob = 0 then d.get CFG_PROBATION_TICKS else pkg.prob)
    condEnd (countCommit d) 0x60 0

/-- What a return records (R299). -/
def recordReturn (d : Dev) (cause : Nat) : Dev :=
  ((d.setW CFG_RETLAST (cause * 2 ^ 28 + d.tick % 2 ^ 24)).inc CFG_CNT_RETURNS).ist 0x60 6

/-- The roles of a return after a failed probation (R299). -/
def returnRoles (d : Dev) (act : Option Package) : Dev :=
  if stagedSt d = stVerified then
    setRoles d act none d.flash.staged [slotOf d 1, slotOf d 0, slotOf d 2] [d.area 1, none, d.area 2]
  else
    let failed := d.flash.active
    let d := freeStaged d
    lastErr ((setRoles d act none failed [slotOf d 1, slotOf d 2, slotOf d 0] [d.area 1, none, none]).set
      CFG_STAT_STAGED stRejected) 13

/-- The return of R299 with its cause. Without a PREVIOUS package ACTIVE stays in force, and the failure is recorded. -/
def returnOp (d : Dev) (cause : Nat) : Dev :=
  match d.flash.previous with
  | none => raise (recordReturn (endProbation d) cause) 0x60 2
  | some pkg =>
    let old := d.flash.active
    let d := endProbation (returnRoles d (some pkg))
    let d := takeForce d old pkg (d.area 0) false
    let d := countCommit (genPages (raiseGen d) pkg)
    raise (recordReturn d cause) 0x60 2

/-- A manual return out of probation: ACTIVE and PREVIOUS exchange roles (R301). -/
def exchangeOp (d : Dev) : Dev :=
  match d.flash.previous with
  | none => d
  | some pkg =>
    let old := d.flash.active
    let d := setRoles d (some pkg) old d.flash.staged [slotOf d 1, slotOf d 0, slotOf d 2] [d.area 1, d.area 0, d.area 2]
    let d := if stagedSt d = stArmed then d.set CFG_STAT_STAGED stVerified else d
    let d := takeForce d old pkg (d.area 0) false
    let d := countCommit (genPages (raiseGen d) pkg)
    recordReturn d 5

/-- The manual return that is due in the tick in force (R301, R305). -/
def manualReturnOp (d : Dev) : Dev :=
  let d := d.modCfg (fun c => { c with manualAt := c.manualAt.filter (fun t => decide (d.tick < t)) })
  if d.has CFG_STAT_PROB = true then returnOp d 5 else exchangeOp d

/-- The cause of a probation failure that has been detected, 0 for none (R298). -/
def failCause (d : Dev) : Nat :=
  if d.cfg.ovrSeen = true then 1 else if d.cfg.escSeen = true then 2
  else if d.get CFG_SESSWAIT_TICKS ≤ d.cfg.sessRun ∧ d.cfg.sessRun ≠ 0 then 3 else 0

/-- A probation failure is noted at commit point `t` (R298). -/
def noteFailure (d : Dev) (t : Nat) : Dev :=
  if d.has CFG_STAT_PROB = true ∧ d.cfg.failed = 0 ∧ failCause d ≠ 0 then
    d.modCfg (fun c => { c with failed := failCause d, failAt := t })
  else d

/-- Probation at the commit point of the tick in force (R298): the session run, CFG_PROBLEFT, failure, or the end. -/
def probationTick (d : Dev) : Dev :=
  if d.has CFG_STAT_PROB = false ∨ d.cfg.failed ≠ 0 then d
  else
    let live := d.sess.any (fun x => x.st == .opened && x.live)
    let d := if d.cfg.probStart < d.tick then d.modCfg (fun c => { c with sessRun := if live then 0 else c.sessRun + 1 }) else d
    let left := d.cfg.probStart + d.cfg.probLen - d.tick
    let d := noteFailure (d.set CFG_PROBLEFT_TICKS (min left (fldTop CFG_PROBLEFT_TICKS))) d.tick
    if d.cfg.failed = 0 ∧ left = 0 then (endProbation d).ist 0x60 5 else d

/-- What happens with packages at step 2 of the commit point of the tick in force: a manual return, the return after a
failure found at an earlier commit point, or the armed commit (R294, R299, R301, R305). -/
def packageTick (d : Dev) : Dev :=
  let d := if d.cfg.manualAt.any (fun t => decide (t ≤ d.tick)) = true then manualReturnOp d
    else if d.cfg.failed ≠ 0 ∧ d.cfg.failAt < d.tick then returnOp d d.cfg.failed
    else d
  if stagedSt d = stArmed ∧ armTick d ≤ d.tick then commitPackage d else d

/-- The older copy of the role record takes the roles in force and the next sequence number (R286). -/
def writeRoles (d : Dev) : Dev :=
  d.modFlash (fun f =>
    let copy : RoleRec := ⟨f.record.seq + 1, true, f.active, f.previous, f.slots, d.has CFG_STAT_PROB⟩
    { f with recordDone := true, recs := putAt f.recs f.spareCopy copy })

/-- CHUNK_APPENDED (R289, R290). -/
def execChunkAppended (flashOk : Bool) (s : State) : Host.Outcome State Fault Refusal := act s (fun d => chunkDone d flashOk)
/-- VERIFY_COMPLETE (R291). -/
def execVerifyComplete (s : State) : Host.Outcome State Fault Refusal := act s (fun d => verifyDone s.otp d)
/-- ARM (R292). -/
def execArm (s : State) : Host.Outcome State Fault Refusal := actAll s (fun s => runOpWith s 0x01 armOp)
/-- ROLLBACK (R301). -/
def execRollback (s : State) : Host.Outcome State Fault Refusal := actAll s (fun s => runOpWith s 0x02 rollbackOp)
/-- ROLE_RECORD_WRITE (R286, R294). -/
def execRoleRecordWrite (s : State) : Host.Outcome State Fault Refusal :=
  act s writeRoles

end Sys2Proof.Machine
end

