-- ==== Sys2Proof/Machine/Power.lean ====
section
/-! DEFINITION. Power, last gasp, resets and start-up (19), the thermal trip and the TAP (20). -/

namespace Sys2Proof.Machine

open Sys2Proof

/-- An input of the pair is present. -/
def PwrSt.has (p : PwrSt) : Side → Bool
  | .a => p.inA
  | .b => p.inB

/-- Input `x` set present or lost. -/
def PwrSt.put (p : PwrSt) (x : Side) (b : Bool) : PwrSt :=
  match x with
  | .a => { p with inA := b }
  | .b => { p with inB := b }

/-- The strapped main input (R459, R475). -/
def mainInput (st : Straps) : Side := if st.main then .b else .a

def otherInput : Side → Side
  | .a => .b
  | .b => .a

/-- The input that carries the load under the straps: the main one, or the backup while the main one is lost (R459). -/
def loadInput (p : PwrSt) (st : Straps) : Nat :=
  if p.has (mainInput st) then (mainInput st).num + 1
  else if p.has (otherInput (mainInput st)) then (otherInput (mainInput st)).num + 1 else 0

/-- The power handling changed. -/
def Dev.modPwr (d : Dev) (f : PwrSt → PwrSt) : Dev := { d with pwr := f d.pwr }

/-- The flash after a restart: the role record gives ACTIVE and PREVIOUS, and STAGED is empty (R286, R303). -/
def restartFlash (f : Flash) : Flash :=
  let f := { f with staged := none, areas := [none, none, none] }
  if f.recordDone then f
  else { f with active := f.record.active, previous := f.record.previous, slots := f.record.slots, recordDone := true }

/-- Probation runs, as a restart finds it (R300). -/
def probationAt (d : Dev) : Bool := if d.flash.recordDone then d.has CFG_STAT_PROB else d.flash.record.prob

/-- The flash of a part that is held in reset or loses its rails, with the probation that its next start-up finds. -/
def noteProbation (d : Dev) (prob : Bool) : Dev :=
  (d.modFlash (fun f => { f with recs := f.recs.map (fun r => { r with prob := prob }) })).setB CFG_STAT_PROB prob

/-- The last-gasp record whose write has not completed keeps VALID = 0 (R466). -/
def cutRecord (d : Dev) : Dev :=
  if d.pwr.gasp = true ∧ d.pwr.recorded = false then d.modFlash (fun f => { f with lgrec := [] }) else d

/-- What a reset clears (R473): all but fuses, flash, the always-on domain, the link and power levels outside the part, and
the model's own output log and counter. -/
def clearDev (o : Otp) (d : Dev) (st : Straps) (aon : Aon) : Dev :=
  let d := cutRecord d
  { Dev.reset with part := o.variant, step := o.step, straps := st, cert := o.cert, aon := aon, flash := restartFlash d.flash,
                   hams := List.replicate 8 { Ham.reset with wheel := Wheel.fromCycle aon.cycles },
                   pwr := { d.pwr with recorded := d.pwr.gasp, returned := none, src := loadInput d.pwr st,
                                             gasp := d.pwr.gasp && !d.pwr.inA && !d.pwr.inB },
                   lastMsg := aon.cycles, out := d.out, fresh := d.fresh }

/-- Every populated page below the channels, and the pages of a channel that the package's DESC, NODES or REGS names
(R471 step 6). -/
def usedPages (d : Dev) (pkg : Package) : List Nat :=
  let chans := d.chanList.filter (fun c => pkg.desc.any (fun e => e.ch == c) || pkg.nodes.any (fun e => e.ch == c)
    || pkg.regs.any (fun e => inRegs e.1 && decide (0x100 ≤ (e.1 - 0x2000000) / 4096) && pageChan ((e.1 - 0x2000000) / 4096) == c))
  (List.range 0x100).filter (populated d.part) ++ chans.flatMap (fun c => [pCHC c, pCHT c, pCHX c, pCHS c])

/-- The package takes force at start-up from area 0; PREVIOUS has area 1 (R286, R471 step 6). -/
def bootPackage (d : Dev) (pkg : Package) (prev : Option Package) : Dev :=
  let d := expand d pkg 0
  let d := match prev with | some p => expand d p 1 | none => d
  let d := d.modFlash (fun f => { f with areas := [some 0, if prev.isSome then some 1 else none, none] })
  let d := takeForce d none pkg (some 0) true
  d.forEach (usedPages d pkg) enablePage

/-- A restart during probation returns to PREVIOUS (R300). With PREVIOUS empty ACTIVE stays, and the failure is recorded. -/
def bootReturn (d : Dev) : Dev :=
  match d.flash.previous with
  | none => raise (recordReturn d 4) 0x60 2
  | some p =>
    let failed := d.flash.active
    let d := lastErr ((setRoles d (some p) none failed [slotOf d 1, slotOf d 2, slotOf d 0] [none, none, none]).set
      CFG_STAT_STAGED stRejected) 13
    raise (recordReturn (countCommit d) 4) 0x60 2

/-- Step 6 of R471: the role record, the start-up checks of R301, and the package in force. -/
def bootPackages (o : Otp) (d : Dev) (probation : Bool) : Dev :=
  let d := if probation then bootReturn d else d
  let good (p : Package) : Bool := checkPackage o d false p == 0
  match d.flash.active with
  | some a =>
    if good a then bootPackage d a d.flash.previous
    else
      let d := raise d 0x60 1
      match d.flash.previous with
      | some p =>
        if good p then bootPackage (setRoles d (some p) none d.flash.staged [slotOf d 1, slotOf d 0, slotOf d 2] [none, none, none]) p none
        else raise (d.set CFG_STAT_NOPKG 1) 0x60 0
      | none => raise (d.set CFG_STAT_NOPKG 1) 0x60 0
  | none =>
    match d.flash.previous with
    | some p =>
      if good p then bootPackage (setRoles d (some p) none d.flash.staged [slotOf d 1, slotOf d 0, slotOf d 2] [none, none, none]) p none
      else raise (d.set CFG_STAT_NOPKG 1) 0x60 0
    | none => raise (d.set CFG_STAT_NOPKG 1) 0x60 0

/-- The identity key pairs generated at first power (R244, R259): the part with the draw that they took, and its fuses. -/
def firstPower (s : State) : State :=
  if s.otp.idPub = [] then
    (let k := identityKeys s.dev.draw.2
     { s with otp := { s.otp with idPriv := k.map (fun e => e.1), idPub := k.map (fun e => e.2) }, dev := s.dev.draw.1 })
  else s

/-- The locks of certified mode, which no reset removes (R231, R280): ENFORCE is 1 on every channel. -/
def certStart (d : Dev) : Dev := if d.cert then d.forEach d.chanList (fun d c => d.setBit (CHX_AUTHCFG c) 31 true) else d

/-- Steps 1 to 6 of R471 on a cleared part: straps, VAUX, the storage key and the vault (R244), time in HOLDOVER when it is kept (R342,
R473), packages. -/
def startUp (o : Otp) (d : Dev) (probation : Bool) : Dev :=
  let d := d.setB PWR_CFG_VAUXEN d.straps.vaux
  let d := d.forEach (List.range 6) (fun d r => d.set (PWR_RAIL_INREG r) 1)
  let d := if d.aon.set then
      { (d.set TIME_STAT_STATE 2) with
          aon := { d.aon with rate := d.aon.learned }, tim := { d.tim with holdStart := d.nowSec, holdRaised := false },
          bell := { d.bell with next := d.nowNs + 2000000 } }
    else d
  certStart (bootPackages o (d.loadVault (Config.storageKey o.idPriv)) probation)

/-- A power-on reset (R471, R473). -/
def powerOn (s : State) (st : Straps) : State :=
  let s := firstPower s
  let d := s.dev
  let prob := probationAt d
  let d := clearDev s.otp (d.modPwr (fun p => { p with off := false, tripped := false, tapHold := false, gasp := false })) st Aon.reset
  let d := startUp s.otp d prob
  { s with dev := d.setB PWR_STAT_VAUXON st.vaux }

/-- What lies outside RST_N's reach in the power die: HOLD measured, VAUX on (R463, R468, R473). -/
def keepPower (old d : Dev) : Dev :=
  ((d.set PWR_STAT_HOLDOK (old.get PWR_STAT_HOLDOK)).set PWR_HOLD_CAP (old.get PWR_HOLD_CAP)).set PWR_STAT_VAUXON
    (old.get PWR_STAT_VAUXON)

/-- A restart that keeps device time (R473) with a cause of DEV_RSTCAUSE. The TAP no longer holds the part. -/
def restart (s : State) (st : Straps) (cause : Nat) : State :=
  let s := firstPower s
  let d := s.dev
  let aon := { d.aon with cause := cause, timeKept := d.aon.set, release := d.aon.cycles }
  let prob := probationAt d
  let c := clearDev s.otp (d.modPwr (fun p => { p with tapHold := false })) st aon
  { s with dev := keepPower d (startUp s.otp c prob) }

/-- The part held in reset by the TAP (R488): everything outside the always-on domain is reset. -/
def holdReset (s : State) : State :=
  let d := s.dev
  let prob := probationAt d
  let c := clearDev s.otp d d.straps { d.aon with cause := 1, timeKept := d.aon.set }
  let c := (keepPower d c).modPwr (fun p => { p with tapHold := true })
  { s with dev := noteProbation c prob }

/-- Every rail off (R464 step 4, R479): nothing but fuses, flash and the levels outside the part is left. -/
def powerOff (s : State) (tripped : Bool) : State :=
  let d := s.dev
  let prob := probationAt d
  let c := clearDev s.otp d d.straps Aon.reset
  let c := c.modPwr (fun p => { p with off := true, tripped := tripped, tapHold := false, gasp := false, src := 0 })
  { s with dev := noteProbation c prob }

/-- POWER_ON_RESET (R470, R471): power good needs an input and no thermal trip. -/
def powerGood (s : State) (st : Straps) : State :=
  if s.dev.pwr.tripped = true ∨ (s.dev.pwr.inA = false ∧ s.dev.pwr.inB = false) then s else powerOn s st

/-- RST_N (R473): no effect on a part without power, or held in reset by the TAP. -/
def rstN (s : State) (st : Straps) : State := if s.dev.powered then restart s st 1 else s

/-- The word that the IDCODE register shifts out (R487): DEV_PART.STEP, DEV_PART.PART, 0x35B and 1. No command of the table shifts it. -/
def tapIdcode (d : Dev) : Nat := d.step % 16 * 2 ^ 28 + Variant.part d.part * 2 ^ 12 + 0x35B * 2 + 1

/-- TAP_INSTRUCTION (R488, R280). -/
def tapOp (s : State) (i : TapOp) (st : Straps) : State :=
  let holds : Bool := match i with
    | .highz => true
    | .extest => !s.dev.cert
    | .clamp => !s.dev.cert
    | _ => false
  if s.dev.pwr.off = true then s
  else if holds = true then (if s.dev.pwr.tapHold then s else holdReset s)
  else if s.dev.pwr.tapHold = true then restart s st 1
  else s

/-- THERMAL_TRIP (R479). -/
def tripOp (s : State) : State := if s.dev.pwr.off then s else powerOff s true

/-- THERMAL_RECOVERY (R479). -/
def tripEnd (s : State) (st : Straps) : State :=
  if s.dev.pwr.tripped = true then powerGood { s with dev := s.dev.modPwr (fun p => { p with tripped := false }) } st else s

/-- Last gasp starts (R464 steps 1 and 2). -/
def startGasp (d : Dev) : Dev :=
  let d := (d.modPwr (fun p => { p with gasp := true, recorded := false, returned := none, src := 0,
                                         lgAt := (d.tick % 2 ^ 32, d.nowSec % 2 ^ 32, d.nowSub) })).modFlash
    (fun f => { f with lgrec := [] })
  let d := (d.set PWR_STAT_VAUXON 0).ist 0x08 2
  if d.powered then raise d 0x08 2 else d

/-- INPUT_LOST (R460, R464, R466). -/
def inputLostOp (d : Dev) (a b : Bool) : Dev :=
  let lostA := a && d.pwr.inA
  let lostB := b && d.pwr.inB
  let old := d.pwr.src
  let d := d.modPwr (fun p => { p with inA := p.inA && !a, inB := p.inB && !b })
  if d.pwr.off = true ∨ (lostA = false ∧ lostB = false) then d
  else if d.pwr.gasp = true then d
  else if d.pwr.inA = false ∧ d.pwr.inB = false then startGasp d
  else if (old = 1 ∧ lostA = true) ∨ (old = 2 ∧ lostB = true) then
    (let d := (((d.modPwr (fun p => { p with src := 3 - old })).inc PWR_CNT_SWITCH).ist 0x08 0)
     if d.powered then raise d 0x08 0 else d)
  else
    (let d := d.inc PWR_CNT_BACKLOST
     if d.powered then raise d 0x08 1 else d)

/-- The words of the last-gasp record (R467, DEV_LGREC). -/
def gaspRecord (d : Dev) : List Word :=
  let ps := ((List.range 512).filter (fun p => populated d.part p && d.get (PG_FLT_VALID p) == 1)).take 64
  [word (2 ^ 31 + ps.length), word d.pwr.lgAt.1, word d.pwr.lgAt.2.1, word d.pwr.lgAt.2.2]
    ++ ps.map (fun p => word (p * 2 ^ 23 + bitsOf (d.getW (PG_FLT p)) 31 24 * 2 ^ 15 + bitsOf (d.getW (PG_FLT p)) 7 0))

/-- A record of KIND 0x05 on each uplink that is still linked (R464 step 3): that of the level 3 reaction of page 0x008 (R416; DEDUCED:
log entry 5). -/
def gaspSend (d : Dev) : Dev :=
  d.send (.lastGasp (d.evRec 5 8 (d.getW (PG_FLT 8)) (3 * 2 ^ 28 + d.get (PG_FLTX_COUNT 8))))

/-- LAST_GASP_RECORD (R464 step 3, R466, R467). -/
def gaspDone (s : State) : State :=
  let d := s.dev
  if d.pwr.gasp = false ∨ d.pwr.recorded = true ∨ d.powered = false then s
  else
    let d := gaspSend (d.modFlash (fun f => { f with lgrec := gaspRecord d }))
    let d := d.modPwr (fun p => { p with recorded := true })
    match d.pwr.returned with
    | some st => restart { s with dev := d.modPwr (fun p => { p with gasp := false }) } st 4
    | none => { s with dev := d }

/-- HOLD_EXHAUSTED (R464 step 4). -/
def holdEmpty (s : State) : State := if s.dev.pwr.gasp then powerOff s false else s

/-- INPUT_RETURN (R466): after step 3 the device restarts at once, before it the restart waits for step 3. -/
def inputBack (s : State) (x : Side) (st : Straps) : State :=
  if s.dev.pwr.gasp = false then s
  else
    let s := { s with dev := s.dev.modPwr (fun p => p.put x true) }
    if s.dev.pwr.recorded = true ∧ s.dev.powered = true then
      restart { s with dev := s.dev.modPwr (fun p => { p with gasp := false }) } st 4
    else { s with dev := s.dev.modPwr (fun p => { p with returned := some st }) }

/-- INPUT_VALID (R461): a lost input outside last gasp is present again. -/
def inputValidOp (d : Dev) (x : Side) : Dev := if d.pwr.gasp then d else d.modPwr (fun p => p.put x true)

/-- REVERT (R461). -/
def revertOp (d : Dev) : Dev :=
  let m := mainInput d.straps
  if d.pwr.off = true ∨ d.pwr.gasp = true ∨ d.get PWR_CFG_REVERT = 0 ∨ d.pwr.has m = false ∨ d.pwr.src = m.num + 1 then d
  else ((d.modPwr (fun p => { p with src := m.num + 1 })).inc PWR_CNT_REVERTS).ist 0x08 1

/-- HOLD_LOW (R463). -/
def holdLowOp (d : Dev) (cap : Nat) : Dev := raise ((d.set PWR_STAT_HOLDOK 0).set PWR_HOLD_CAP (min cap 65535)) 0x08 3

/-- HOLD_CHARGED (R463). -/
def holdChargedOp (d : Dev) (cap : Nat) : Dev :=
  if cap < 200 then d else condEnd ((d.set PWR_STAT_HOLDOK 1).set PWR_HOLD_CAP (min cap 65535)) 0x08 3

/-- VAUX_OC (R468). -/
def vauxOcOp (d : Dev) : Dev :=
  if d.get PWR_STAT_VAUXON = 0 then d
  else raise ((((d.set PWR_STAT_VAUXON 0).set PWR_STAT_VAUXOC 1).ist 0x08 3).inc PWR_CNT_VAUXOC) 0x08 4

/-- VAUX on or off as VAUXEN says (R468); off in last gasp. -/
def vauxSet (d : Dev) (on : Bool) : Dev := condEnd (d.setB PWR_STAT_VAUXON (on && !d.pwr.gasp)) 0x08 4

/-- VAUX_RETRY (R468). -/
def vauxRetryOp (d : Dev) : Dev :=
  if d.get PWR_CFG_VAUXEN = 1 ∧ d.get PWR_STAT_VAUXON = 0 ∧ d.pwr.gasp = false then vauxSet d true else d

/-- RAIL_DEV (R494). -/
def railDevOp (d : Dev) (r : Nat) : Dev := if 6 ≤ r then d else raise (d.set (PWR_RAIL_INREG r) 0) 0x08 5

/-- RAIL_RETURN (R494). -/
def railBackOp (d : Dev) (r : Nat) : Dev :=
  if 6 ≤ r then d
  else
    let d := d.set (PWR_RAIL_INREG r) 1
    if (List.range 6).all (fun r => d.get (PWR_RAIL_INREG r) == 1) then condEnd d 0x08 5 else d

/-- DEV_RST (R473): GO = 1 with KEY = 0xD5. -/
def deviceRst (s : State) (v : Nat) (st : Straps) : State :=
  if bitOf v 31 = true ∧ bitsOf v 7 0 = 0xD5 then restart s st 2 else s

/-- POWER_ON_RESET (R471). -/
def execPowerOnReset (st : Straps) (s : State) : Host.Outcome State Fault Refusal := .next (powerGood s st)
/-- RST_N (R473). -/
def execRstN (st : Straps) (s : State) : Host.Outcome State Fault Refusal := .next (rstN s st)
/-- TAP_INSTRUCTION (R488). -/
def execTapInstruction (i : TapOp) (st : Straps) (s : State) : Host.Outcome State Fault Refusal := .next (tapOp s i st)
/-- THERMAL_TRIP (R479). -/
def execThermalTrip (s : State) : Host.Outcome State Fault Refusal := .next (tripOp s)
/-- THERMAL_RECOVERY (R479). -/
def execThermalRecovery (st : Straps) (s : State) : Host.Outcome State Fault Refusal := .next (tripEnd s st)
/-- INPUT_LOST (R460). -/
def execInputLost (a b : Bool) (s : State) : Host.Outcome State Fault Refusal := .next { s with dev := inputLostOp s.dev a b }
/-- LAST_GASP_RECORD (R467). -/
def execLastGaspRecord (s : State) : Host.Outcome State Fault Refusal := .next (gaspDone s)
/-- HOLD_EXHAUSTED (R464). -/
def execHoldExhausted (s : State) : Host.Outcome State Fault Refusal := .next (holdEmpty s)
/-- INPUT_RETURN (R466). -/
def execInputReturn (x : Side) (st : Straps) (s : State) : Host.Outcome State Fault Refusal := .next (inputBack s x st)
/-- INPUT_VALID (R461). -/
def execInputValid (x : Side) (s : State) : Host.Outcome State Fault Refusal := .next { s with dev := inputValidOp s.dev x }
/-- REVERT (R461). -/
def execRevert (s : State) : Host.Outcome State Fault Refusal := .next { s with dev := revertOp s.dev }
/-- HOLD_LOW (R463). -/
def execHoldLow (capUf : Nat) (s : State) : Host.Outcome State Fault Refusal := act s (fun d => holdLowOp d capUf)
/-- HOLD_CHARGED (R463). -/
def execHoldCharged (capUf : Nat) (s : State) : Host.Outcome State Fault Refusal := act s (fun d => holdChargedOp d capUf)
/-- VAUX_OC (R468). -/
def execVauxOc (s : State) : Host.Outcome State Fault Refusal := act s vauxOcOp
/-- VAUX_RETRY (R468). -/
def execVauxRetry (s : State) : Host.Outcome State Fault Refusal := act s vauxRetryOp
/-- RAIL_DEV (R494). -/
def execRailDev (r : Nat) (s : State) : Host.Outcome State Fault Refusal := act s (fun d => railDevOp d r)
/-- RAIL_RETURN (R494). -/
def execRailReturn (r : Nat) (s : State) : Host.Outcome State Fault Refusal := act s (fun d => railBackOp d r)

end Sys2Proof.Machine
end

