-- ==== Sys2Proof/Machine/View.lean ====
section
/-! DEFINITION. What a read of a register returns: the stored word, with the fields that report other state computed from
it, and the last value written to RWS fields (R7). A frozen page returns the words it had (PG_CTL.FREEZE). -/

namespace Sys2Proof.Machine

open Sys2Proof

/-- The word whose bit `i` is `f i` for `i < 32`. -/
def bitsWord (f : Nat → Bool) : Nat := (List.range 32).foldl (fun n i => if f i then n + 2 ^ i else n) 0

/-- Word `i` of a 384-bit value, most significant first. -/
def word384 (h : BitVec 384) (i : Nat) : Nat := h.toNat / 2 ^ (32 * (11 - i)) % 2 ^ 32

/-- The block carries out an operation that a register write started (PG_STAT.BUSY): its soft reset, a load or verification, a table
commit, an operation pennant, a self-test, a maintenance migration. -/
def busy (d : Dev) (p : Nat) : Bool :=
  ((d.page p).shadow.isSome && (d.page p).resetting && (d.page p).quietDue != 1)
  || (p == 0x60 && (stagedSt d == stVerifying || !d.cfg.chunks.isEmpty))
  || (p == 0x40 && d.gate.drain.isSome && d.gate.byGo)
  || (p == 0x28 && (!d.sec.ops.isEmpty || (List.range 8).any (fun s => d.get (PEN_OPSTAT_STATE s) == 3)))
  || (decide (0x80 ≤ p ∧ p < 0x90) && d.get (MILL_BIST_RESULT (p - 0x80)) == 3 && (d.mill (p - 0x80)).asked)
  || (decide (0x90 ≤ p ∧ p < 0x98) && ((d.ham (p - 0x90)).mig.map (fun g => g.cause)) == some 3)

/-- PG_STAT. -/
def pgStat (d : Dev) (p : Nat) : Nat :=
  16 * b2n (d.shadows.any (fun e => e.1 / 1024 == p)) + 8 * d.get (PG_STAT_WIGN p)
    + 4 * b2n (!(d.page p).live.isEmpty) + 2 * b2n (busy d p) + b2n (d.running p)

/-- The header words of a page that report other state. -/
def viewHeader (d : Dev) (p off : Nat) : Nat :=
  if off = 0 then pageType p * 2 ^ 24 + pageInst p * 2 ^ 16 + 1
  else if off = 0x004 then putBit (d.getW (PG_CTL p)) 1 ((d.page p).shadow.isSome && (d.page p).resetting)
  else if off = 0x008 then pgStat d p
  else d.getW (rkey p off)

/-- The level of STBYn: high until the channel is enabled, in ASLEEP, and while STBYFORCE = 1 (R117, R364, R474); also high while the
CHC page is in soft reset or latched off, where the spec names no level (DESIGN CHOICE: log entry 53). -/
def stbyLevel (d : Dev) (c : Nat) : Bool :=
  !d.running (pCHC c) || d.get (CHC_XCVR_STBYFORCE c) == 1 || d.get (CHC_CURSTAT_STATE c) == 3

/-- HBn toggles (R118, R222, R409): not while the channel or its hamlet is isolated. -/
def hbToggles (d : Dev) (c : Nat) : Bool :=
  d.running (pCHC c) && d.get (CHC_XCVR_HBSTOP c) == 0 && !(d.chan c).isolated && !(d.ham (hamOf c)).isolated

/-- A frame of the head stands on the wire: an entry's, or the bell frame (R72, R135). -/
def onWire (d : Dev) (c : Nat) : Bool :=
  (d.chan c).wire.isSome || ((d.chan c).bell == .sent && decide (d.nowNs < d.bell.inst + (d.chan c).bellFin))

/-- The level of MODEn: high in the data phase of a frame that the channel sends with DPS = 1 (R116). -/
def modeLevel (d : Dev) (c : Nat) : Bool := decide ((d.chan c).modeNs.1 ≤ d.nowNs) && decide (d.nowNs < (d.chan c).modeNs.2)

/-- CHC_XSTAT. WAKEn is driven from outside, an open level; so are TXDn and RXDn at an instant within a frame. -/
def viewXstat (d : Dev) (c : Nat) : Nat :=
  let txd := if onWire d c then d.open' / 2 % 2 else 1
  let rxd := if onWire d c then d.open' / 4 % 2 else b2n (d.get (CHS_TEC_STUCK c) == 0)
  putBits (d.getW (CHC_XSTAT c)) 6 0
    (64 * b2n d.isHead + 32 * b2n (hbToggles d c) + 16 * (d.open' % 2) + 8 * b2n (stbyLevel d c) + 4 * b2n (modeLevel d c)
      + 2 * rxd + txd)

/-- The ACTIVE entry of a channel with the class that its frame carries on the wire (CHT_CUR). -/
def viewCur (d : Dev) (c : Nat) : Nat :=
  match (d.chan c).tx.find? (fun e => e.st == 2) with
  | some e => 2 ^ 31 + ((d.chan c).wire.map (fun w => w.c)).getD e.ec * 2 ^ 28 + e.att * 2 ^ 24 + e.idx
  | none => 0

/-- Registers of the channel pages that report other state. -/
def viewChan (d : Dev) (p off : Nat) : Option Nat :=
  let c := pageChan p
  let x := d.chan c
  if p % 4 = 0 then (if off = 0x054 then some (viewXstat d c) else none)
  else if p % 4 = 1 then
    (if off = 0x054 then some (putBit (d.getW (CHT_QSTAT c)) 31 (x.tx.any (fun e => e.st == 2)))
     else if off = 0x058 then some (viewCur d c) else none)
  else if p % 4 = 2 then
    (if off = 0x088 then some (d.epochId c * 2 ^ 16 + ((x.next.map (fun k => k.id)).getD 0))
     else if off = 0x08C then
      some (putBits (d.getW (CHX_EPSTAT c)) 28 26
        (4 * b2n (d.keyInForce c).isNone + 2 * b2n x.next.isSome + b2n x.old.isSome))
     else if off = 0x090 then
      some (putBits (putBit (d.getW (CHX_KEYUSE c)) 30 ((x.cur.map (fun k => k.retired)).getD false)) 28 0
        ((x.cur.map (fun k => k.use)).getD 0))
     else if off = 0x094 then some ((x.next.map (fun k => k.use)).getD 0)
     else if off = 0x098 then some (bitsWord (fun a => d.enrolled c a))
     else none)
  else
    (if 0x100 ≤ off ∧ off < 0x180 then
      (let a := (off - 0x100) / 4
       some (if a = 0 then 0 else putBit (d.getW (CHS_NODE c a)) 29 (asleepNode d c a)))
     else none)

/-- Registers of the HAM pages that report other state: HAM_MIGRATE.GO, and HAM_WHEEL.PEND (R207). -/
def viewMill (d : Dev) (p off : Nat) : Option Nat :=
  if p < 0x90 then none
  else
    let h := p - 0x90
    if off = 0x044 then some (b2n (d.ham h).mig.isSome)
    else if off = 0x04C then
      some (putBits (d.getW (HAM_WHEEL h)) 7 0 (bitsWord (fun i => i < 8 && (waitSince d (8 * h + i)).isSome)))
    else none

/-- DEV_PART, DEV_STRAP, DEV_RSTCAUSE, DEV_LGREC (19). -/
def viewDev0 (d : Dev) (off : Nat) : Option Nat :=
  if off = 0x040 then
    some (Variant.part d.part * 2 ^ 16 + d.step % 256 * 2 ^ 8 + Variant.hamlets d.part * 16 + Variant.mills d.part)
  else if off = 0x044 then
    some (8 * b2n d.straps.vaux + 4 * b2n d.straps.main + 2 * b2n d.straps.phyb + b2n d.straps.phya)
  else if off = 0x048 then
    some (d.aon.cause * 2 ^ 28 + b2n d.aon.timeKept * 2 ^ 27 + d.get DEV_RSTCAUSE_BELLMS)
  else if 0x100 ≤ off ∧ off < 0x210 then some (elemAt 0#32 d.flash.lgrec ((off - 0x100) / 4)).toNat
  else none

/-- Pages holding an uncleared fault of class S (`s`), or of class I (R418). -/
def unclearedPages (d : Dev) (s : Bool) : List Nat :=
  (d.pages.filter (fun e => if s then e.2.unclearedS else e.2.unclearedI)).map (fun e => e.1)

/-- HEALTH_S is held low: the safe state, or no bell yet since the release of reset (R419). -/
def healthHeld (d : Dev) : Bool := d.get DEV_SAFE_ACTIVE == 1 || !d.pins.released

/-- The levels of FAULT_P: asserted until the first bell, in a pulse, and then as OUT says (R417, R474). -/
def pinLevels (d : Dev) : Nat :=
  bitsWord (fun k => k < 4 && (!d.pins.released || elemAt false d.pins.pulse k || bitOf (d.get DEV_FPCTL_OUT) k))

/-- DEV_FPCTL.PIN, DEV_HEALTH, DEV_HLOW (16). -/
def viewDev1 (d : Dev) (off : Nat) : Option Nat :=
  let ss := unclearedPages d true
  let is := unclearedPages d false
  if off = 0x050 then some (putBits (d.getW DEV_FPCTL) 19 16 (pinLevels d))
  else if off = 0x054 then
    some (b2n (!healthHeld d && ss.isEmpty) * 2 ^ 31 + b2n (!healthHeld d && is.isEmpty) * 2 ^ 30 + ss.length * 2 ^ 20
      + is.length * 2 ^ 10)
  else if off = 0x058 then
    some (b2n (!ss.isEmpty) * 2 ^ 31 + ss.foldl min (ss.headD 0) * 2 ^ 16 + b2n (!is.isEmpty) * 2 ^ 15 + is.foldl min (is.headD 0))
  else none

/-- PWR pages; voltages, loads and the power class are open values (log entry 6). -/
def viewPwr (d : Dev) (p off : Nat) : Option Nat :=
  if p = 8 then
    (if off = 0x040 then
      some (putBits (putBits (d.getW PWR_STAT) 29 26 (4 * d.pwr.src + 2 * b2n d.pwr.inA + b2n d.pwr.inB)) 7 0 (Config.powerClass)
        % 2 ^ 31 + b2n d.pwr.gasp * 2 ^ 31)
     else if off = 0x048 ∨ off = 0x050 then some (d.open' % 2 ^ 32)
     else if off = 0x04C then some (putBits (d.getW PWR_HOLD) 15 0 d.open')
     else none)
  else if 0x040 ≤ off ∧ off < 0x058 then some (putBits (d.getW (PWR_RAIL ((off - 0x40) / 4))) 15 0 d.open')
  else none

/-- SEC pages (10). -/
def viewSec (o : Otp) (d : Dev) (p off : Nat) : Option Nat :=
  if p = 0x21 then (if off < 0x040 then none else some (numAt o.pubBytes (off - 0x040) 4))
  else if off = 0x040 then
    some (b2n d.cert * 2 ^ 31 + b2n (o.slots.any (fun k => k.prog)) * 2 ^ 30 + d.get SEC_MODE_DEBUG * 2 ^ 29 + b2n d.aon.set * 2 ^ 28)
  else if off = 0x044 then
    some (bitsWord (fun i => i < 8 && (if 4 ≤ i then (o.slot (i - 4)).revoked else (o.slot i).prog)))
  else if 0x080 ≤ off ∧ off < 0x0B0 then some (word384 o.idHash ((off - 0x080) / 4))
  else if 0x100 ≤ off ∧ off < 0x200 ∧ (off - 0x100) % 0x40 < 0x30 then
    some (let k := o.slot ((off - 0x100) / 0x40)
          if k.prog then word384 k.hash ((off - 0x100) % 0x40 / 4) else 0)
  else if 0x200 ≤ off ∧ off < 0x240 then
    some (let k := (off - 0x200) / 16
          let j := (off - 0x200) % 16 / 4
          let x := if j < 2 then elemAt 0 d.flash.opseq k else elemAt 0 d.flash.floors k
          if j % 2 = 0 then x % 2 ^ 32 else x / 2 ^ 32)
  else none

/-- PEN_SESS and PEN_SEXP (10). -/
def viewPen (d : Dev) (off : Nat) : Option Nat :=
  if 0x040 ≤ off ∧ off < 0x060 then
    some (let x := d.ses ((off - 0x040) / 4)
          if x.st = .opened then
            2 ^ 31 + b2n x.live * 2 ^ 30 + b2n (x.scope.priv == .s) * 2 ^ 29 + x.auth % 4 * 2 ^ 26 + b2n (d.upOk 0) * 2 ^ 25
              + b2n (d.upOk 1) * 2 ^ 24 + x.unack.length
          else 0)
  else if 0x060 ≤ off ∧ off < 0x080 then
    some (let x := d.ses ((off - 0x060) / 4)
          if x.st = .opened then x.notAfter % 2 ^ 32 else 0)
  else none

/-- INTC pages (15). -/
def viewIntc (d : Dev) (p off : Nat) : Option Nat :=
  if p = 0x31 then
    (if off < 0x100 ∨ 0x400 ≤ off then none
     else
      let t := (off - 0x100) / 0x40
      let j := (off - 0x100) % 0x40
      if j = 0 then some (putBits (putBit (d.getW (INTC_TGT t)) 30 (targetAwake d t)) 13 8 (busyTier d t))
      else if j = 0x10 ∧ 4 ≤ t then some 1023
      else if j = 0x0C then some (putBits (d.getW (INTC_OFFER t)) 21 16 (unclaimed d t))
      else none)
  else if 0x32 ≤ p ∧ p ≤ 0x35 then
    (if off < 0x400 ∨ 0x800 ≤ off then none
     else
      let n := (p - 0x32) * 256 + (off - 0x400) / 4
      if n = 1023 then some 0 else some (putBit (d.pendingW (rkey p off)) 30 (n < 512)))
  else if p = 0x36 then
    (if 0x100 ≤ off ∧ off < 0x180 then some (bitsWord (fun b => srcPending d (32 * ((off - 0x100) / 4) + b)))
     else if 0x200 ≤ off ∧ off < 0x280 then some (bitsWord (fun b => srcActive d (32 * ((off - 0x200) / 4) + b)))
     else none)
  else if p = 0x37 ∧ 0x100 ≤ off ∧ off < 0x300 ∧ off % 8 = 4 then
    some (putBits (d.getW (rkey p off)) 19 0 (coalLeft d ((off - 0x100) / 8)))
  else none

/-- Word `j` of a CFG_SLOT role. -/
def viewSlot (d : Dev) (k j : Nat) : Nat :=
  let role := if k = 0 then d.flash.active else if k = 1 then d.flash.previous else d.flash.staged
  match role with
  | none => if j = 2 then elemAt 0 d.flash.slots k * 2 ^ 24 + 15 * 2 ^ 20 else 0
  | some p =>
    if j = 0 then p.version % 2 ^ 32
    else if j = 1 then p.version / 2 ^ 32 % 2 ^ 32
    else if j = 2 then
      2 ^ 31 + p.auth % 4 * 2 ^ 26 + elemAt 0 d.flash.slots k * 2 ^ 24 + ((d.area k).getD 15) * 2 ^ 20
    else if j = 3 then p.total % 2 ^ 32
    else word384 p.digest (j - 4)

/-- CFG pages (11). -/
def viewCfg (d : Dev) (p off : Nat) : Option Nat :=
  if p = 0x60 then
    (if off = 0x040 then
      some (putBits (putBits (d.getW CFG_STAT) 26 25 (2 * b2n d.flash.previous.isSome + b2n d.cfg.permit.isSome)) 10 8
        (d.cfg.lsess.getD 0))
     else none)
  else if p = 0x61 then
    (if 0x040 ≤ off ∧ off < 0x100 then some (viewSlot d ((off - 0x040) / 0x40) ((off - 0x040) % 0x40 / 4)) else none)
  else
    (if off = 0x040 then some (d.flash.fwver % 2 ^ 32)
     else if 0x080 ≤ off ∧ off < 0x0B0 then some (word384 (compatHash d) ((off - 0x080) / 4)) else none)

/-- The standby sets READY in its HB frames (R451). -/
def twinReady (d : Dev) : Bool :=
  d.get TWIN_STAT_ROLE == 2 && d.get TWIN_STAT_LINK == 1 && d.get TWIN_SYNC_PHASE == 5 && d.twin.commitOk
    && d.twin.headDigest == (d.flash.active.map (fun p => p.digest)) && d.aon.set

/-- TWIN_STAT: READY and the level of HEADSHIP (R440). -/
def viewTwin (d : Dev) : Nat :=
  putBit (putBit (d.getW TWIN_STAT) 27 (twinReady d)) 26 (!(d.isHead || d.twin.lineLow))

/-- UPL_LINK (02). An input that is not powered is unpowered, or in detection or classification: which, its power source decides, an
open value (log entry 6). -/
def viewLink (d : Dev) (u : Nat) : Nat :=
  let mode := if u = 0 then d.straps.phya else d.straps.phyb
  let pow := if u = 0 then d.pwr.inA else d.pwr.inB
  b2n (d.upOk u) * 2 ^ 31 + b2n mode * 2 ^ 30 + (if pow then 2 else d.open' % 2) * 2 ^ 28 + d.get (UPL_LINK_DOWNS u)

/-- Block registers that report other state. -/
def viewBlock (o : Otp) (d : Dev) (p off : Nat) : Option Nat :=
  if 0x100 ≤ p then viewChan d p off
  else if 0x80 ≤ p then viewMill d p off
  else if p = 0 then viewDev0 d off
  else if p = 1 then viewDev1 d off
  else if p = 2 then (if off = 0x044 then some (d.tick % 2 ^ 32) else none)
  else if p = 8 ∨ p = 9 then viewPwr d p off
  else if p = 0x10 then
    (if off = 0x058 then some (satInt32 d.aon.rate)
     else if off = 0x06C ∧ d.get TIME_STAT_STATE = 2 then some (putBits (d.getW TIME_HOLDSTAT) 15 0 (holdLen d))
     else none)
  else if p = 0x20 ∨ p = 0x21 then viewSec o d p off
  else if p = 0x28 then viewPen d off
  else if 0x31 ≤ p ∧ p ≤ 0x37 then viewIntc d p off
  else if p = 0x42 then
    (if 0x800 ≤ off ∧ off < 0x880 then some (tblW d ((off - 0x800) / 8) ((off - 0x800) % 8 / 4)) else none)
  else if p = 0x50 then (if off = 0x040 then some (d.open' % 2 ^ 16 * 2 ^ 16) else none)
  else if p = 0x51 then (if off = 0x040 then some (d.svc.dirty.length) else none)
  else if 0x60 ≤ p ∧ p ≤ 0x62 then viewCfg d p off
  else if p = 0x70 then (if off = 0x058 then some (viewTwin d) else none)
  else if p = 0x74 then (if off = 0x040 then some (viewLink d 0) else none)
  else if p = 0x78 then (if off = 0x040 then some (viewLink d 1) else none)
  else none

/-- The word that a read of page `p` at `off` returns while the page is not frozen: zero at a reserved offset and in an
unpopulated page (R3, R7, R39); pending values of RWS fields. -/
def viewLive (o : Otp) (d : Dev) (p off : Nat) : Nat :=
  if populated d.part p = false then 0
  else
    match regRow p off with
    | none => 0
    | some _ =>
      if off < 0x40 then viewHeader d p off
      else match viewBlock o d p off with
        | some x => x % 2 ^ 32
        | none => d.pendingW (rkey p off)

/-- The word that a read returns (R7): the read-only fields of a frozen page keep the values they had. -/
def viewW (o : Otp) (d : Dev) (p off : Nat) : Nat :=
  let x := viewLive o d p off
  match findKey p d.frozen with
  | none => x
  | some l =>
    match regRow p off, findKey (rkey p off) l with
    | some r, some w => blend x (rowMask r (fun f => f.1 == .ro)) w.toNat
    | _, _ => x

/-- The words of page `p` with read-only fields, as FREEZE holds them. -/
def snapshot (o : Otp) (d : Dev) (p : Nat) : List (Nat × Word) :=
  (List.range 1024).filterMap (fun i => match regRow p (4 * i) with
    | some r => if hasAcc r .ro then some (rkey p (4 * i), word (viewLive o d p (4 * i))) else none
    | none => none)

/-- What a read of page `p` at `off` changes: the captures of DEV_TICKLO and TIME_NOWLO, and the counter of open values. -/
def readEffect (d : Dev) (p off : Nat) : Dev :=
  if p = 2 ∧ off = 0x044 then d.setW DEV_TICKHI (d.tick / 2 ^ 32 % 2 ^ 16)
  else if p = 0x10 ∧ off = 0x048 then captureNow d
  else if p = 8 ∨ p = 9 ∨ ((p = 0x50 ∨ p = 0x74 ∨ p = 0x78) ∧ off = 0x040) ∨ (0x100 ≤ p ∧ p % 4 = 0 ∧ off = 0x054) then d.next
  else d

end Sys2Proof.Machine
end

