-- ==== Sys2Proof/Machine/Access.lean ====
section
/-! DEFINITION. Accesses: what a write of a register does (R7, R41 and the register tables), accesses through the gates
(R431), and the commands that are writes of one register. -/

namespace Sys2Proof.Machine

open Sys2Proof

/-- PG_CTL.EN written (R105, R362): on a channel that is enabled HBn starts and STBYn falls (R117, R119), and it waits under R105,
AWAKE. -/
def setEnable (d : Dev) (p : Nat) (en : Bool) : Dev :=
  let was := d.get (PG_CTL_EN p)
  let d := d.setB (PG_CTL_EN p) en
  if en = true ∧ was = 0 ∧ 0x100 ≤ p ∧ p % 4 = 0 then
    (enablePage (d.set (CHC_CURSTAT_STATE (pageChan p)) 0) p).modChan (pageChan p)
      (fun x => { x with call := false, commit := false })
  else d

/-- PG_CTL.FREEZE written: the page's read-only fields are held, or released. -/
def setFreeze (o : Otp) (d : Dev) (p : Nat) (on : Bool) : Dev :=
  let was := d.get (PG_CTL_FREEZE p)
  let d := d.setB (PG_CTL_FREEZE p) on
  if on then (if was = 1 then d else { d with frozen := putKey p (snapshot o d p) d.frozen })
  else { d with frozen := delKey p d.frozen }

/-- PG_CTL written: FREEZE, SRST, EN. -/
def writeCtl (o : Otp) (d : Dev) (p v : Nat) : Dev :=
  let d := setEnable (setFreeze o d p (bitOf v 2)) p (bitOf v 0)
  if bitOf v 1 then softReset d p else d

/-- PG_IFRC written (R7): the status bits set as if their events had occurred. -/
def forceIst (d : Dev) (p v : Nat) : Dev := d.setW (PG_IST p) (d.getW (PG_IST p) ||| v)

/-- PG_FFRC written (R415): each source named by a bit is raised. -/
def forceFaults (d : Dev) (p v : Nat) : Dev :=
  d.forEach ((List.range 32).filter (bitOf v)) (fun d s => raiseForced d p s)

/-- The live-only field keeps its value: WIGN and WR_IGNORED (R41). -/
def wrIgnored (d : Dev) (p : Nat) : Dev := raise (d.set (PG_STAT_WIGN p) 1) p 31

/-- A write changes the live-only field SVC_SOECFG.OVW while EN = 1 (R41). -/
def liveBlocked (d : Dev) (p off v : Nat) : Bool :=
  p == 0x52 && off == 0x040 && d.get (PG_CTL_EN p) == 1 && bitOf v 31 != bitOf (d.getW (rkey p off)) 31

/-- A write under the access codes of the fields (R7): RW, RWP and RWL fields take the value, W1C bits clear, RWS fields are
held in the shadow; RO fields and reserved bits ignore it. -/
def writeFields (d : Dev) (p off v : Nat) : Dev :=
  match regRow p off with
  | none => d
  | some r =>
    let k := rkey p off
    let blocked := liveBlocked d p off v
    let v := if blocked then putBit v 31 (bitOf (d.getW k) 31) else v
    let wm := rowMask r (fun f => f.1 == .rw || f.1 == .rwp || f.1 == .rwl)
    let cm := rowMask r (fun f => f.1 == .w1c)
    let sm := rowMask r (fun f => f.1 == .rws)
    let sv := heldAs p off (blend (d.pendingW k) sm v)
    let d := d.setW k (blend (heldAs p off (blend (d.getW k) wm v)) (cm &&& v) 0)
    let d := if sm = 0 then d else d.shadow k sm sv
    if blocked then wrIgnored d p else d

/-- The pushing of a descriptor by an initiator (R130): a session's scope goes with it. -/
def pushSrc (d : Dev) (w : Who) : PushSrc :=
  match w with
  | .session s => ⟨some (s, (d.ses s).scope), none, false, false⟩
  | _ => ⟨none, none, false, false⟩

/-- A write of CHT_QPUSH (R129). -/
def qpush (d : Dev) (w : Who) (c i : Nat) : Dev := pushOp raise d c i (pushSrc d w)

/-- A write of CHT_ABORT (R148). -/
def abortWrite (d : Dev) (c v : Nat) : Dev := if bitOf v 31 then abortAllOf d c else abortOp d c (bitsOf v 13 0)

/-- A write of CHC_VETO by a session (R361). -/
def vetoWrite (d : Dev) (w : Who) (c : Nat) (on : Bool) : Dev :=
  match w with
  | .session s => if on then vetoSetOp d c s else vetoClearOp d c s
  | _ => d

/-- A write of PEN_CLOSE (R273) that the gates admit. -/
def penCloseOp (d : Dev) (w : Who) (v : Nat) : Dev :=
  if bitOf v 3 = false then d
  else
    match w with
    | .session _ => closeSession d (bitsOf v 2 0)
    | _ => d

/-- The words 0 to 6 of a timed-output request are plain; GO of word 7 submits it (R325). -/
def toreqWrite (d : Dev) (s v : Nat) : Dev :=
  let d := writeFields d 0x53 (0x11C + 0x20 * s) v
  if bitOf v 31 then toRequest d s v else d

/-- A write to the words of page 0x031: target registers, claims, completions (R388, R391, R394). -/
def tgtWrite (d : Dev) (w : Who) (off v : Nat) : Dev :=
  let t := (off - 0x100) / 0x40
  let j := (off - 0x100) % 0x40
  let d := match w with | .steward n _ => if n = t then stewardWakes d t else d | _ => d
  if off < 0x100 ∨ 0x400 ≤ off then d
  else if j = 4 then claimOp d t (bitsOf v 9 0) (bitsOf v 19 16)
  else if j = 8 then completeOp d t (bitsOf v 9 0)
  else retractIneligible d (writeFields d 0x31 off v)

/-- A write to page 0x028: PEN_CLOSE, and PEN_OPGO of a session; any other initiator presents no pennant. -/
def penWrite (o : Otp) (d : Dev) (w : Who) (off v : Nat) : Dev :=
  if off = 0x080 then penCloseOp d w v
  else if off = 0x088 then
    match w with
    | .session s => opGo o d s (bitsOf v 12 0)
    | _ => d
  else d

/-- A write to page 0x060: CFG_CMD, CFG_LOAD of a session, and the plain words. -/
def cfgWrite (d : Dev) (w : Who) (off v : Nat) : Dev :=
  if off = 0x044 then cfgCommand d (bitsOf v 1 0)
  else if off = 0x048 then
    match w with
    | .session s =>
      if bitOf v 31 then loadFirst d s (bitsOf v 16 0) else loadNext d s (bitsOf v 16 0)
    | _ => d
  else writeFields d 0x60 off v

/-- Abdication on request (R453). -/
def abdicateReq (d : Dev) : Dev :=
  if d.isHead = true ∧ d.get TWIN_STAT_LINK = 1 ∧ d.get TWIN_STAT_PREADY = 1 then
    releaseHead (((twinSend d .abdicateFrame).inc TWIN_CNT_ABDICATIONS).ist 0x70 1)
  else d.ist 0x70 2

/-- Writes of the header words (02). -/
def writeHeader (o : Otp) (d : Dev) (p off v : Nat) : Dev :=
  if off = 0x004 then writeCtl o d p v
  else if off = 0x018 then forceIst d p v
  else if off = 0x024 then forceFaults d p v
  else if off = 0x028 then (if bitOf v 0 then ackPage d p else d)
  else
    let d := writeFields d p off v
    if off = 0x010 ∨ off = 0x014 then withdraw d p
    else if off = 0x02C ∧ d.get (PG_ESC_LIMIT p) = 0 then d.modPage p (fun x => { x with timer := none })
    else d

/-- Writes of the channel pages that command something. -/
def writeChan (d : Dev) (w : Who) (p off v : Nat) : Dev :=
  let c := pageChan p
  if p % 4 = 0 ∧ off = 0x10C then (if bitOf v 0 then curfewCause d c 4 else d)
  else if p % 4 = 0 ∧ off = 0x110 then vetoWrite d w c (bitOf v 0)
  else if p % 4 = 0 ∧ off = 0x108 then groupsWake (writeFields d p off v) c
  else if p % 4 = 0 ∧ off = 0x050 then
    (let t := writeFields d p off v
     if d.get (CHC_XCVR_HBSTOP c) = 1 ∧ t.get (CHC_XCVR_HBSTOP c) = 0 then waitAfter t c 70000
     else if d.get (CHC_XCVR_STBYFORCE c) = 1 ∧ t.get (CHC_XCVR_STBYFORCE c) = 0 then waitAfter t c 50000 else t)
  else if p % 4 = 1 ∧ off = 0x04C then qpush d w c (bitsOf v 13 0)
  else if p % 4 = 1 ∧ off = 0x050 then abortWrite d c v
  else if p % 4 = 2 ∧ off = 0x04C then rxrelOp d c (bitsOf v 13 0) (bitsOf v 31 24)
  else if p % 4 = 3 ∧ off = 0x04C then
    (let d := if bitOf v 1 then rclrOp d c else d
     if bitOf v 0 then restartOp d c else d)
  else writeFields d p off v

/-- A write of the word at `off` of a populated page, but for a device reset. -/
def writeReg (o : Otp) (d : Dev) (w : Who) (p off v : Nat) : Dev :=
  if off < 0x40 then writeHeader o d p off v
  else if 0x100 ≤ p then writeChan d w p off v
  else if 0x90 ≤ p then
    (if off = 0x044 then (if bitOf v 0 then migrateOp d (p - 0x90) else d)
     else if off = 0x10C then pfpopOp d (p - 0x90) (bitsOf v 6 0) else writeFields d p off v)
  else if 0x80 ≤ p then (if off = 0x04C then (if bitOf v 31 then bistWrite d (p - 0x80) else d) else writeFields d p off v)
  else if p = 2 ∧ off = 0x054 then (if bitOf v 31 then d.set DEV_BSLACK_MIN 0xFFFFFF else d)
  else if p = 8 ∧ off = 0x044 then
    (let d' := writeFields d p off v
     if d'.get PWR_CFG_VAUXEN = d.get PWR_CFG_VAUXEN then d' else vauxSet d' (bitOf v 30))
  else if (p = 0x11 ∨ p = 0x12) ∧ off = 0x044 then
    (let d' := writeFields d p off v
     if d'.getW (rkey p off) = d.getW (rkey p off) then d'
     else d'.setDom (p - 0x11) { (d'.dom (p - 0x11)) with skip := true })
  else if p = 0x28 then penWrite o d w off v
  else if p = 0x30 ∧ off = 0x044 then intcRaise d (bitsOf v 9 0) 0
  else if p = 0x31 then tgtWrite d w off v
  else if 0x32 ≤ p ∧ p ≤ 0x35 ∧ 0x400 ≤ off ∧ off < 0x800 then
    retractIneligible d (withdraw (writeFields d p off v) ((p - 0x32) * 256 + (off - 0x400) / 4))
  else if p = 0x40 ∧ off = 0x044 then (if bitOf v 31 then gateGo d else d)
  else if p = 0x42 ∧ off < 0x880 then d
  else if p = 0x52 ∧ off = 0x04C then soerelOp d (bitsOf v 15 0)
  else if p = 0x53 ∧ off = 0x048 then
    (match w with | .session s => if bitOf v 31 then toCancel d s (bitsOf v 12 0) else d | _ => d)
  else if p = 0x53 ∧ 0x100 ≤ off ∧ off < 0x200 ∧ (off - 0x100) % 0x20 = 0x1C then toreqWrite d ((off - 0x100) / 0x20) v
  else if p = 0x60 then cfgWrite d w off v
  else if p = 0x70 ∧ off = 0x054 then (if bitOf v 0 then abdicateReq d else d)
  else writeFields d p off v

/-- A write of one word at an address that has passed the gates: a register, or memory. An unpopulated page and a reserved
offset ignore it (R3, R7). -/
def writeWord (s : State) (w : Who) (a v : Nat) : State :=
  if inRegs a then
    let p := (a - 0x2000000) / 4096
    let off := a % 4096
    if populated s.dev.part p = false ∨ (regRow p off).isNone = true then s
    else if p = 0 ∧ off = 0x04C then deviceRst s v s.dev.straps
    else { s with dev := writeReg s.otp s.dev w p off v }
  else { s with dev := s.dev.setMemW a v }

/-- Words written one after the other from an address up. -/
def writeWords (s : State) (w : Who) (a : Nat) : List Nat → State
  | [] => s
  | v :: l => writeWords (writeWord s w a v) w (a + 4) l

/-- A word read at an address that has passed the gates. -/
def readWord (s : State) (a : Nat) : State × Nat :=
  if inRegs a then
    let p := (a - 0x2000000) / 4096
    let off := a % 4096
    let t := { s with dev := readEffect s.dev p off }
    (t, viewW t.otp t.dev p off)
  else if 0x4000000 ≤ a then
    (s, natOf ((List.range 4).map (fun i => Config.flashByte s.dev.flash (a + i))))
  else (s, s.dev.memW a)

/-- Words read one after the other. -/
def readWords (s : State) (a : Nat) : Nat → State × List Nat
  | 0 => (s, [])
  | n + 1 =>
    let r := readWord s a
    let t := readWords r.1 (a + 4) n
    (t.1, r.2 :: t.2)

/-- STATUS of a refusal with a reason (R432). -/
def refusalStatus (reason : Nat) : Nat := if reason = 1 ∨ reason = 9 then 2 else 1

/-- The push that a word of an access by session `s` asks for and its scope does not admit (R130): channel and descriptor. -/
def badPush (d : Dev) (s : Nat) (x : Nat × Nat) : Option (Nat × Nat) :=
  let p := (x.1 - 0x2000000) / 4096
  let c := pageChan p
  if inRegs x.1 = true ∧ 0x100 ≤ p ∧ p % 4 = 1 ∧ x.1 % 4096 = 0x04C ∧ populated d.part p = true
      ∧ pushVerdict d c (bitsOf x.2 13 0) (pushSrc d (.session s)) = .scope then some (c, bitsOf x.2 13 0)
  else none

/-- A write access through the gates (R431, R436): held while a table commit changes its region, then checked as a whole; a
refusal is a violation and changes nothing else, a push outside the session's scope refuses the whole access as R130 says (R50), and
an admitted access runs `f`. Answers the STATUS. -/
def gatedWrite (s : State) (w : Who) (a : Nat) (vals : List Nat) (f : State → State) : State × Nat :=
  let d := settle s.dev a (4 * vals.length)
  match gateCheck d w 1 a (4 * vals.length) vals with
  | some (reason, byte) => ({ s with dev := violation d w 1 a byte reason }, refusalStatus reason)
  | none =>
    match w with
    | .session n =>
      match (vals.zipIdx.map (fun x => (a + 4 * x.2, x.1))).findSome? (badPush d n) with
      | some (c, i) => ({ s with dev := pushScoped raise d c i n a }, 1)
      | none => (f { s with dev := d }, 0)
    | _ => (f { s with dev := d }, 0)

/-- A write of words at an address. -/
def accessWrite (s : State) (w : Who) (a : Nat) (vals : List Nat) : State × Nat :=
  gatedWrite s w a vals (fun s => writeWords s w a vals)

/-- A live-only field keeps its value in a write of words from an address up, each word judged as it is written (STATUS WIGN of
R53). -/
def someWign (s : State) (w : Who) (a : Nat) : List Nat → Bool
  | [] => false
  | v :: l => (inRegs a && liveBlocked s.dev ((a - 0x2000000) / 4096) (a % 4096) v) || someWign (writeWord s w a v) w (a + 4) l

/-- A read access through the gates: STATUS and the words. -/
def accessRead (s : State) (w : Who) (a n : Nat) : State × Nat × List Nat :=
  let d := settle s.dev a (4 * n)
  match gateCheck d w 0 a (4 * n) [] with
  | some (reason, byte) => ({ s with dev := violation d w 0 a byte reason }, refusalStatus reason, [])
  | none =>
    let r := readWords { s with dev := d } a n
    (r.1, 0, r.2)

/-- The address of the word at `off` of page `p` (R45). -/
def regAddr (p off : Nat) : Nat := 0x2000000 + 0x1000 * p + off

/-- A command that writes one register. In vigil no initiator runs (R378). -/
def regCmd (s : State) (w : Who) (a v : Nat) (f : State → State) : Host.Outcome State Fault Refusal :=
  actAll s (fun s => if s.dev.get DEV_VIGSTAT_STATE = 2 then s else (gatedWrite s w a [v] f).1)

/-- The same for the register's plain effect. -/
def regWrite (s : State) (w : Who) (a v : Nat) : Host.Outcome State Fault Refusal :=
  regCmd s w a v (fun s => writeWord s w a v)

/-- A command that reads one register. -/
def regRead (s : State) (w : Who) (a : Nat) : Host.Outcome State Fault Refusal :=
  actAll s (fun s => if s.dev.get DEV_VIGSTAT_STATE = 2 then s else (accessRead s w a 1).1)

/-- PG_CTL of page `p` with one bit replaced, SRST = 0. -/
def ctlWith (d : Dev) (p i : Nat) (b : Bool) : Nat := putBit (putBit (d.getW (PG_CTL p)) 1 false) i b

/-- REGISTER_WRITE (R7). -/
def execRegisterWrite (w : Who) (addr : Nat) (val : Word) (s : State) : Host.Outcome State Fault Refusal :=
  regWrite s w addr val.toNat
/-- DEVICE_RESET (R473). -/
def execDeviceReset (w : Who) (val : Word) (st : Straps) (s : State) : Host.Outcome State Fault Refusal :=
  regCmd s w (regAddr 0 0x04C) val.toNat (fun s => deviceRst s val.toNat st)
/-- VAUX_SWITCH (R468). -/
def execVauxSwitch (w : Who) (on : Bool) (s : State) : Host.Outcome State Fault Refusal :=
  regWrite s w (regAddr 8 0x044) (putBit (s.dev.pendingW PWR_CFG) 30 on)
/-- BLOCK_ENABLE (R105). -/
def execBlockEnable (w : Who) (p : Nat) (en : Bool) (s : State) : Host.Outcome State Fault Refusal :=
  regWrite s w (regAddr p 0x004) (ctlWith s.dev p 0 en)
/-- BLOCK_SOFT_RESET (R409). -/
def execBlockSoftReset (w : Who) (p : Nat) (s : State) : Host.Outcome State Fault Refusal :=
  regWrite s w (regAddr p 0x004) (ctlWith s.dev p 1 true)
/-- FREEZE (R7). -/
def execFreeze (w : Who) (p : Nat) (on : Bool) (s : State) : Host.Outcome State Fault Refusal :=
  regWrite s w (regAddr p 0x004) (ctlWith s.dev p 2 on)
/-- INTERRUPT_FORCE (R7). -/
def execInterruptForce (w : Who) (p : Nat) (bits : Word) (s : State) : Host.Outcome State Fault Refusal :=
  regWrite s w (regAddr p 0x018) bits.toNat
/-- FAULT_FORCE (R415). -/
def execFaultForce (w : Who) (p : Nat) (bits : Word) (s : State) : Host.Outcome State Fault Refusal :=
  regWrite s w (regAddr p 0x024) bits.toNat
/-- FAULT_ACK (R408). -/
def execFaultAck (w : Who) (p : Nat) (s : State) : Host.Outcome State Fault Refusal := regWrite s w (regAddr p 0x028) 1
/-- PEN_CLOSE (R273). -/
def execPenClose (w : Who) (val : Word) (s : State) : Host.Outcome State Fault Refusal :=
  regWrite s w (regAddr 0x28 0x080) val.toNat
/-- PEN_OPGO (R275): LEN, and what the write puts into the reserved bits, which PEN_OPGO does not take. -/
def execPenOpgo (w : Who) (len rsvd : Nat) (s : State) : Host.Outcome State Fault Refusal :=
  regWrite s w (regAddr 0x28 0x088) (rsvd % 2 ^ 19 * 2 ^ 13 + len % 2 ^ 13)
/-- CFG_LOAD_FIRST (R290): FIRST = 1, LEN, and what the write puts into the reserved bits, which CFG_LOAD does not take. -/
def execCfgLoadFirst (w : Who) (len rsvd : Nat) (s : State) : Host.Outcome State Fault Refusal :=
  regWrite s w (regAddr 0x60 0x048) (2 ^ 31 + rsvd % 2 ^ 14 * 2 ^ 17 + len % 2 ^ 17)
/-- CFG_LOAD (R289). -/
def execCfgLoad (w : Who) (len : Nat) (s : State) : Host.Outcome State Fault Refusal :=
  regWrite s w (regAddr 0x60 0x048) (len % 2 ^ 17)
/-- VERIFY (R291). -/
def execVerify (w : Who) (s : State) : Host.Outcome State Fault Refusal := regWrite s w (regAddr 0x60 0x044) 1
/-- DISARM (R293). -/
def execDisarm (w : Who) (s : State) : Host.Outcome State Fault Refusal := regWrite s w (regAddr 0x60 0x044) 2
/-- ERASE (R293). -/
def execErase (w : Who) (s : State) : Host.Outcome State Fault Refusal := regWrite s w (regAddr 0x60 0x044) 3
/-- PUSH (R129). -/
def execPush (w : Who) (c idx : Nat) (s : State) : Host.Outcome State Fault Refusal :=
  regWrite s w (regAddr (pCHT c) 0x04C) (idx % 2 ^ 14)
/-- ABORT (R148). -/
def execAbort (w : Who) (c idx : Nat) (s : State) : Host.Outcome State Fault Refusal :=
  regWrite s w (regAddr (pCHT c) 0x050) (idx % 2 ^ 14)
/-- ABORT_ALL (R148). -/
def execAbortAll (w : Who) (c : Nat) (s : State) : Host.Outcome State Fault Refusal :=
  regWrite s w (regAddr (pCHT c) 0x050) (2 ^ 31)
/-- RXREL (R174). -/
def execRxrel (w : Who) (c idx count : Nat) (s : State) : Host.Outcome State Fault Refusal :=
  regWrite s w (regAddr (pCHX c) 0x04C) (count % 2 ^ 8 * 2 ^ 24 + idx % 2 ^ 14)
/-- PFPOP (R182). -/
def execPfpop (w : Who) (h count : Nat) (s : State) : Host.Outcome State Fault Refusal :=
  regWrite s w (regAddr (pHAM h) 0x10C) (count % 2 ^ 7)
/-- BOCTL_RESTART (R193). -/
def execBoctlRestart (w : Who) (c : Nat) (s : State) : Host.Outcome State Fault Refusal :=
  regWrite s w (regAddr (pCHS c) 0x04C) 1
/-- RCLR (R195). -/
def execRclr (w : Who) (c : Nat) (s : State) : Host.Outcome State Fault Refusal := regWrite s w (regAddr (pCHS c) 0x04C) 2
/-- MIGRATE_GO (R214). -/
def execMigrateGo (w : Who) (h : Nat) (s : State) : Host.Outcome State Fault Refusal :=
  regWrite s w (regAddr (pHAM h) 0x044) 1
/-- BIST_START (R220): by a write, or repeated by the part itself. -/
def execBistStart (w : Option Who) (m : Nat) (s : State) : Host.Outcome State Fault Refusal :=
  match w with
  | some w => regWrite s w (regAddr (pMILL m) 0x04C) (2 ^ 31)
  | none => act s (fun d => bistRepeat d m)
/-- TIMED_OUTPUT_REQUEST (R325). -/
def execTimedOutputRequest (w : Who) (n : Nat) (w7 : Word) (s : State) : Host.Outcome State Fault Refusal :=
  regWrite s w (regAddr 0x53 (0x11C + 0x20 * n)) (putBit w7.toNat 31 true)
/-- TOCAN (R330). -/
def execTocan (w : Who) (val : Word) (s : State) : Host.Outcome State Fault Refusal :=
  regWrite s w (regAddr 0x53 0x048) val.toNat
/-- SOEREL (R323). -/
def execSoerel (w : Who) (count : Nat) (s : State) : Host.Outcome State Fault Refusal :=
  regWrite s w (regAddr 0x52 0x04C) (count % 2 ^ 16)
/-- SWDB (R383). -/
def execSwdb (w : Who) (src : Nat) (s : State) : Host.Outcome State Fault Refusal :=
  regWrite s w (regAddr 0x30 0x044) (src % 2 ^ 10)
/-- SOURCE_MASK (R385, R396): INTC_SRC.EN of source `n`. -/
def execSourceMask (w : Who) (n : Nat) (en : Bool) (s : State) : Host.Outcome State Fault Refusal :=
  regWrite s w (regAddr (0x32 + n / 256) (0x400 + 4 * (n % 256))) (putBit (s.dev.pendingW (INTC_SRC n)) 31 en)
/-- CLAIM (R391). -/
def execClaim (w : Who) (t src tag : Nat) (s : State) : Host.Outcome State Fault Refusal :=
  regWrite s w (regAddr 0x31 (0x104 + 0x40 * t)) (tag % 16 * 2 ^ 16 + src % 1024)
/-- COMPLETE (R394). -/
def execComplete (w : Who) (t src : Nat) (s : State) : Host.Outcome State Fault Refusal :=
  regWrite s w (regAddr 0x31 (0x108 + 0x40 * t)) (src % 1024)
/-- GATE_COMMIT (R436). -/
def execGateCommit (w : Who) (s : State) : Host.Outcome State Fault Refusal := regWrite s w (regAddr 0x40 0x044) (2 ^ 31)
/-- BSLACK_RESTART (R81). -/
def execBslackRestart (w : Who) (s : State) : Host.Outcome State Fault Refusal := regWrite s w (regAddr 2 0x054) (2 ^ 31)
/-- DEV_TICKLO_READ (R63). -/
def execDevTickloRead (w : Who) (s : State) : Host.Outcome State Fault Refusal := regRead s w (regAddr 2 0x044)
/-- TIME_NOWLO_READ (R339). -/
def execTimeNowloRead (w : Who) (s : State) : Host.Outcome State Fault Refusal := regRead s w (regAddr 0x10 0x048)
/-- CURCTL_WAKE (R363). -/
def execCurctlWake (w : Who) (c : Nat) (s : State) : Host.Outcome State Fault Refusal := regWrite s w (regAddr (pCHC c) 0x10C) 1
/-- VETO_SET (R361). -/
def execVetoSet (w : Who) (c : Nat) (s : State) : Host.Outcome State Fault Refusal := regWrite s w (regAddr (pCHC c) 0x110) 1
/-- VETO_CLEAR (R361). -/
def execVetoClear (w : Who) (c : Nat) (s : State) : Host.Outcome State Fault Refusal := regWrite s w (regAddr (pCHC c) 0x110) 0
/-- ABDICATE (R453). -/
def execAbdicate (w : Who) (s : State) : Host.Outcome State Fault Refusal := regWrite s w (regAddr 0x70 0x054) 1

end Sys2Proof.Machine
end

