-- ==== Sys2Proof/Machine/Uplink.lean ====
section
/-! DEFINITION. The uplink register transport (02): arrival and discard of messages, the requests and their responses,
EVENT messages, and the links. -/

namespace Sys2Proof.Machine

open Sys2Proof

/-- Operation codes of R48. -/
def opRead : Nat := 1
def opWrite : Nat := 2
def opBread : Nat := 3
def opBwrite : Nat := 4
def opEvack : Nat := 9
def opPing : Nat := 10

/-- A response to a request at `addr` (R48, R53), sent on the uplinks that are up (R57). With both down the device sends nothing, and
the response is lost (DESIGN CHOICE: log entry 51). -/
def respond (d : Dev) (u : UrtHdr) (op status addr : Nat) (data : List Nat) : Dev :=
  if d.upOk 0 = true ∨ d.upOk 1 = true then
    d.send (.response u.sess op status u.xid addr (if status = 0 then data.map word else []))
  else d

/-- R46: the session exists, SESS is that of the secure association, and VER is 1. -/
def urtValid (d : Dev) (u : UrtHdr) : Bool :=
  u.assoc == some u.sess && u.ver == 1 && decide (u.sess < 8) && (d.ses u.sess).st != .free

/-- A valid message makes its session open and live (R56, R269, R272). -/
def markLive (d : Dev) (n : Nat) : Dev :=
  let d := if (d.ses n).st = .accepted then (d.ist 0x28 0).inc PEN_CNT_OPENED else d
  d.modSes n (fun x => { x with st := .opened, live := true })

/-- The receive channel of a message's secure association (R271): none when MACsec discards the frame. A message of no association, or
of one whose session is gone, is left to R46. -/
def macsecTake (d : Dev) (u : UrtHdr) : Option Dev :=
  match u.assoc with
  | none => some d
  | some n => if (d.ses n).st = .free then some d else (saTake (d.ses n) u.side.num u.an u.pn).map (fun x => d.setSes n x)

/-- A message arrives (R46, R58, R271): it is discarded by MACsec, as a duplicate or as invalid, or taken. -/
def urtArrive (d : Dev) (u : UrtHdr) : Dev × Bool :=
  let x := u.side.num
  if d.upOk x = false then (d, false)
  else
    match macsecTake d u with
    | none => (discard d x (UPL_DISC0_MACSEC x), false)
    | some d =>
      if firstCopy d u.mac u.prp = false then (discard d x (UPL_DISC1_DUP x), false)
      else
        let d := noteCopy d u.mac u.prp
        if urtValid d u = false then (discard d x (UPL_DISC1_URT x), false)
        else (markLive ({ d with lastMsg := d.aon.cycles }.inc (UPL_RXCNT_COUNT x)) u.sess, true)

/-- A bulk range of `n` words that is refused as RANGE (R49, R53): no words, more than 256, or a range in register space that leaves
its page. A range that runs into a hole or is not aligned in register space is left to check 1 of R431, which records it (R35, R37;
DEDUCED: log entry 52). -/
def badRange (ty a n : Nat) : Bool :=
  n == 0 || decide (256 < n)
    || ((addrFault ty a (4 * n)).isNone && (inRegs a || inRegs (a + 4 * n - 1)) && a / 4096 != (a + 4 * n - 1) / 4096)

/-- READ and BREAD of `n` words (R48 to R51). -/
def urtRead (s : State) (u : UrtHdr) (op a n : Nat) : State :=
  if op = opRead ∧ u.count ≠ 0 then { s with dev := respond s.dev u op 4 a [] }
  else if op = opBread ∧ badRange 0 a n = true then { s with dev := respond s.dev u op 3 a [] }
  else
    let r := accessRead s (.session u.sess) a n
    { r.1 with dev := respond r.1.dev u op r.2.1 a r.2.2 }

/-- WRITE and BWRITE (R48 to R51). -/
def urtWrite (s : State) (u : UrtHdr) (op a : Nat) (data : List Nat) : State :=
  if (op = opWrite ∧ u.count ≠ 1) ∨ u.count ≠ data.length then { s with dev := respond s.dev u op 4 a [] }
  else if op = opBwrite ∧ badRange 1 a data.length = true then { s with dev := respond s.dev u op 3 a [] }
  else
    let wign := someWign s (.session u.sess) a data
    let r := accessWrite s (.session u.sess) a data
    { r.1 with dev := respond r.1.dev u op (if r.2 = 0 ∧ wign = true then 6 else r.2) a [] }

/-- The message number `n` is covered by an acknowledgement of `seq` (32-bit numbers that wrap). -/
def covers (seq n : Nat) : Bool := (seq + 2 ^ 32 - n % 2 ^ 32) % 2 ^ 32 < 2 ^ 31

/-- EVACK (R55, R393). -/
def urtEvack (d : Dev) (u : UrtHdr) (seq : Nat) : Dev :=
  if u.count ≠ 0 then respond d u opEvack 4 seq []
  else
    let n := u.sess
    let done := (d.ses n).unack.filter (fun m => covers seq m.1)
    let d := d.modSes n (fun x => { x with unack := x.unack.filter (fun m => !covers seq m.1) })
    let d := d.forEach (done.flatMap (fun m => m.2)) (fun d r => match r.claim with | some k => hostClaim d n k | none => d)
    respond d u opEvack 0 seq []

/-- PING (R56). -/
def urtPing (d : Dev) (u : UrtHdr) (addr : Nat) : Dev := respond d u opPing (if u.count = 0 then 0 else 4) addr []

/-- A request that has been taken is carried out and answered. -/
def urtRun (s : State) (m : HeldUrt) : State :=
  if m.op = opRead then urtRead s m.u m.op m.addr 1
  else if m.op = opBread then urtRead s m.u m.op m.addr m.u.count
  else if m.op = opWrite ∨ m.op = opBwrite then urtWrite s m.u m.op m.addr (m.data.map BitVec.toNat)
  else if m.op = opEvack then { s with dev := urtEvack s.dev m.u m.addr }
  else if m.op = opPing then { s with dev := urtPing s.dev m.u m.addr }
  else { s with dev := respond s.dev m.u m.op 4 m.addr [] }

/-- A request arrives: in vigil it is held (R379), otherwise it is carried out. -/
def urtMessage (s : State) (m : HeldUrt) : State :=
  let r := urtArrive s.dev m.u
  let t := { s with dev := r.1 }
  if r.2 = false then t
  else if t.dev.get DEV_VIGSTAT_STATE = 2 then { t with dev := { t.dev with vigHeld := t.dev.vigHeld ++ [m] } }
  else urtRun t m

/-- The requests held in vigil are answered after the exit, in order; the 17th and later ones of a session are BUSY (R52,
R53, R379). `l` are those still to answer, `seen` the sessions of those answered. -/
def urtReplay (s : State) : List HeldUrt → List Nat → State
  | [], _ => s
  | m :: l, seen =>
    if 16 ≤ (seen.filter (· == m.u.sess)).length then
      urtReplay { s with dev := respond s.dev m.u m.op 5 m.addr [] } l (m.u.sess :: seen)
    else urtReplay (urtRun s m) l (m.u.sess :: seen)

/-- EVENT (R54, R55): up to `n` records of the queue of session `s` go out in one message; MORE says that records wait (R47). With
both uplinks down the message goes nowhere, counts as sent and waits for its EVACK (DESIGN CHOICE: log entry 51). -/
def sendEvent (d : Dev) (s n : Nat) : Dev :=
  let x := d.ses s
  let recs := x.queue.take (min n 64)
  if x.st ≠ .opened ∨ 64 ≤ x.unack.length ∨ recs = [] then d
  else
    (d.modSes s (fun x => { x with queue := x.queue.drop recs.length, unack := x.unack ++ [(x.evSeq, recs)],
                                   evSeq := (x.evSeq + 1) % 2 ^ 32 })).send
      (.event s x.evSeq (decide (recs.length < x.queue.length)) recs)

/-- EVENT_RESEND (R55). -/
def resendEvent (d : Dev) (s : Nat) : Dev :=
  match (d.ses s).unack with
  | [] => d
  | m :: l => d.send (.event s m.1 (!l.isEmpty || !(d.ses s).queue.isEmpty) m.2)

/-- LINK_UP (R60, R494). -/
def linkUpOp (d : Dev) (u : Nat) : Dev :=
  if d.upOk u then d
  else condEnd (({ d with ups := putAt d.ups u ⟨true⟩ }).ist (pUPL u) 0) (pUPL u) 0

/-- LINK_DOWN (R60); the uplink's gPTP domain goes to ABSENT (R345). -/
def linkDownOp (d : Dev) (u : Nat) : Dev :=
  if d.upOk u = false then d
  else
    let d := raise (({ d with ups := putAt d.ups u ⟨false⟩ }.inc (UPL_LINK_DOWNS u)).ist (pUPL u) 1) (pUPL u) 0
    domAbsent (d.set (TIME_DSTAT_ASCAP u) 0) u

/-- UPLINK_FRAME_DISCARD (R60, R267, R271). -/
def frameDiscard (d : Dev) (u : Nat) (k : DiscardKind) : Dev :=
  if d.upOk u = false then d
  else match k with
    | .noSecTag => discard d u (UPL_DISC0_NOSECTAG u)
    | .macsec => discard d u (UPL_DISC0_MACSEC u)

/-- READ (R48). -/
def execRead (u : UrtHdr) (addr : Nat) (s : State) : Host.Outcome State Fault Refusal :=
  actAll s (fun s => urtMessage s ⟨u, opRead, addr, []⟩)
/-- WRITE (R48). -/
def execWrite (u : UrtHdr) (addr : Nat) (val : Word) (s : State) : Host.Outcome State Fault Refusal :=
  actAll s (fun s => urtMessage s ⟨u, opWrite, addr, [val]⟩)
/-- BREAD (R49). -/
def execBread (u : UrtHdr) (addr : Nat) (s : State) : Host.Outcome State Fault Refusal :=
  actAll s (fun s => urtMessage s ⟨u, opBread, addr, []⟩)
/-- BWRITE (R49, R51). -/
def execBwrite (u : UrtHdr) (addr : Nat) (data : List Word) (s : State) : Host.Outcome State Fault Refusal :=
  actAll s (fun s => urtMessage s ⟨u, opBwrite, addr, data⟩)
/-- EVACK (R55). -/
def execEvack (u : UrtHdr) (seq : Nat) (s : State) : Host.Outcome State Fault Refusal :=
  actAll s (fun s => urtMessage s ⟨u, opEvack, seq, []⟩)
/-- PING (R56). -/
def execPing (u : UrtHdr) (s : State) : Host.Outcome State Fault Refusal :=
  actAll s (fun s => urtMessage s ⟨u, opPing, 0, []⟩)
/-- UNKNOWN_OP (R53): an operation of the table that a host may send is not one of these. -/
def execUnknownOp (u : UrtHdr) (op : Nat) (s : State) : Host.Outcome State Fault Refusal :=
  actAll s (fun s => if op = opRead ∨ op = opWrite ∨ op = opBread ∨ op = opBwrite ∨ op = opEvack ∨ op = opPing then s
    else urtMessage s ⟨u, op, 0, []⟩)
/-- EVENT (R54). -/
def execEvent (n k : Nat) (s : State) : Host.Outcome State Fault Refusal := act s (fun d => sendEvent d n k)
/-- EVENT_RESEND (R55). -/
def execEventResend (n : Nat) (s : State) : Host.Outcome State Fault Refusal := act s (fun d => resendEvent d n)
/-- LINK_UP (R60). -/
def execLinkUp (x : Side) (s : State) : Host.Outcome State Fault Refusal := act s (fun d => linkUpOp d x.num)
/-- LINK_DOWN (R60). -/
def execLinkDown (x : Side) (s : State) : Host.Outcome State Fault Refusal := act s (fun d => linkDownOp d x.num)
/-- UPLINK_FRAME_DISCARD (R267). -/
def execUplinkFrameDiscard (x : Side) (k : DiscardKind) (s : State) : Host.Outcome State Fault Refusal :=
  act s (fun d => frameDiscard d x.num k)

end Sys2Proof.Machine
end

