-- ==== Sys2Proof/Machine/Vigil.lean ====
section
/-! DEFINITION. Vigil (14): entry, its abort, the exits, and the wake pattern. -/

namespace Sys2Proof.Machine

open Sys2Proof

/-- Core cycles in a millisecond (R15). -/
def msCycles : Nat := 500000

/-- No URT or PXM message for DEV_VIGCFG.IDLE ms (R376). -/
def uplinkIdle (d : Dev) : Bool := d.lastMsg + max (d.get DEV_VIGCFG_IDLE) 1 * msCycles ≤ d.aon.cycles

/-- The conditions of R376. -/
def vigilReady (d : Dev) : Bool :=
  d.get DEV_VIGCFG_EN == 1
    && d.chanList.all (fun c => d.get (CHC_CURSTAT_STATE c) == 3 || d.get (PG_CTL_EN (pCHC c)) == 0)
    && uplinkIdle d
    && d.sess.all (fun x => x.unack.isEmpty && x.queue.isEmpty)
    && d.sec.ops.isEmpty
    && (List.range 8).all (fun s => !(decide (1 ≤ d.get (PEN_OPSTAT_STATE s) ∧ d.get (PEN_OPSTAT_STATE s) ≤ 3)))
    && stagedSt d != stVerifying && stagedSt d != stArmed && d.get CFG_STAT_PROB == 0
    && d.pages.all (fun e => e.2.timer.isNone)

/-- Step 1 of R377; the offers to stewards return to pending (R400). -/
def vigilBegin (d : Dev) : Dev := vigilRetract (d.set DEV_VIGSTAT_STATE 1)

/-- VIGIL_ENTRY (R376, R377): the command stands at a commit point. A standby enters on its partner's notice (R449). -/
def vigilEntry (d : Dev) : Dev :=
  if d.get DEV_VIGSTAT_STATE = 0 ∧ d.get TWIN_STAT_ROLE ≠ 2 ∧ vigilReady d = true then vigilBegin d else d

/-- The parts of the hayloft that a vigil entry writes (R377): the interrupt controller's state, each hamlet's packed context, and the
stewards' retention state. -/
def vigilRegions (d : Dev) : List (Nat × Nat) :=
  (0x1000000, 0x4000) :: (d.hamList.map (fun h => (0x1004000 + 0x7000 * h, 0x7000)) ++ [(0x103C000, 0x4000)])

/-- They are written, with bytes that the spec does not lay out (DESIGN CHOICE: log entry 6). -/
def vigilStore (d : Dev) : Dev :=
  d.next.forEach (vigilRegions d) (fun t r => t.setMemB r.1 ((List.range r.2).map (fun i => Config.freeByte d.fresh (r.1 + i))))

/-- VIGIL_ENTRY_COMPLETE (R377 steps 3 and 4). A message that arrived meanwhile stops a head's entry (R380). -/
def vigilEntered (d : Dev) : Dev :=
  if d.get DEV_VIGSTAT_STATE ≠ 1 ∨ (d.get TWIN_STAT_ROLE ≠ 2 ∧ uplinkIdle d = false) then d
  else
    let d := (((vigilStore d).set DEV_VIGSTAT_STATE 2).inc DEV_VIGSTAT_ENTRIES).ist 3 0
    flipHeldAt { d with vigSaved := true }

/-- Code of an exit cause (DEV_VIGSTAT.CAUSE). -/
def VigilCause.code : VigilCause → Nat
  | .wakePattern _ => 1
  | .uplink => 2
  | .twin => 3
  | .fault => 4

/-- A wake pattern wakes its channel (R379, R369). -/
def vigilWake (d : Dev) (v : VigilCause) : Dev :=
  match v with
  | .wakePattern c => if d.hasChan c then curfewCause d c 1 else d
  | _ => d

/-- The segment comes out of vigil in the NOKEY state without replay state; its epoch change starts when it wakes (R245,
R379). -/
def dropKeys (x : Chan) : Chan := { x with old := none, cur := none, next := none, pairs := [], epWant := 1, keySent := [] }

/-- An entry in progress stops at its current step (R380). -/
def vigilAbort (d : Dev) (v : VigilCause) : Dev :=
  vigilWake ((d.set DEV_VIGSTAT_STATE 0).inc DEV_VIGSTAT_ABORTS) v

/-- The exit of R379 after a sound restore. -/
def vigilAwake (d : Dev) (v : VigilCause) : Dev :=
  let d := ((d.set DEV_VIGSTAT_STATE 0).set DEV_VIGSTAT_CAUSE (VigilCause.code v)).ist 3 1
  vigilWake (flipHeldAt { d with vigSaved := false, chans := d.chans.map dropKeys }) v

/-- An exit cause (R379, R380): it stops an entry, or ends vigil, and the requests held are answered. -/
def vigilLeave (s : State) (v : VigilCause) : State :=
  if s.dev.get DEV_VIGSTAT_STATE = 1 then { s with dev := vigilAbort s.dev v }
  else if s.dev.get DEV_VIGSTAT_STATE = 2 then
    urtReplay { s with dev := { vigilAwake s.dev v with vigHeld := [] } } s.dev.vigHeld []
  else s

/-- VIGIL_EXIT (R379, R380): a restore that finds an uncorrectable error restarts the part, with device time kept. -/
def vigilExit (s : State) (v : VigilCause) (restoreOk : Bool) (st : Straps) : State :=
  if s.dev.get DEV_VIGSTAT_STATE = 2 ∧ restoreOk = false then restart { s with dev := raise s.dev 3 0 } st 3
  else vigilLeave s v

/-- WAKE_PATTERN (R366, R369, R379): in vigil, and while it is entered, an exit cause. -/
def wakeOp (s : State) (c : Nat) : State :=
  if s.dev.get DEV_VIGSTAT_STATE = 0 then { s with dev := wakePattern s.dev c }
  else if s.dev.hasChan c = true ∧ s.dev.running (pCHC c) = true then vigilLeave s (.wakePattern c)
  else s

/-- WAKE_PATTERN (R366). -/
def execWakePattern (c : Nat) (s : State) : Host.Outcome State Fault Refusal := actAll s (fun s => wakeOp s c)
/-- VIGIL_ENTRY (R377). -/
def execVigilEntry (s : State) : Host.Outcome State Fault Refusal := act s vigilEntry
/-- VIGIL_ENTRY_COMPLETE (R377). -/
def execVigilEntryComplete (s : State) : Host.Outcome State Fault Refusal := act s vigilEntered
/-- VIGIL_EXIT (R379). -/
def execVigilExit (v : VigilCause) (restoreOk : Bool) (st : Straps) (s : State) : Host.Outcome State Fault Refusal :=
  actAll s (fun s => vigilExit s v restoreOk st)

end Sys2Proof.Machine
end

