-- ==== Sys2Proof/Machine/Twin.lean ====
section
/-! DEFINITION. Twin operation (18): heartbeats, headship, pairing, what crosses the link, and the joining of a part. -/

namespace Sys2Proof.Machine

open Sys2Proof

/-- HB_SEND (R445): the head's frame names what has started or ended on each channel since the last one. WAKE is 1 in the
frames of a head that has left vigil. -/
def hbSend (d : Dev) : Dev :=
  if linked d = false then d
  else
    let head := d.isHead
    let recs := if head then d.chans.filterMap (fun x => x.inFlight) else []
    let d := if head then { d with chans := d.chans.map (fun x => { x with inFlight := none }) } else d
    let st := d.get DEV_VIGSTAT_STATE
    twinSend d (.heartbeat head (twinReady d) (d.get DEV_SAFE_ACTIVE == 1) (head && st == 2)
      (head && st == 0 && d.has DEV_VIGSTAT_CAUSE) (d.tick % 2 ^ 24) recs)

/-- The part enters JOINING (R450). -/
def toJoining (d : Dev) : Dev := (d.set TWIN_STAT_ROLE 3).modTwin (fun t => { t with lineLow := true })

/-- Two heads (R455): the part with the higher identity prefix releases headship. -/
def split (o : Otp) (d : Dev) : Dev :=
  let d := (raise d 0x70 1).inc TWIN_CNT_SPLITS
  match d.twin.peer with
  | some p => if p.toNat < o.devId.toNat then releaseHead d else d
  | none => d

/-- What an HB frame tells (R445, R450, R452, R455). -/
def hbTake (o : Otp) (d : Dev) (f : HbFrame) : Dev :=
  let d := ((d.set TWIN_STAT_MISSED 0).setB TWIN_STAT_PREADY f.ready).modTwin (fun t => { t with lineLow := f.head })
  let d := d.forEach f.recs (fun d r => d.modChan r.ch (fun x => { x with peerFlight := some r }))
  let role := d.get TWIN_STAT_ROLE
  if f.head = false then d else if role = 0 then toJoining d else if role = 1 then split o d else d

/-- HB_RECEIVED (R445, R449): a frame whose tag fails is only counted (R442); the standby enters and leaves vigil on the head's notice. -/
def hbReceived (s : State) (f : HbFrame) : State :=
  if linked s.dev = false then s
  else if f.badTag = true then { s with dev := s.dev.inc TWIN_LNKCNT_BADTAG }
  else
    let standby := decide (s.dev.get TWIN_STAT_ROLE = 2)
    let s := { s with dev := hbTake s.otp s.dev f }
    if standby = false ∨ f.head = false then s
    else if f.vigil = true then
      (if s.dev.get DEV_VIGSTAT_STATE = 0 then { s with dev := vigilBegin s.dev } else s)
    else if f.wake = true then vigilLeave s .twin
    else s

/-- HB_MISSED (R452): a standby whose HEADSHIP line stays low does not take headship. -/
def hbMissed (d : Dev) : Dev :=
  let d := d.inc TWIN_STAT_MISSED
  if d.get TWIN_STAT_ROLE = 2 ∧ d.twin.lineLow = true then raise d 0x70 0 else d

/-- The entry that the old head had on the wire and whose delivery was not observed is QUEUED again (R454). -/
def resumeChan (d : Dev) (c : Nat) : Dev :=
  let d' := d.modChan c (fun x => { x with peerFlight := none })
  match (d.chan c).peerFlight with
  | none => d'
  | some r =>
    if r.outcome ≠ 0 then d'
    else match d.entry c r.idx with
      | none => d'
      | some e => putEntry d' c { e with st := 1, att := min (e.att + 1) 15, copy := none, since := d.aon.cycles }

/-- A standby takes headship (R452, R454). A standby that lacks the DELTA of the last commit point raises TWIN_JOIN
(R457). -/
def takeHeadship (d : Dev) : Dev :=
  if d.get TWIN_STAT_ROLE ≠ 2 then d
  else
    let d := (((d.set TWIN_STAT_ROLE 1).inc TWIN_CNT_TAKEOVERS).ist 0x70 0).modTwin (fun t => { t with lineLow := false })
    let d := d.forEach d.chanList resumeChan
    if d.twin.commitOk then d else raise d 0x70 2

/-- ABDICATE_FRAME (R452): the frame arrives on a paired link. One whose tag fails is a frame of no known type, which HB_RECEIVED
counts (R442: log entry 5). -/
def abdicateArrives (d : Dev) : Dev := if linked d = false then d else takeHeadship d

/-- Core cycles for which HEADSHIP stays high before a part in START takes it (R450). -/
def startCycles (d : Dev) : Nat := if d.get TWIN_CFG_PREF = 1 then 3250 else 13250

/-- START_TIMEOUT (R450): HEADSHIP has stayed high since the release of reset. -/
def startTimeout (d : Dev) : Dev :=
  if d.get TWIN_STAT_ROLE = 0 ∧ d.twin.lineLow = false then
    (d.pass (d.aon.release + startCycles d - d.aon.cycles)).set TWIN_STAT_ROLE 1
  else d

/-- HEADSHIP_LOW (R450). -/
def headshipLow (d : Dev) : Dev := if d.get TWIN_STAT_ROLE = 0 then toJoining d else d

/-- SAFE_STATE_ABDICATION (R420 step 4): every awake channel has delivered its safe entries, or the second commit point after
the entry has come, and a ready partner exists. -/
def safeAbdication (d : Dev) : Dev :=
  let done := d.chanList.all (fun c => 3 ≤ d.get (CHC_CURSTAT_STATE c) || !d.running (pCHC c)
    || !(d.chan c).tx.any (fun e => e.safe))
  if d.get DEV_SAFE_ACTIVE = 1 ∧ d.get DEV_SAFE_ABD = 0 ∧ d.isHead = true ∧ linked d = true ∧ d.get TWIN_STAT_PREADY = 1
      ∧ (done = true ∨ 2 ≤ (d.tick16 + 65536 - d.get DEV_SAFE_TICK) % 65536) then
    (releaseHead (((twinSend d .abdicateFrame).inc TWIN_CNT_ABDICATIONS).ist 0x70 1)).set DEV_SAFE_ABD 1
  else d

/-- The partner that TWIN_PEER names (R443). -/
def namedPeer (d : Dev) : Nat :=
  ((d.getW (TWIN_PEER 0) * 2 ^ 32 + d.getW (TWIN_PEER 1)) * 2 ^ 32 + d.getW (TWIN_PEER 2)) * 2 ^ 32 + d.getW (TWIN_PEER 3)

/-- Synchronisation starts over at a phase (R444, R456). -/
def resync' (d : Dev) (phase : Nat) : Dev :=
  ((d.set TWIN_SYNC_PHASE phase).set TWIN_SYNC_PCT 0).modTwin (fun t =>
    { t with gotActive := t.gotActive && 1 < phase, gotKeys := t.gotKeys && 2 < phase,
             gotSnapshot := false, deltas := 0, missing := 0, commitOk := false })

/-- TWIN_LINK_UP (R443): pairing starts. -/
def twinUp (d : Dev) : Dev :=
  if linked d then d else twinSend (d.modTwin (fun t => { t with upAt := d.aon.cycles })) .twinPair

/-- The partner is accepted; a part without headship starts to synchronise (R443, R456). -/
def pairDone (d : Dev) (m : PairMsg) : Dev :=
  let d := ((d.set TWIN_STAT_LINK 1).set TWIN_STAT_MISSED 0).modTwin (fun t => { t with peer := some m.peer, keys := t.keys + 1 })
  if d.isHead then d else resync' d 1

/-- PAIR (R443, R444). -/
def pairOp (d : Dev) (m : PairMsg) : Dev :=
  if m.whole = false then twinSend d .twinPair
  else if m.sigOk = true ∧ (m.peer.toNat = namedPeer d ∨ (namedPeer d = 0 ∧ d.isHead = false)) then pairDone d m
  else raise d 0x70 3

/-- TWIN_LINK_DOWN. -/
def twinDown (d : Dev) : Dev :=
  if linked d = false then d
  else
    let d := ((d.set TWIN_STAT_LINK 0).inc TWIN_LNKCNT_DROPS).ist 0x70 4
    (resync' (d.set TWIN_STAT_PREADY 0) 0).modTwin (fun t => { t with peer := none })

/-- TWIN_REKEY (R443): a fresh twin key; heartbeats go on. -/
def twinRekey (d : Dev) : Dev := if linked d then d.modTwin (fun t => { t with keys := t.keys + 1 }) else d

/-- The part takes what the head sends: it is linked, without headship, and synchronises or is synchronised. -/
def follows (d : Dev) : Bool := linked d && (d.get TWIN_STAT_ROLE == 2 || d.get TWIN_STAT_ROLE == 3)

/-- A synchronisation that fails stops until the next link-up (R456). -/
def joinStops (d : Dev) : Dev := raise (resync' d 0) 0x70 2

/-- JOIN_TIMEOUT (R456): 10 s after link-up. -/
def joinTimeout (d : Dev) : Dev :=
  if follows d = true ∧ 1 ≤ d.get TWIN_SYNC_PHASE ∧ d.get TWIN_SYNC_PHASE ≤ 4 then
    joinStops (d.pass (d.twin.upAt + 10000 * msCycles - d.aon.cycles))
  else d

/-- A value for an RWS register that the head holds for its next commit point; one that belongs to a commit point that has
passed is in force at once (R446). -/
def twinShadow (d : Dev) (k m v : Nat) : Dev :=
  match regRow (k / 1024) (k % 1024 * 4) with
  | none => d
  | some r =>
    let m := m &&& rowMask r (fun f => f.1 == .rws)
    if d.twin.missing = 0 then d.shadow k m v else d.setW k (blend (d.getW k) m v)

/-- Fence states, node scores, TEC and REC of a channel (R190, R446). The hold of a fence that the partner reports counts from the tick
in which the report arrives (DESIGN CHOICE: log entry 42). -/
def twinConfine (d : Dev) (c t r fence : Nat) (scores : List (Nat × Nat)) : Dev :=
  let was := d.getW (CHS_FENCE c)
  let d := ((d.set (CHS_TEC_TEC c) (min t 511)).set (CHS_REC_REC c) (min r 255)).set (CHS_TEC_STATE c) (confState t r)
  let d := d.setB (CHS_TEC_WARN c) (96 ≤ t || 96 ≤ r)
  let d := d.setW (CHS_FENCE c) (putBit fence 0 false)
  let d := d.forEach scores (fun d e =>
    if e.1 = 0 ∨ 31 < e.1 then d
    else ((d.set (CHS_NODE_SCORE c e.1) e.2).set (CHS_NODE_WARN c e.1) (b2n (decide (96 ≤ e.2)))).setBit (CHS_WARNM c) e.1 (96 ≤ e.2))
  d.forEach (List.range 32) (fun d a =>
    if a = 0 ∨ bitOf was a = bitOf fence a then d
    else
      let d := d.set (CHS_NODE_FENCED c a) (b2n (bitOf fence a))
      let hold (l : List (Nat × Nat)) : List (Nat × Nat) :=
        if bitOf fence a then bindKey a (d.tick + 1 + d.get (CHS_FENCEHOLD_HOLD c)) l else l.filter (fun e => e.1 != a)
      d.modChan c (fun x => { x with fenceUntil := hold x.fenceUntil }))

/-- Curfew state, awake mask and vetoes of a channel (R446). -/
def twinCurfew (d : Dev) (c st awake veto : Nat) : Dev :=
  let was := d.get (CHC_CURSTAT_STATE c)
  let d := ((d.set (CHC_CURSTAT_STATE c) st).set (CHC_QGMASK_AWAKE c) awake).set (CHC_VETO_MASK c) veto
  if was = st then d
  else (if st = 4 then waitAfter d c 50000 else d).modChan c (fun x =>
    { x with callTick := if st = 1 then d.tick else x.callTick, wakeNs := if st = 4 then d.nowNs else x.wakeNs })

/-- A queue entry of the head as its descriptor spells it. -/
def twinEntry (d : Dev) (i w0 w1 w3 : Nat) : TxEntry :=
  { idx := i, qt := bitsOf w0 31 30, c := bitsOf w0 24 22, ec := bitsOf w3 27 25, mid := bitsOf w0 21 0,
    slot := bitsOf w1 15 0, retry := bitsOf w1 31 28, ntf := bitOf w1 27, w := 0, att := bitsOf w3 23 20,
    proms := bitsOf w3 19 16, st := if bitsOf w3 31 28 = 2 then 1 else bitsOf w3 31 28, copy := none,
    pushed := d.aon.cycles, since := d.aon.cycles, due := 0, owner := none, window := d.tick, handle := none, safe := false, keyFrame := false, aborting := false }

/-- A transmit descriptor pushed, aborted or ended, and the payload of an attempt (R446). -/
def twinDesc (d : Dev) (c i : Nat) (w0 w1 w2 w3 : Word) (queued : Bool) (payload : List Byte) : Dev :=
  let d := (((d.setDesc i 0 w0.toNat).setDesc i 1 w1.toNat).setDesc i 2 w2.toNat).setDesc i 3 w3.toNat
  let d := if payload = [] then d else d.setMemB (granAddr (bitsOf w2.toNat 16 0)) (payload.take 512)
  let d := d.modChan c (fun x => { x with tx := x.tx.filter (fun e => e.idx != i)
      ++ (if queued then [twinEntry d i w0.toNat w1.toNat w3.toNat] else []) })
  qstat d c

/-- A key of the head: the count of its uses goes on when the part holds it already. -/
def twinKey (was : List (Option EpKey)) (k : Option (Nat × BitVec 256)) : Option EpKey :=
  k.map (fun e => match was.find? (fun o => match o with | some y => y.key == e.2 | none => false) with
    | some (some y) => y
    | _ => ⟨e.1, e.2, 0, false⟩)

/-- The epoch keys of a channel and their states (R245, R446). -/
def twinKeys (d : Dev) (c : Nat) (old cur next : Option (Nat × BitVec 256)) (ep : EpochWire) : Dev :=
  let d := (((d.set (CHX_EPSTAT_POSTP c) ep.postp).set (CHX_EPSTAT_ACT c) ep.last)).set (CHX_CONFIRM_MASK c) (ep.confirm / 2)
  d.modChan c (fun x =>
    let was := [x.old, x.cur, x.next]
    { x with old := twinKey was old, cur := twinKey was cur, next := twinKey was next, epWant := ep.want, epStart := ep.start,
             epDeadline := ep.deadline, epLast := ep.last })

/-- The result of an ENROLL or a REVOKE (R446). -/
def twinEnroll (d : Dev) (c a : Nat) (k : Option (BitVec 256)) : Dev :=
  (d.storeKey c a k).setBit (CHX_CONFIRM c) a false

/-- A timed output queued or ended at the head (R446). -/
def twinOut (d : Dev) (o : TimedOut) (ended : Bool) : Dev :=
  let rest := d.svc.outs.filter (fun x => x.handle != o.handle)
  { d with svc := { d.svc with outs := rest ++ (if ended then [] else [o]) } }.toCount

/-- The standby is synchronised (R456). -/
def synced (d : Dev) : Dev :=
  let d := (d.set TWIN_SYNC_PHASE 5).set TWIN_SYNC_PCT 100
  ((d.set TWIN_STAT_ROLE 2).inc TWIN_CNT_JOINS).ist 0x70 3

/-- Every DELTA of the last commit point has arrived; the first time on top of a complete snapshot, the part is synchronised
(R446, R456). -/
def commitDone (d : Dev) : Dev :=
  let d := d.modTwin (fun t => { t with commitOk := true })
  if d.twin.gotSnapshot = true ∧ d.get TWIN_SYNC_PHASE = 4 then synced d else d

/-- A commit DELTA that counts `n` messages (R446). -/
def twinCommit (d : Dev) (n : Nat) (digest : Option (BitVec 384)) : Dev :=
  let d := d.modTwin (fun t => { t with missing := n - t.deltas, deltas := t.deltas - n, commitOk := false,
                                        headDigest := match digest with | some h => some h | none => t.headDigest })
  if d.twin.missing = 0 then commitDone d else d

/-- A message of changes is counted; the last one missing completes the commit (R446). -/
def countDelta (d : Dev) : Dev :=
  if d.twin.missing = 0 then d.modTwin (fun t => { t with deltas := t.deltas + 1 })
  else
    let d := d.modTwin (fun t => { t with missing := t.missing - 1 })
    if d.twin.missing = 0 then commitDone d else d

/-- A discarded message (R444): a frame whose tag fails is counted. -/
def twinDamage (d : Dev) (badTag : Bool) (phase : Nat) : Dev :=
  raise (resync' (d.iff badTag (fun d => d.inc TWIN_LNKCNT_BADTAG)) phase) 0x70 2

/-- One change of the head applied (R446). Device time serves a part whose own is not set (TIME_STAT.SETBY = 3). -/
def applyDelta (d : Dev) (m : Delta) : Dev :=
  match m with
  | .shadow k mask v => twinShadow d k mask v.toNat
  | .confine c t r fence scores => if d.hasChan c then twinConfine d c t r fence scores else d
  | .curfew c st awake veto => if d.hasChan c then twinCurfew d c st awake veto else d
  | .txDesc c i w0 w1 w2 w3 queued payload => if d.hasChan c then twinDesc d c i w0 w1 w2 w3 queued payload else d
  | .keys c old cur next ep => if d.hasChan c then twinKeys d c old cur next ep else d
  | .enroll c a k => twinEnroll d c a k
  | .opSeq k q => d.modFlash (fun f => { f with opseq := putAt f.opseq k q })
  | .deviceTime sec ns => if d.aon.set then d else enterHoldover (loadTime d (sec * 1000000000 + ns) 3)
  | .timedOutput h s ch mid apply tick policy late data ended =>
    twinOut d ⟨h, s, ch, mid, apply, tick, policy, late, data, none, false⟩ ended
  | .commit _ _ _ => d
  | .damaged _ => d

/-- DELTA (R446): the standby applies what the head sends once it holds a snapshot. -/
def deltaOp (d : Dev) (m : Delta) : Dev :=
  if follows d = false ∨ d.get TWIN_SYNC_PHASE = 0 then d
  else match m with
    | .damaged badTag => twinDamage d badTag 3
    | .commit _ n digest => if d.twin.gotSnapshot then twinCommit d n digest else d
    | m => if d.twin.gotSnapshot then countDelta (applyDelta d m) else d

/-- A verification with another result than the head's (R447). -/
def joinFails (d : Dev) : Dev := raise (d.modTwin (fun t => { t with commitOk := false })) 0x70 2

/-- The head's ACTIVE package on a joining part (R456 step 1): it takes force unless the part holds it ACTIVE. -/
def joinActive (o : Otp) (d : Dev) (p : Package) : Dev :=
  let d := d.modTwin (fun t => { t with gotActive := true, headDigest := some p.digest })
  let d := d.set TWIN_SYNC_PCT 50
  if (d.flash.active.map (fun x => x.digest)) = some p.digest then d
  else if checkPackage o d false p ≠ 0 then joinStops d
  else
    let a := freeArea d
    let old := d.flash.active
    let d := setRoles (expand d p a) (some p) d.flash.previous d.flash.staged d.flash.slots (putAt d.flash.areas 0 (some a))
    let d := takeForce d old p (some a) false
    condEnd (d.forEach (usedPages d p) enablePage) 0x60 0

/-- The head's PREVIOUS package on a joining part (R456 step 1). -/
def joinPrevious (o : Otp) (d : Dev) (p : Package) : Dev :=
  if checkPackage o d false p ≠ 0 then joinStops d
  else
    let d := setRoles d d.flash.active (some p) d.flash.staged d.flash.slots (putAt d.flash.areas 1 none)
    let a := freeArea d
    let d := (expand d p a).modFlash (fun f => { f with areas := putAt f.areas 1 (some a) })
    (d.set TWIN_SYNC_PHASE 2).set TWIN_SYNC_PCT 0

/-- A package that the head has verified (R447): the standby verifies it itself. -/
def twinStaged (o : Otp) (d : Dev) (p : Package) (headOk : Bool) : Dev :=
  let d := (freeStaged d).modFlash (fun f => { f with staged := some p })
  let d := verifyDone o ((d.set CFG_LOADED_BYTES p.total).set CFG_STAT_STAGED stVerifying)
  if decide (stagedSt d = stVerified) = headOk then d else joinFails d

/-- ARM at the head (R447). -/
def twinArm (d : Dev) (t : Nat) : Dev :=
  if stagedSt d = stVerified then
    ((d.set CFG_STAT_STAGED stArmed).setW CFG_ARMTICKLO (t % 2 ^ 32)).setW CFG_ARMTICKHI (t / 2 ^ 32 % 2 ^ 16) |> fun d => d.ist 0x60 3
  else d

/-- BULK (R447, R456). -/
def bulkOp (o : Otp) (d : Dev) (m : Bulk) : Dev :=
  if follows d = false ∨ d.get TWIN_SYNC_PHASE = 0 then d
  else match m with
    | .active p _ => joinActive o d p
    | .previous p _ => if d.twin.gotActive then joinPrevious o d p else d
    | .staged p ok => twinStaged o d p ok
    | .arm t => twinArm d t
    | .disarm => disarmOp d
    | .erase => eraseOp d
    | .rollback t => if d.flash.previous.isNone then d else d.modCfg (fun c => { c with manualAt := insertNat t c.manualAt })
    | .enrollKeys ks =>
      if d.twin.gotActive then
        ((d.storeKeys ks).set TWIN_SYNC_PHASE 3).modTwin (fun t => { t with gotKeys := true })
      else d
    | .snapshot l =>
      if d.twin.gotKeys then
        ((d.forEach l applyDelta).set TWIN_SYNC_PHASE 4).modTwin (fun t => { t with gotSnapshot := true, deltas := 0, missing := 0 })
      else d
    | .damaged pkg badTag => twinDamage d badTag (if pkg then 1 else 3)

/-- SAFE_STATE_ABDICATION (R420). -/
def execSafeStateAbdication (s : State) : Host.Outcome State Fault Refusal := act s safeAbdication
/-- HB_SEND (R445). -/
def execHbSend (s : State) : Host.Outcome State Fault Refusal := act s hbSend
/-- HB_RECEIVED (R445). -/
def execHbReceived (f : HbFrame) (s : State) : Host.Outcome State Fault Refusal := actAll s (fun s => hbReceived s f)
/-- HB_MISSED (R452). -/
def execHbMissed (s : State) : Host.Outcome State Fault Refusal := act s hbMissed
/-- TAKEOVER (R452). -/
def execTakeover (s : State) : Host.Outcome State Fault Refusal := act s takeHeadship
/-- ABDICATE_FRAME (R452). -/
def execAbdicateFrame (s : State) : Host.Outcome State Fault Refusal := act s abdicateArrives
/-- START_TIMEOUT (R450). -/
def execStartTimeout (s : State) : Host.Outcome State Fault Refusal := act s startTimeout
/-- HEADSHIP_LOW (R450). -/
def execHeadshipLow (s : State) : Host.Outcome State Fault Refusal := act s headshipLow
/-- TWIN_LINK_UP (R443). -/
def execTwinLinkUp (s : State) : Host.Outcome State Fault Refusal := act s twinUp
/-- TWIN_LINK_DOWN (R450). -/
def execTwinLinkDown (s : State) : Host.Outcome State Fault Refusal := act s twinDown
/-- PAIR (R443). -/
def execPair (m : PairMsg) (s : State) : Host.Outcome State Fault Refusal := act s (fun d => pairOp d m)
/-- DELTA (R446). -/
def execDelta (m : Delta) (s : State) : Host.Outcome State Fault Refusal := act s (fun d => deltaOp d m)
/-- BULK (R447). -/
def execBulk (m : Bulk) (s : State) : Host.Outcome State Fault Refusal := act s (fun d => bulkOp s.otp d m)
/-- TWIN_REKEY (R443). -/
def execTwinRekey (s : State) : Host.Outcome State Fault Refusal := act s twinRekey
/-- JOIN_TIMEOUT (R456). -/
def execJoinTimeout (s : State) : Host.Outcome State Fault Refusal := act s joinTimeout

end Sys2Proof.Machine
end

