-- ==== Sys2Proof/Machine/CommitPoint.lean ====
section
/-! DEFINITION. The commit point (03): the steps of R75 from Cn to Bn, and the rows of chapter 11 that act at one. -/

namespace Sys2Proof.Machine

open Sys2Proof

/-- The commit point lies 4 us before its bell, in ns (R75). -/
def commitLead : Nat := 4000

/-- The smallest multiple of `p` that is at least `t`. -/
def ceilTo (p t : Nat) : Nat := (t + p - 1) / p * p

/-- The bell block works: device time is set, and the part is past START (R450, R471 step 8, 13). -/
def ringing (d : Dev) : Bool := d.aon.set && d.get TWIN_STAT_ROLE != 0

/-- The nominal instant of the bell that comes next (R62, R63, R471 step 8). -/
def nextBell (d : Dev) : Nat :=
  if d.bell.started then d.bell.next else ceilTo d.periodNs (max d.bell.next (d.nowNs + commitLead))

/-- The hamlets whose mill has not placed every frame received in the tick in force or before (R77, R78); an isolated hamlet has
closed its work. -/
def lateHamlets (d : Dev) : List Nat :=
  d.hamList.filter (fun h => !(d.ham h).isolated && (d.hamChans h).any (fun c => (d.chan c).hold.any (fun x => decide (x.tick ≤ d.tick))))

/-- The smallest slack so far (DEV_BSLACK). -/
def noteSlack (d : Dev) (ns : Nat) : Dev := d.set DEV_BSLACK_MIN (min (d.get DEV_BSLACK_MIN) ns)

/-- The records that a late hamlet wrote are published with STALE (R80). -/
def staleRecords (d : Dev) (late : List Nat) : Dev :=
  d.forEach (d.svc.dirty.filter (fun e => late.contains e.2)) (fun d e =>
    let a := 0xB00000 + 16 * e.1 + 8
    d.setMemW a (putBit (d.memW a) 24 true))

/-- Step 1 of R75: the check that the work of the tick in force is closed; what a late hamlet still holds of it is marked (R78 to
R80). -/
def checkWork (d : Dev) (cn : Nat) : Dev :=
  let late := lateHamlets d
  let svc := !d.svc.work.isEmpty
  let d := { d with bell := { d.bell with lateHam := late } }
  let d := { d with chans := d.chans.zipIdx.map (fun xn => { xn.1 with
    stale := late.contains (hamOf xn.2),
    hold := xn.1.hold.map (fun x => { x with late := x.late || (late.contains (hamOf xn.2) && decide (x.tick ≤ d.tick)) }) }) }
  if late = [] ∧ svc = false then noteSlack d (cn - max d.bell.inst d.bell.closed)
  else
    let d := staleRecords (noteSlack d 0) late
    let d := (d.inc DEV_TOVRCNT_COUNT).setW DEV_TOVRSRC (d.tick16 * 2 ^ 16 + b2n svc * 2 ^ 8 + late.foldl (fun n h => n + 2 ^ h) 0)
    let d := { d with cfg := { d.cfg with ovrSeen := true } }
    raise (d.ist 2 1) 2 0

/-- What of the tick in force is still to end on channel `c` of the head: a bell past the limit of R73, one-shot entries whose
window has passed (R140), timed outputs whose ARB_END has passed (R329), scheduled slots that have passed (R137). -/
def endTick (d : Dev) (c : Nat) : Dev :=
  let d := endBell d c
  let d := d.forEach (d.svc.outs.filter (fun o => o.ch == c && o.desc.isSome && decide (o.tick ≤ d.tick + 1))) outMissed
  let d := d.forEach ((d.chan c).tx.filter (fun e => e.qt == 2 && e.st == 1 && e.window ≤ d.tick)) (fun d e => endEntry d c e 5)
  skipSched d c (fun _ => true)

/-- A scheduled entry waits for its slot of the new tick (R136). -/
def renewSched (d : Dev) (c : Nat) : Dev :=
  d.forEach ((d.chan c).tx.filter (fun e => e.qt == 0 && (e.st == 3 || e.st == 4 || e.st == 7)))
    (fun d e => putEntry d c { e with st := 1, att := 0, copy := none, since := d.aon.cycles })

/-- At the first bell, of tick `n`, the new key epochs start (R64, R471 step 8), and the entries pushed before it wait for its tick
(R136, R140). -/
def firstTickOf (n : Nat) (x : Chan) : Chan :=
  { x with epStart := if x.epWant = 1 then n else x.epStart, tx := x.tx.map (fun e => { e with window := n }) }

/-- The tick number becomes n, and the bell instant Bn (R63, R75 step 2). -/
def advanceTick (d : Dev) : Dev :=
  let b := nextBell d
  let n := if d.bell.started then (d.tick + 1) % 2 ^ 48 else b / d.periodNs
  let d := if d.bell.started then d else { d with chans := d.chans.map (firstTickOf n) }
  { d with bell := { d.bell with tick := n, started := true, prev := d.bell.inst, cn := d.aon.cycles, inst := b,
                                 next := b + d.periodNs, pchg := false, closed := b,
                                 period := if d.bell.started then d.bell.period else d.periodNs } }

/-- The bell after this one; `pchg` says that the commit has changed P (R65). -/
def placeNext (d : Dev) : Dev :=
  { d with bell := { d.bell with next := ceilTo d.periodNs (d.bell.inst + d.periodNs), pchg := d.bell.period != d.periodNs,
                                 period := d.periodNs } }

/-- One host shadow commits (R7, R75). ENFORCE stays 1 in certified mode (R231). A domain that is switched off is ABSENT
(R345). -/
def commitShadow (d : Dev) (e : Nat × Nat × Word) : Dev :=
  let k := e.1
  let p := k / 1024
  let off := k % 1024 * 4
  let old := d.getW k
  let new := enforceKept d p off (blend old e.2.1 e.2.2.toNat)
  let d := (d.setW k new).setW (PG_GEN p) (d.getW CFG_GEN)
  if (p = 0x11 ∨ p = 0x12) ∧ k = TIME_DCFG (p - 0x11) ∧ d.get (TIME_DCFG_OFF (p - 0x11)) = 1 then domAbsent d (p - 0x11) else d

/-- The shadows that the commit point finds: a write in its own cycle waits for the next bell (R76). -/
def dueShadows (d : Dev) : List (Nat × Nat × Word) := if d.shadowAt = d.aon.cycles then d.shadowOld else d.shadows

/-- The shadows that were written in the cycle of the commit point. -/
def laterShadows (d : Dev) : List (Nat × Nat × Word) := d.shadows.filter (fun e => !(dueShadows d).contains e)

/-- Every pending shadow commits (R75 step 2, R297). -/
def commitShadows (d : Dev) : Dev :=
  if d.shadows = [] then d
  else
    let l := d.shadows
    (raiseGen { d with shadows := [] }).forEach l commitShadow

/-- The locks of certified mode (R231, R280). -/
def certLocks (d : Dev) : Dev :=
  if d.certPend = false then d
  else
    ({ d with cert := true, certPend := false }.set SEC_MODE_DEBUG 0).forEach d.chanList
      (fun d c => d.setBit (CHX_AUTHCFG c) 31 true)

/-- The fence holds of sleeping nodes go on (R197, R203). -/
def holdFences (d : Dev) (c : Nat) : Dev :=
  d.modChan c (fun x => { x with fenceUntil := x.fenceUntil.map (fun e => (e.1, e.2 + b2n (asleepNode d c e.1))) })

/-- The unfences of the commit point: those of UNFENCE operations, and the automatic ones that are due (R203, R204). -/
def unfences (d : Dev) (c : Nat) : Dev :=
  let d := d.forEach (d.chan c).unfReq (fun d a => unfence d c a true)
  let d := d.modChan c (fun x => { x with unfReq := [] })
  if d.get (CHS_NSCFG_AUTOUNF c) = 1 ∧ d.get (CHS_FENCEHOLD_HOLD c) ≠ 0 then
    d.forEach (((d.chan c).fenceUntil.filter (fun e => e.2 ≤ d.tick)).map (fun e => e.1)) (fun d a => unfence d c a false)
  else d

/-- UNFENCE operations that waited for the commit point are done (R203, R275). -/
def unfenceDone (d : Dev) : Dev :=
  d.forEach (List.range 8) (fun d s => if d.get (PEN_OPSTAT_STATE s) = 3 then opDone d s else d)

/-- The offers of sources that the commit has masked are withdrawn, and those of targets no longer eligible retracted (R396,
R397). -/
def settleOffers (old d : Dev) : Dev :=
  retractIneligible old (d.forEach (List.range 4) (fun d t => d.iff (d.has (INTC_OFFER_VALID t)) (fun d => withdraw d (d.get (INTC_OFFER_SRC t)))))

/-- A priority entry that was pushed before the commit point at core cycle `cn` has one more aging step due (R132, R145). -/
def dueStep (cn : Nat) (e : TxEntry) : TxEntry :=
  if e.qt = 1 ∧ (e.st = 1 ∨ e.st = 2) ∧ e.pushed < cn then { e with due := e.due + 1 } else e

/-- Step 2 of R75 on channel `c` after the shadows: line settings, keys, curfew, what the bell frame carries, and the tick-bound work,
with an aging step for each priority entry pushed before this cycle (R132, R145). -/
def commitChan (d : Dev) (c : Nat) : Dev :=
  let d := lineCommit d c
  let d := unfences (holdFences d c) c
  let d := epochCommit d c d.tick
  let d := if d.running (pCHC c) = false then d else if d.isHead then curfewTick d c d.tick else d.add (CHC_CURSTAT_IDLE c) 1
  let d := renewSched d c
  d.modChan c (fun x =>
    { x with seq := 0, awake := d.get (CHC_QGMASK_AWAKE c), fence := d.getW (CHS_FENCE c), formed := served d c,
             aged := !d.running (pCHC c) && x.tx.isEmpty && x.descWork.isEmpty, bell := .none, bellFin := 0,
             tx := x.tx.map (dueStep d.bell.cn) })

/-- Step 4 of R75: the process image switches (R311), and the services have the work of the tick (R316, R334). INIT is
marked after the switch, in the commit tick of a package (R315). -/
def switchImage (d : Dev) : Dev :=
  let flip (l : List Nat) (r : Nat) : List Nat := if l.contains r then l.filter (· != r) else insertNat r l
  let recs := d.svc.dirty.map (fun e => e.1)
  let todo := d.svc.initTodo
  let d := { d with svc := { d.svc with
    sel := recs.foldl flip d.svc.sel,
    work := d.svc.work ++ [SvcWork.mk d.tick recs d.svc.changed d.svc.soeNow (bellMarks d)],
    dirty := [], changed := [], soeNow := [], initTodo := [] } }
  let d := (d.ist 0x51 0)
  d.forEach todo (fun d r =>
    let d := markRecord d r 128
    { d with svc := { d.svc with initAt := bindKey r d.tick d.svc.initAt } })

/-- Silence after a wake, in ns: 100 us, or 150 us at 125 kbit/s (R370). -/
def wakeSilence (d : Dev) (c : Nat) : Nat := if d.arbNs c = 8000 then 150000 else 100000

/-- The segment gets a bell at Bn: it is awake, or the curfew commits with this bell, or it wakes in time (R369 to R371). -/
def bellDue (d : Dev) (c : Nat) : Bool :=
  let st := d.get (CHC_CURSTAT_STATE c)
  st == 0 || st == 1 || (st == 2 && (d.chan c).commit) || (st == 4 && decide ((d.chan c).wakeNs + wakeSilence d c ≤ d.bell.inst))

/-- The line of channel `c` at Bn. Of a segment that the command does not name it is idle, the bell frame is delivered, and the loop
delay measured at its SOF is 0 ns (R95; DESIGN CHOICE: log entry 35). -/
def lineOf (l : List BellLine) (c : Nat) : BellLine :=
  match l.find? (fun x => x.ch == c) with
  | some x => x
  | none => ⟨c, false, .delivered, 0, false⟩

/-- Step 5 of R75 on channel `c` (R62, R72, R191, R222, R371). -/
def ringChan (d : Dev) (c : Nat) (l : BellLine) : Dev :=
  if d.get (PG_CTL_EN (pCHC c)) = 0 ∨ bellDue d c = false then d
  else if d.isHead = false then d.modChan c (fun x => { x with bell := .due })
  else if bellWithheld d c = true then bellUnsent d c
  else if d.running (pCHC c) = false then d
  else
    let d := d.modChan c (fun x => { x with bell := .due })
    if l.busy = true ∨ busIdle d c d.bell.inst = false ∨ heldBack d c = true ∨ (d.chan c).formed = false then d else sendBell d c 0 l

/-- The first bell after start-up: the pins are released, and its time is recorded (R417, R419, R471 step 8); not while no
package has been committed since a start-up without one (R472, R494). -/
def firstBell (d : Dev) : Dev :=
  if d.pins.released = true ∨ (d.page 0x60).live.contains 0 = true then d
  else
    let d := { d with pins := { d.pins with released := true }, svc := { d.svc with firstTick := d.tick } }
    d.set DEV_RSTCAUSE_BELLMS (min ((d.aon.cycles - d.aon.release) / msCycles) 65535)

/-- The partner learns of the commit point from a head; a standby waits for the head's (R446, R451). -/
def commitNotice (d : Dev) : Dev :=
  let d := d.modTwin (fun t => { t with commitOk := false })
  if d.isHead = true ∧ linked d = true then twinSend d (.twinDelta d.tick) else d

/-- Step 2 of R75: everything that commits, in tick n. -/
def commitAll (d : Dev) : Dev :=
  let later := laterShadows d
  let old := d
  let d := d.forEach d.chanList (fun d c => d.modChan c (fun x => { x with arbPrev := d.get (CHC_WIN_ARB_END c) }))
  let d := certLocks (commitShadows (packageTick { d with shadows := dueShadows d }))
  let d := placeNext { d with shadows := later, shadowOld := [] }
  let d := d.forEach d.chanList commitChan
  let d := settleOffers old (unfenceDone (probationTick d))
  let d := d.forEach d.millList millSpare
  let d := d.forEach (List.range 8) sessionExpiry
  let d := if d.bell.pchg then toRecompute d else d
  let d := if d.isHead then toPushDue d else d
  let d := if d.get DEV_SAFE_ACTIVE = 1 ∧ d.isHead = true then d.forEach d.chanList (safePush raise) else d
  commitNotice d

/-- In vigil a commit point passes with no effect: the tick and the bell instants go on (R63, R378). -/
def passTick (d : Dev) : Dev := (advanceTick d).advanceTo (nextBell d)

/-- Between Cn and Bn the mill completes the next piece of work of channel `c` (R80, R209, R210), in the time that is left. -/
def betweenPiece (b : Nat) (d : Dev) (c : Nat) : Dev :=
  let t := match nextPiece d c with
    | some (.tick, _) => tickWork d c
    | some (.copy i, _) => transmitCopy d c i false
    | some (.frame, _) => placement d c .none
    | none => d
  if d.hasChan c = true ∧ t.nowNs ≤ b then t else d

/-- COMMIT_POINT (R75): the steps from Cn to Bn. `l` is the line of each segment at Bn; `between` names, in order, the channels of
which a mill completes a piece of work before Bn. -/
def commitPoint (d : Dev) (l : List BellLine) (between : List Nat) : Dev :=
  if ringing d = false then d
  else if d.get DEV_VIGSTAT_STATE = 2 then passTick d
  else
    let b := nextBell d
    let d := d.advanceTo (b - commitLead)
    let d := if d.bell.started then
        (let d := if d.isHead then d.forEach d.chanList endTick else d
         checkWork d (b - commitLead))
      else d
    let d := commitAll (advanceTick (d.forEach d.hamList noteSlots))
    let d := switchImage (d.forEach between (betweenPiece b))
    let d := firstBell ((d.advanceTo b).ist 2 0)
    d.forEach d.chanList (fun d c => ringChan d c (lineOf l c))

/-- A command that stands at the commit point that comes next acts for its tick number. -/
def atNextTick (d : Dev) (f : Dev → Dev) : Dev :=
  let t := d.tick
  let e := f { d with bell := { d.bell with tick := t + 1 } }
  { e with bell := { e.bell with tick := t } }

/-- The commit point that comes next completes a run of CFG_SESSWAIT commit points with no live session (R298). -/
def sessRunEnds (d : Dev) : Bool :=
  decide (d.cfg.probStart < d.tick + 1) && !d.sess.any (fun x => x.st == .opened && x.live)
    && decide (d.get CFG_SESSWAIT_TICKS ≤ d.cfg.sessRun + 1)

/-- PROBATION_END (R298), at the commit point that comes next: an event found at it counts as a failure. -/
def probationEnd (d : Dev) : Dev :=
  if d.has CFG_STAT_PROB = true ∧ d.cfg.failed = 0 ∧ failCause d = 0 ∧ lateHamlets d = [] ∧ d.svc.work = [] ∧ sessRunEnds d = false
      ∧ d.cfg.probStart + d.cfg.probLen ≤ d.tick + 1 then
    (endProbation d).ist 0x60 5
  else d

/-- SESSWAIT_EXPIRY (R298): the commit point that comes next completes a run with no live session. -/
def sesswaitExpiry (d : Dev) : Dev :=
  if d.has CFG_STAT_PROB = true ∧ d.cfg.failed = 0 ∧ sessRunEnds d = true then
    d.modCfg (fun c => { c with failed := 3, failAt := d.tick + 1 })
  else d

/-- RETURN (R299): the commit point that comes next follows that at which the failure was found. -/
def returnNow (d : Dev) : Dev :=
  if d.cfg.failed ≠ 0 ∧ d.cfg.failAt ≤ d.tick then atNextTick d (fun d => returnOp d d.cfg.failed) else d

/-- MANUAL_RETURN (R301), at the commit point that comes next. -/
def manualReturnNow (d : Dev) : Dev :=
  if d.cfg.manualAt.any (fun t => decide (t ≤ d.tick + 1)) = true then atNextTick d manualReturnOp else d

/-- COMMIT_POINT (R75). -/
def execCommitPoint (l : BellRun) (s : State) : Host.Outcome State Fault Refusal :=
  act s (fun d => commitPoint d l.bells l.between)
/-- PROBATION_END (R298). -/
def execProbationEnd (s : State) : Host.Outcome State Fault Refusal := act s probationEnd
/-- SESSWAIT_EXPIRY (R298). -/
def execSesswaitExpiry (s : State) : Host.Outcome State Fault Refusal := act s sesswaitExpiry
/-- RETURN (R299). -/
def execReturnPkg (s : State) : Host.Outcome State Fault Refusal := act s returnNow
/-- MANUAL_RETURN (R301). -/
def execManualReturn (s : State) : Host.Outcome State Fault Refusal := act s manualReturnNow

end Sys2Proof.Machine
end

