-- ==== Sys2Proof/Machine/Dispatch.lean ====
section
/-! DEFINITION. Every command's meaning: one arm for each row of spec/opcode_table.json. -/

namespace Sys2Proof.Machine

open Sys2Proof

def exec (i : Instr) (s : State) : Host.Outcome State Fault Refusal :=
  match i with
  | .powerOnReset st => Sys2Proof.Machine.execPowerOnReset st s
  | .rstN st => Sys2Proof.Machine.execRstN st s
  | .deviceReset w val st => Sys2Proof.Machine.execDeviceReset w val st s
  | .tapInstruction t st => Sys2Proof.Machine.execTapInstruction t st s
  | .thermalTrip => Sys2Proof.Machine.execThermalTrip s
  | .thermalRecovery st => Sys2Proof.Machine.execThermalRecovery st s
  | .inputLost a b => Sys2Proof.Machine.execInputLost a b s
  | .lastGaspRecord => Sys2Proof.Machine.execLastGaspRecord s
  | .holdExhausted => Sys2Proof.Machine.execHoldExhausted s
  | .inputReturn x st => Sys2Proof.Machine.execInputReturn x st s
  | .revert => Sys2Proof.Machine.execRevert s
  | .holdLow capUf => Sys2Proof.Machine.execHoldLow capUf s
  | .vauxOc => Sys2Proof.Machine.execVauxOc s
  | .vauxRetry => Sys2Proof.Machine.execVauxRetry s
  | .vauxSwitch w on => Sys2Proof.Machine.execVauxSwitch w on s
  | .railDev r => Sys2Proof.Machine.execRailDev r s
  | .registerWrite w addr val => Sys2Proof.Machine.execRegisterWrite w addr val s
  | .blockEnable w p en => Sys2Proof.Machine.execBlockEnable w p en s
  | .blockSoftReset w p => Sys2Proof.Machine.execBlockSoftReset w p s
  | .freeze w p on => Sys2Proof.Machine.execFreeze w p on s
  | .interruptForce w p bits => Sys2Proof.Machine.execInterruptForce w p bits s
  | .faultForce w p bits => Sys2Proof.Machine.execFaultForce w p bits s
  | .faultAck w p => Sys2Proof.Machine.execFaultAck w p s
  | .escalationTimerExpiry p => Sys2Proof.Machine.execEscalationTimerExpiry p s
  | .shadowEnd p => Sys2Proof.Machine.execShadowEnd p s
  | .quietPeriodEnd p => Sys2Proof.Machine.execQuietPeriodEnd p s
  | .safeStateAbdication => Sys2Proof.Machine.execSafeStateAbdication s
  | .faultPinPulseEnd k => Sys2Proof.Machine.execFaultPinPulseEnd k s
  | .read u addr => Sys2Proof.Machine.execRead u addr s
  | .write u addr val => Sys2Proof.Machine.execWrite u addr val s
  | .bread u addr => Sys2Proof.Machine.execBread u addr s
  | .bwrite u addr data => Sys2Proof.Machine.execBwrite u addr data s
  | .evack u seq => Sys2Proof.Machine.execEvack u seq s
  | .ping u => Sys2Proof.Machine.execPing u s
  | .event ses n => Sys2Proof.Machine.execEvent ses n s
  | .eventResend ses => Sys2Proof.Machine.execEventResend ses s
  | .linkUp x => Sys2Proof.Machine.execLinkUp x s
  | .linkDown x => Sys2Proof.Machine.execLinkDown x s
  | .pxmFragment f => Sys2Proof.Machine.execPxmFragment f s
  | .pxmTimeout x mac xid => Sys2Proof.Machine.execPxmTimeout x mac xid s
  | .hello => Sys2Proof.Machine.execHello s
  | .accept => Sys2Proof.Machine.execAccept s
  | .commission => Sys2Proof.Machine.execCommission s
  | .sessionOpenTimeout ses => Sys2Proof.Machine.execSessionOpenTimeout ses s
  | .sessionLiveTimeout ses => Sys2Proof.Machine.execSessionLiveTimeout ses s
  | .sessionExpiry ses => Sys2Proof.Machine.execSessionExpiry ses s
  | .penClose w val => Sys2Proof.Machine.execPenClose w val s
  | .keyIndexRollover ses x deviceSends => Sys2Proof.Machine.execKeyIndexRollover ses x deviceSends s
  | .oldSakRetire ses x => Sys2Proof.Machine.execOldSakRetire ses x s
  | .penOpgo w len rsvd => Sys2Proof.Machine.execPenOpgo w len rsvd s
  | .arm => Sys2Proof.Machine.execArm s
  | .rollback => Sys2Proof.Machine.execRollback s
  | .enroll => Sys2Proof.Machine.execEnroll s
  | .revoke => Sys2Proof.Machine.execRevoke s
  | .rekey => Sys2Proof.Machine.execRekey s
  | .unfence => Sys2Proof.Machine.execUnfence s
  | .release => Sys2Proof.Machine.execRelease s
  | .gate => Sys2Proof.Machine.execGate s
  | .debug => Sys2Proof.Machine.execDebug s
  | .floor => Sys2Proof.Machine.execFloor s
  | .authrev => Sys2Proof.Machine.execAuthrev s
  | .authadd => Sys2Proof.Machine.execAuthadd s
  | .certify => Sys2Proof.Machine.execCertify s
  | .rngHealth apt => Sys2Proof.Machine.execRngHealth apt s
  | .rngRecovery => Sys2Proof.Machine.execRngRecovery s
  | .cfgLoadFirst w len rsvd => Sys2Proof.Machine.execCfgLoadFirst w len rsvd s
  | .cfgLoad w len => Sys2Proof.Machine.execCfgLoad w len s
  | .chunkAppended flashOk => Sys2Proof.Machine.execChunkAppended flashOk s
  | .verify w => Sys2Proof.Machine.execVerify w s
  | .verifyComplete => Sys2Proof.Machine.execVerifyComplete s
  | .disarm w => Sys2Proof.Machine.execDisarm w s
  | .erase w => Sys2Proof.Machine.execErase w s
  | .commitPoint line => Sys2Proof.Machine.execCommitPoint line s
  | .roleRecordWrite => Sys2Proof.Machine.execRoleRecordWrite s
  | .probationEnd => Sys2Proof.Machine.execProbationEnd s
  | .sesswaitExpiry => Sys2Proof.Machine.execSesswaitExpiry s
  | .returnPkg => Sys2Proof.Machine.execReturnPkg s
  | .manualReturn => Sys2Proof.Machine.execManualReturn s
  | .lateBell lag l => Sys2Proof.Machine.execLateBell lag l s
  | .bellMissed c => Sys2Proof.Machine.execBellMissed c s
  | .frameAttempt c t => Sys2Proof.Machine.execFrameAttempt c t s
  | .oneShotExpiry c idx => Sys2Proof.Machine.execOneShotExpiry c idx s
  | .timedOutputMissed handle => Sys2Proof.Machine.execTimedOutputMissed handle s
  | .txdTimeout c => Sys2Proof.Machine.execTxdTimeout c s
  | .frameReception c f => Sys2Proof.Machine.execFrameReception c f s
  | .framePlacement c => Sys2Proof.Machine.execFramePlacement c s
  | .transmitCopy c idx => Sys2Proof.Machine.execTransmitCopy c idx s
  | .tickBoundWork c => Sys2Proof.Machine.execTickBoundWork c s
  | .push w c idx => Sys2Proof.Machine.execPush w c idx s
  | .abort w c idx => Sys2Proof.Machine.execAbort w c idx s
  | .abortAll w c => Sys2Proof.Machine.execAbortAll w c s
  | .rxrel w c idx count => Sys2Proof.Machine.execRxrel w c idx count s
  | .pfpop w h count => Sys2Proof.Machine.execPfpop w h count s
  | .boctlRestart w c => Sys2Proof.Machine.execBoctlRestart w c s
  | .rclr w c => Sys2Proof.Machine.execRclr w c s
  | .busOffRecovery c => Sys2Proof.Machine.execBusOffRecovery c s
  | .recessiveBitsSampled c => Sys2Proof.Machine.execRecessiveBitsSampled c s
  | .stuckDom c => Sys2Proof.Machine.execStuckDom c s
  | .stuckEnd c durUs => Sys2Proof.Machine.execStuckEnd c durUs s
  | .autoUnfence c a => Sys2Proof.Machine.execAutoUnfence c a s
  | .lockstepMismatch m port chInHam => Sys2Proof.Machine.execLockstepMismatch m port chInHam s
  | .migrateGo w h => Sys2Proof.Machine.execMigrateGo w h s
  | .migrationComplete h durNs => Sys2Proof.Machine.execMigrationComplete h durNs s
  | .hamMigtime h => Sys2Proof.Machine.execHamMigtime h s
  | .hamCtxmem h => Sys2Proof.Machine.execHamCtxmem h s
  | .bistStart w m => Sys2Proof.Machine.execBistStart w m s
  | .bistComplete m pass => Sys2Proof.Machine.execBistComplete m pass s
  | .epochChangeStart c key => Sys2Proof.Machine.execEpochChangeStart c key s
  | .keyLifeExpiry c => Sys2Proof.Machine.execKeyLifeExpiry c s
  | .keyUseCheck c => Sys2Proof.Machine.execKeyUseCheck c s
  | .keyGen c => Sys2Proof.Machine.execKeyGen c s
  | .epochDeadline c => Sys2Proof.Machine.execEpochDeadline c s
  | .oldKeyErase c => Sys2Proof.Machine.execOldKeyErase c s
  | .keyFramePush c a idx => Sys2Proof.Machine.execKeyFramePush c a idx s
  | .servicesTickWork => Sys2Proof.Machine.execServicesTickWork s
  | .timedOutputRequest w ses w7 => Sys2Proof.Machine.execTimedOutputRequest w ses w7 s
  | .tocan w val => Sys2Proof.Machine.execTocan w val s
  | .soerel w count => Sys2Proof.Machine.execSoerel w count s
  | .swdb w src => Sys2Proof.Machine.execSwdb w src s
  | .sourceMask w n en => Sys2Proof.Machine.execSourceMask w n en s
  | .delivery n => Sys2Proof.Machine.execDelivery n s
  | .claim w t src tag => Sys2Proof.Machine.execClaim w t src tag s
  | .complete w t src => Sys2Proof.Machine.execComplete w t src s
  | .retraction t => Sys2Proof.Machine.execRetraction t s
  | .coalescingRelease g => Sys2Proof.Machine.execCoalescingRelease g s
  | .gateCommit w => Sys2Proof.Machine.execGateCommit w s
  | .gateDrainComplete => Sys2Proof.Machine.execGateDrainComplete s
  | .bslackRestart w => Sys2Proof.Machine.execBslackRestart w s
  | .devTickloRead w => Sys2Proof.Machine.execDevTickloRead w s
  | .timeNowloRead w => Sys2Proof.Machine.execTimeNowloRead w s
  | .sync x m => Sys2Proof.Machine.execSync x m s
  | .announce x gm utc => Sys2Proof.Machine.execAnnounce x gm utc s
  | .pdelayReq x => Sys2Proof.Machine.execPdelayReq x s
  | .pdelaySend x => Sys2Proof.Machine.execPdelaySend x s
  | .syncTimeout x why => Sys2Proof.Machine.execSyncTimeout x why s
  | .timeHoldlim => Sys2Proof.Machine.execTimeHoldlim s
  | .curfewCall c => Sys2Proof.Machine.execCurfewCall c s
  | .curfewCommit c => Sys2Proof.Machine.execCurfewCommit c s
  | .sleep c => Sys2Proof.Machine.execSleep c s
  | .wakePattern c => Sys2Proof.Machine.execWakePattern c s
  | .falseWake c => Sys2Proof.Machine.execFalseWake c s
  | .curctlWake w c => Sys2Proof.Machine.execCurctlWake w c s
  | .vetoSet w c => Sys2Proof.Machine.execVetoSet w c s
  | .vetoClear w c => Sys2Proof.Machine.execVetoClear w c s
  | .vigilEntry => Sys2Proof.Machine.execVigilEntry s
  | .vigilExit v restoreOk st => Sys2Proof.Machine.execVigilExit v restoreOk st s
  | .hbSend => Sys2Proof.Machine.execHbSend s
  | .hbReceived f => Sys2Proof.Machine.execHbReceived f s
  | .hbMissed => Sys2Proof.Machine.execHbMissed s
  | .takeover => Sys2Proof.Machine.execTakeover s
  | .abdicateFrame => Sys2Proof.Machine.execAbdicateFrame s
  | .abdicate w => Sys2Proof.Machine.execAbdicate w s
  | .startTimeout => Sys2Proof.Machine.execStartTimeout s
  | .twinLinkUp => Sys2Proof.Machine.execTwinLinkUp s
  | .pair m => Sys2Proof.Machine.execPair m s
  | .delta m => Sys2Proof.Machine.execDelta m s
  | .bulk m => Sys2Proof.Machine.execBulk m s
  | .twinRekey => Sys2Proof.Machine.execTwinRekey s
  | .joinTimeout => Sys2Proof.Machine.execJoinTimeout s
  | .uplinkFrameDiscard x k => Sys2Proof.Machine.execUplinkFrameDiscard x k s
  | .unknownOp u op => Sys2Proof.Machine.execUnknownOp u op s
  | .sessionLivenessLost ses => Sys2Proof.Machine.execSessionLivenessLost ses s
  | .pdelayResp x mld ratioPpm => Sys2Proof.Machine.execPdelayResp x mld ratioPpm s
  | .holdCharged capUf => Sys2Proof.Machine.execHoldCharged capUf s
  | .inputValid x => Sys2Proof.Machine.execInputValid x s
  | .railReturn r => Sys2Proof.Machine.execRailReturn r s
  | .debugPortClose => Sys2Proof.Machine.execDebugPortClose s
  | .twinLinkDown => Sys2Proof.Machine.execTwinLinkDown s
  | .headshipLow => Sys2Proof.Machine.execHeadshipLow s
  | .vigilEntryComplete => Sys2Proof.Machine.execVigilEntryComplete s

end Sys2Proof.Machine
end

