-- ==== Sys2Proof/Safety.lean ====
section
/-! DEFINITION. What counts as a safe run: a run none of whose steps is refused or stopped; and the terms in which the
claims are stated: an access that the gates admit, the commands that act on a part without power, what a fuse can do. -/

namespace Sys2Proof.Machine

open Sys2Proof

/-- The step answers a next state. -/
def Completes (s : State) : Prop := ∃ t, step s = .next t

/-- The state with the part changed. -/
def State.put (s : State) (d : Dev) : State := { s with dev := d }

/-- Initiator `w` may make the access of type `ty` (0 R, 1 W) to the word at `a`, with the words `vals` of a write: the part
has power, is not in vigil, no table commit holds the address, no check of R431 fails, and the words ask for no push outside the
session's scope (R130). -/
def Admits (s : State) (w : Who) (ty a : Nat) (vals : List Nat) : Prop :=
  s.dev.powered = true ∧ s.dev.get DEV_VIGSTAT_STATE ≠ 2 ∧ heldByDrain s.dev a 4 = false
    ∧ gateCheck s.dev w ty a 4 vals = none
    ∧ ∀ n, w = .session n → (vals.zipIdx.map (fun x => (a + 4 * x.2, x.1))).findSome? (badPush s.dev n) = none

/-- A URT message that the part takes and carries out at once (R46, R58, R271): its uplink is up, MACsec takes it, it is the first copy, it is valid in its
session, and the part is not in vigil. -/
def UrtTaken (s : State) (u : UrtHdr) : Prop :=
  s.dev.powered = true ∧ s.dev.get DEV_VIGSTAT_STATE ≠ 2 ∧ s.dev.upOk u.side.num = true
    ∧ (macsecTake s.dev u).isSome = true ∧ firstCopy s.dev u.mac u.prp = true ∧ urtValid s.dev u = true

/-- What goes out when a message of session `n` is sent in one frame (R57, R271): a copy on each uplink that is up, with the part's PRP
sequence number and the uplink's LAN identifier, under the association and packet number of the session on that uplink. -/
def copies (d : Dev) (n : Nat) (m : Out) : List Out :=
  (if d.upOk 0 = true then [.uplink .a d.prp 0xA (some (d.nextSa n 0)) m] else [])
    ++ (if d.upOk 1 = true then [.uplink .b d.prp 0xB (some (d.nextSa n 1)) m] else [])

/-- The commands of power and reset: they act on a part without power as well, or while the TAP holds it (R464, R488). -/
def powerCommand (c : Instr) : Bool :=
  match c with
  | .powerOnReset _ | .rstN _ | .tapInstruction _ _ | .thermalTrip | .thermalRecovery _ | .inputLost _ _
  | .lastGaspRecord | .holdExhausted | .inputReturn _ _ | .inputValid _ | .revert => true
  | _ => false

/-- What may happen to fuses (R259, R260, R262, R280): the variant and the stepping never change, nor do the identity keys once they have
been generated, the certified-mode fuse never heals, a programmed slot keeps its hash, and a revocation bit is never cleared. -/
def FusesBlow (o o' : Otp) : Prop :=
  o'.variant = o.variant ∧ o'.step = o.step ∧ (o.idPub ≠ [] → o'.idPriv = o.idPriv ∧ o'.idPub = o.idPub)
    ∧ (o.cert = true → o'.cert = true)
    ∧ ∀ k, ((o.slot k).prog = true → (o'.slot k).prog = true ∧ (o'.slot k).hash = (o.slot k).hash)
        ∧ ((o.slot k).revoked = true → (o'.slot k).revoked = true)

/-- The oldest queued operation is `r` with opcode `code`, the security subsystem runs it now, and no operation waits for a
commit point (R265, R275). -/
def OpReady (s : State) (r : OpReq) (rest : List OpReq) (code : Nat) : Prop :=
  s.dev.powered = true ∧ secWorks s.dev = true ∧ s.dev.sec.ops = r :: rest
    ∧ (∀ n, n < 8 → s.dev.get (PEN_OPSTAT_STATE n) ≠ 3) ∧ r.pennant.opcode = code

/-- The operation has passed every check of R264: it leaves the queue, and its sequence number is noted (R265). -/
def opTaken (s : State) (r : OpReq) (rest : List OpReq) : State :=
  s.put { s.dev with sec := { s.dev.sec with ops := rest },
                     flash := { s.dev.flash with opseq := putAt s.dev.flash.opseq r.pennant.auth r.pennant.seq } }

/-- The part with the operation of session `n` done (R275). -/
def opEnd (d : Dev) (n : Nat) : Dev := (opDone d n).inc PEN_CNT_OPS

/-- The rows that run an operation, with the opcode of each (R276). -/
def opCommands : List (Instr × Nat) :=
  [(.arm, 0x01), (.rollback, 0x02), (.enroll, 0x10), (.revoke, 0x11), (.rekey, 0x12), (.unfence, 0x13), (.release, 0x20),
   (.gate, 0x30), (.debug, 0x40), (.floor, 0x50), (.authrev, 0x51), (.authadd, 0x52), (.certify, 0x60)]

/-- Every register whose key is not listed reads as before, and nothing of the part but registers has changed. -/
def OnlyRegs (ks : List Nat) (d e : Dev) : Prop := (∀ k, k ∉ ks → e.getW k = d.getW k) ∧ { e with regs := d.regs } = d

/-- Every register whose key is not listed reads as before, and nothing of the part but registers and channel `c` has changed. -/
def OnlyChan (ks : List Nat) (c : Nat) (d e : Dev) : Prop :=
  (∀ k, k ∉ ks → e.getW k = d.getW k) ∧ (∀ b, b ≠ c → e.chan b = d.chan b) ∧ { e with regs := d.regs, chans := d.chans } = d

end Sys2Proof.Machine
end

