-- ==== Sys2Proof/Certificates/Slice0/Obligations.lean ====
section
/-! DEFINITION. The statements for the provers: what the commands do, family by family, and what holds of every step.
`State.put` gives the state with the part changed and all else as it was. -/

open Sys2Proof Sys2Proof.Machine


/-! ## The machine as a whole -/

/-- A step with a command at the front of the queue is that command on the state with the queue's rest. On an empty queue
one cycle of the core clock passes (the model's choice: log entry 2): device time gains 2 ns x (1 + RATE x 2^-40), in units
of 2^-48 ns (R339), and nothing else changes. -/
def Obligations.StepRunsTheFrontCommand : Prop :=
  (∀ (s : State) (c : Instr) (rest : List Instr), s.pending = c :: rest → step s = exec c { s with pending := rest })
  ∧ (∀ s : State, s.pending = [] →
    step s = .next (s.put { s.dev with aon := { s.dev.aon with
      cycles := s.dev.aon.cycles + 1,
      time := ((s.dev.aon.time : Int) + 2 * 2 ^ 48 + s.dev.aon.rate * 2 ^ 9).toNat } }))

/-- Every command answers a next state, whatever the state, and leaves the queue to the step. -/
def Obligations.EveryCommandAnswersANextState : Prop :=
  ∀ (c : Instr) (s : State), ∃ t, exec c s = .next t ∧ t.pending = s.pending

/-- Reset, as the spec gives it: every register at the reset word of its table (R428, R429 for the gates), no package, no
session, no key in force, the tick number 0, no command waiting. -/
def Obligations.ResetStateAsTheTablesGiveIt : Prop :=
  State.reset.pending = [] ∧ (∀ k, State.reset.dev.getW k = resetWord State.reset.otp.variant k % 2 ^ 32)
    ∧ State.reset.dev.part = State.reset.otp.variant
    ∧ State.reset.dev.flash.active = none ∧ State.reset.dev.flash.previous = none ∧ State.reset.dev.flash.staged = none
    ∧ (∀ n, (State.reset.dev.ses n).st = .free) ∧ (∀ c, (State.reset.dev.chan c).cur = none)
    ∧ State.reset.dev.tick = 0 ∧ State.reset.dev.aon.set = false
    ∧ (∀ a, Memory.get State.reset.dev.mem a = memDefault a)

/-- The reset state meets the memory invariant, and its fuses stand in the relation that every step keeps. -/
def Obligations.ResetMeetsTheInvariants : Prop :=
  Memory.wf State.reset.dev.mem = true ∧ FusesBlow State.reset.otp State.reset.otp

/-- Whatever a step does, the memory keeps its canonical form: addresses rise, and no listed byte is the byte that an
unlisted address reads as. -/
def Obligations.EveryStepKeepsMemoryCanonical : Prop :=
  ∀ s t : State, step s = .next t → Memory.wf s.dev.mem = true → Memory.wf t.dev.mem = true

/-- Whatever a step does, fuses are only ever blown. -/
def Obligations.EveryStepOnlyBlowsFuses : Prop :=
  ∀ s t : State, step s = .next t → FusesBlow s.otp t.otp

/-- Without power, or while the TAP holds the part in reset, a command that is none of power and reset changes nothing (the
model's choice: log entry 1). -/
def Obligations.UnpoweredPartIgnoresOtherCommands : Prop :=
  ∀ (c : Instr) (s : State), powerCommand c = false → s.dev.powered = false → exec c s = .next s

/-! ## Power, resets and start-up -/

/-- A power-on reset with power good: the part starts from cleared state with the straps as sampled and device time not set;
the fuses stay, but for the identity keys that the first power generates (R244, R470, R471, R473). Without an input, or in a
thermal trip, nothing happens. -/
def Obligations.PowerOnResetStartsAfresh : Prop :=
  (∀ (s : State) (st : Straps), s.dev.pwr.tripped = false → (s.dev.pwr.inA = true ∨ s.dev.pwr.inB = true) →
    ∃ t, exec (.powerOnReset st) s = .next t ∧ t.otp = (firstPower s).otp ∧ (s.otp.idPub ≠ [] → t.otp = s.otp)
      ∧ t.pending = s.pending
      ∧ t.dev.straps = st ∧ t.dev.part = s.otp.variant ∧ t.dev.cert = s.otp.cert
      ∧ t.dev.aon = Aon.reset ∧ t.dev.powered = true ∧ t.dev.bell.started = false ∧ t.dev.tick = 0
      ∧ t.dev.get PWR_STAT_VAUXON = b2n st.vaux
      ∧ ((restartFlash s.dev.flash).active = none → (restartFlash s.dev.flash).previous = none →
          t.dev.get PWR_CFG_VAUXEN = b2n st.vaux ∧ t.dev.get CFG_STAT_NOPKG = 1))
  ∧ (∀ (s : State) (st : Straps), s.dev.pwr.tripped = true ∨ (s.dev.pwr.inA = false ∧ s.dev.pwr.inB = false) →
    exec (.powerOnReset st) s = .next s)

/-- What RST_N, a device reset that the gates admit, and the end of a TAP reset keep and record (R473, R488): fuses (but for
identity keys not generated yet, R244), device time, the rate in force until the restart's holdover takes the learned one,
and the cause. HIGHZ, and outside certified mode EXTEST and CLAMP, hold the part in reset as for RST_N; in certified mode
EXTEST and CLAMP act as BYPASS and change nothing (R488, R280). -/
def Obligations.RestartKeepsDeviceTime : Prop :=
  (∀ (s : State) (st : Straps), s.dev.powered = true →
    ∃ t, exec (.rstN st) s = .next t ∧ t.otp = (firstPower s).otp ∧ t.pending = s.pending ∧ t.dev.straps = st
      ∧ t.dev.aon.time = s.dev.aon.time ∧ t.dev.aon.set = s.dev.aon.set ∧ t.dev.aon.learned = s.dev.aon.learned
      ∧ t.dev.aon.cause = 1 ∧ t.dev.aon.timeKept = s.dev.aon.set ∧ t.dev.bell.started = false)
  ∧ (∀ (s : State) (w : Who) (v : Word) (st : Straps), Admits s w 1 (regAddr 0 0x04C) [v.toNat] →
      bitOf v.toNat 31 = true → bitsOf v.toNat 7 0 = 0xD5 →
    ∃ t, exec (.deviceReset w v st) s = .next t ∧ t.otp = (firstPower s).otp ∧ t.pending = s.pending ∧ t.dev.straps = st
      ∧ t.dev.aon.time = s.dev.aon.time ∧ t.dev.aon.set = s.dev.aon.set ∧ t.dev.aon.cause = 2)
  ∧ (∀ (s : State) (w : Who) (v : Word) (st : Straps), Admits s w 1 (regAddr 0 0x04C) [v.toNat] →
      ¬ (bitOf v.toNat 31 = true ∧ bitsOf v.toNat 7 0 = 0xD5) → exec (.deviceReset w v st) s = .next s)
  ∧ (∀ (s : State) (i : TapOp) (st : Straps), s.dev.pwr.off = false → s.dev.pwr.tapHold = true →
      (i = .bypass ∨ i = .idcode ∨ i = .sample ∨ i = .testLogicReset ∨ (s.dev.cert = true ∧ (i = .extest ∨ i = .clamp))) →
    ∃ t, exec (.tapInstruction i st) s = .next t ∧ t.otp = (firstPower s).otp ∧ t.dev.straps = st
      ∧ t.dev.pwr.tapHold = false ∧ t.dev.aon.time = s.dev.aon.time ∧ t.dev.aon.cause = 1)
  ∧ (∀ (s : State) (i : TapOp) (st : Straps), s.dev.powered = true →
      (i = .highz ∨ (s.dev.cert = false ∧ (i = .extest ∨ i = .clamp))) →
    ∃ t, exec (.tapInstruction i st) s = .next t ∧ t.otp = s.otp ∧ t.pending = s.pending
      ∧ t.dev.pwr.tapHold = true ∧ t.dev.powered = false
      ∧ t.dev.aon.time = s.dev.aon.time ∧ t.dev.aon.set = s.dev.aon.set ∧ t.dev.aon.cause = 1 ∧ t.dev.tick = 0)
  ∧ (∀ (s : State) (i : TapOp) (st : Straps), s.dev.powered = true →
      (i = .bypass ∨ i = .idcode ∨ i = .sample ∨ i = .testLogicReset ∨ (s.dev.cert = true ∧ (i = .extest ∨ i = .clamp))) →
    exec (.tapInstruction i st) s = .next s)

/-- A thermal trip, and HOLD exhausted in last gasp, take every rail away: the part has no power, device time is lost, and
the fuses stay (R479, R464 step 4). The trip's recovery is a power-on reset (R479). -/
def Obligations.RailsOffAndThermalRecovery : Prop :=
  (∀ s : State, s.dev.pwr.off = false →
    ∃ t, exec .thermalTrip s = .next t ∧ t.otp = s.otp ∧ t.pending = s.pending ∧ t.dev.powered = false
      ∧ t.dev.pwr.tripped = true ∧ t.dev.aon = Aon.reset ∧ t.dev.pwr.src = 0)
  ∧ (∀ s : State, s.dev.pwr.gasp = true →
    ∃ t, exec .holdExhausted s = .next t ∧ t.otp = s.otp ∧ t.pending = s.pending ∧ t.dev.powered = false
      ∧ t.dev.pwr.gasp = false ∧ t.dev.aon = Aon.reset)
  ∧ (∀ (s : State) (st : Straps), s.dev.pwr.tripped = true → (s.dev.pwr.inA = true ∨ s.dev.pwr.inB = true) →
    ∃ t, exec (.thermalRecovery st) s = .next t ∧ t.otp = (firstPower s).otp ∧ t.pending = s.pending ∧ t.dev.powered = true
      ∧ t.dev.pwr.tripped = false ∧ t.dev.straps = st ∧ t.dev.aon = Aon.reset)

/-- An input is lost (R460, R464): the input in use with the other present switches over, counts SWITCH and raises
SUPPLY_LOST; the backup alone raises BACKUP_LOST; the last one starts last gasp, which switches VAUX off and raises
SUPPLY_NONE. An input that is back is present again; with REVERT = 1 the load returns to the strapped main input, which
counts REVERTS and raises no fault (R461). -/
def Obligations.InputsSwitchOverGaspAndRevert : Prop :=
  (∀ s : State, s.dev.powered = true → s.dev.pwr.gasp = false → s.dev.pwr.inA = true → s.dev.pwr.inB = true →
      s.dev.pwr.src = 1 →
    exec (.inputLost true false) s = .next (s.put
      (raise (((s.dev.modPwr (fun p => { p with inA := false, src := 2 })).inc PWR_CNT_SWITCH).ist 0x08 0) 0x08 0)))
  ∧ (∀ s : State, s.dev.powered = true → s.dev.pwr.gasp = false → s.dev.pwr.inA = true → s.dev.pwr.inB = true →
      s.dev.pwr.src = 2 →
    exec (.inputLost false true) s = .next (s.put
      (raise (((s.dev.modPwr (fun p => { p with inB := false, src := 1 })).inc PWR_CNT_SWITCH).ist 0x08 0) 0x08 0)))
  ∧ (∀ s : State, s.dev.powered = true → s.dev.pwr.gasp = false → s.dev.pwr.inA = true → s.dev.pwr.inB = true →
      s.dev.pwr.src = 1 →
    exec (.inputLost false true) s = .next (s.put
      (raise ((s.dev.modPwr (fun p => { p with inB := false })).inc PWR_CNT_BACKLOST) 0x08 1)))
  ∧ (∀ (s : State) (a b : Bool), s.dev.powered = true → s.dev.pwr.gasp = false →
      ((a = true ∧ s.dev.pwr.inA = true) ∨ (b = true ∧ s.dev.pwr.inB = true)) →
      (s.dev.pwr.inA = true → a = true) → (s.dev.pwr.inB = true → b = true) →
    exec (.inputLost a b) s = .next (s.put (raise
      ((({ s.dev with
            pwr := { s.dev.pwr with inA := false, inB := false, gasp := true, recorded := false, returned := none, src := 0,
                                    lgAt := (s.dev.tick % 2 ^ 32, s.dev.nowSec % 2 ^ 32, s.dev.nowSub) },
            flash := { s.dev.flash with lgrec := [] } }).set PWR_STAT_VAUXON 0).ist 0x08 2) 0x08 2)))
  ∧ (∀ (s : State) (x : Side), s.dev.pwr.gasp = false →
    exec (.inputValid x) s = .next (s.put (s.dev.modPwr (fun p => p.put x true))))
  ∧ (∀ s : State, s.dev.pwr.off = false → s.dev.pwr.gasp = false → s.dev.get PWR_CFG_REVERT = 1 →
      s.dev.pwr.has (mainInput s.dev.straps) = true → s.dev.pwr.src ≠ (mainInput s.dev.straps).num + 1 →
    exec .revert s = .next (s.put
      (((s.dev.modPwr (fun p => { p with src := (mainInput s.dev.straps).num + 1 })).inc PWR_CNT_REVERTS).ist 0x08 1)))
  ∧ (∀ s : State, s.dev.get PWR_CFG_REVERT = 0 → exec .revert s = .next s)

/-- Last gasp runs to its record, whose words R467 gives; an input that returns after it restarts the part as RST_N with
cause 4 and device time kept, one that returns before it waits for it (R464 step 3, R466). -/
def Obligations.LastGaspRecordAndReturn : Prop :=
  (∀ s : State, s.dev.powered = true → s.dev.pwr.gasp = true → s.dev.pwr.recorded = false → s.dev.pwr.returned = none →
    ∃ t, exec .lastGaspRecord s = .next t ∧ t.otp = s.otp ∧ t.pending = s.pending
      ∧ t.dev.flash = { s.dev.flash with lgrec := gaspRecord s.dev }
      ∧ t.dev.pwr = { s.dev.pwr with recorded := true }
      ∧ (∀ k, k ≠ UPL_TXCNT 0 → k ≠ UPL_TXCNT 1 → t.dev.getW k = s.dev.getW k) ∧ t.dev.mem = s.dev.mem)
  ∧ (∀ (s : State) (x : Side) (st : Straps), s.dev.powered = true → s.dev.pwr.gasp = true → s.dev.pwr.recorded = true →
    ∃ t, exec (.inputReturn x st) s = .next t ∧ t.otp = (firstPower s).otp ∧ t.pending = s.pending ∧ t.dev.straps = st
      ∧ t.dev.pwr.has x = true ∧ t.dev.pwr.gasp = false ∧ t.dev.aon.time = s.dev.aon.time ∧ t.dev.aon.cause = 4)
  ∧ (∀ (s : State) (x : Side) (st : Straps), s.dev.powered = true → s.dev.pwr.gasp = true → s.dev.pwr.recorded = false →
    exec (.inputReturn x st) s = .next (s.put (s.dev.modPwr (fun p => { p.put x true with returned := some st }))))

/-- HOLD, VAUX and the rails (R463, R468, R494): the status bits, the counters, the faults raised and the conditions ended. -/
def Obligations.HoldVauxAndRails : Prop :=
  (∀ (s : State) (cap : Nat), s.dev.powered = true →
    exec (.holdLow cap) s = .next (s.put
      (raise ((s.dev.set PWR_STAT_HOLDOK 0).set PWR_HOLD_CAP (min cap 65535)) 0x08 3)))
  ∧ (∀ (s : State) (cap : Nat), s.dev.powered = true → 200 ≤ cap →
    exec (.holdCharged cap) s = .next (s.put
      (condEnd ((s.dev.set PWR_STAT_HOLDOK 1).set PWR_HOLD_CAP (min cap 65535)) 0x08 3)))
  ∧ (∀ s : State, s.dev.powered = true → s.dev.get PWR_STAT_VAUXON = 1 →
    exec .vauxOc s = .next (s.put
      (raise ((((s.dev.set PWR_STAT_VAUXON 0).set PWR_STAT_VAUXOC 1).ist 0x08 3).inc PWR_CNT_VAUXOC) 0x08 4)))
  ∧ (∀ s : State, s.dev.powered = true → s.dev.get PWR_CFG_VAUXEN = 1 → s.dev.get PWR_STAT_VAUXON = 0 →
      s.dev.pwr.gasp = false →
    exec .vauxRetry s = .next (s.put (condEnd (s.dev.set PWR_STAT_VAUXON 1) 0x08 4)))
  ∧ (∀ (s : State) (w : Who) (on : Bool),
      Admits s w 1 (regAddr 8 0x044) [putBit (s.dev.pendingW PWR_CFG) 30 on] → s.dev.pwr.gasp = false →
      s.dev.get PWR_CFG_VAUXEN ≠ b2n on →
    ∃ t, exec (.vauxSwitch w on) s = .next t ∧ t.otp = s.otp ∧ t.pending = s.pending
      ∧ t.dev.get PWR_CFG_VAUXEN = b2n on ∧ t.dev.get PWR_STAT_VAUXON = b2n on ∧ t.dev.mem = s.dev.mem)
  ∧ (∀ (s : State) (r : Nat), s.dev.powered = true → r < 6 →
    exec (.railDev r) s = .next (s.put (raise (s.dev.set (PWR_RAIL_INREG r) 0) 0x08 5)))
  ∧ (∀ (s : State) (r : Nat), s.dev.powered = true → r < 6 → (∀ q, q < 6 → q ≠ r → s.dev.get (PWR_RAIL_INREG q) = 1) →
    exec (.railReturn r) s = .next (s.put (condEnd (s.dev.set (PWR_RAIL_INREG r) 1) 0x08 5)))

/-! ## Register pages and faults -/

/-- A write of PG_CTL that the gates admit: EN takes the value, FREEZE stays, and a channel that is enabled waits under R105
in the state AWAKE, after the 70 us of R119 (R105); FREEZE takes the value and EN stays; SRST is the block soft reset
(R409). Memory stays. What FREEZE holds (R7): while a page is frozen, a read returns its read-only fields as they were at
the freeze, and every other field as it is. -/
def Obligations.HeaderControlWrites : Prop :=
  (∀ (s : State) (w : Who) (p : Nat) (en : Bool), populated s.dev.part p = true →
      Admits s w 1 (regAddr p 0x004) [ctlWith s.dev p 0 en] →
    ∃ t, exec (.blockEnable w p en) s = .next t ∧ t.otp = s.otp ∧ t.pending = s.pending ∧ t.dev.mem = s.dev.mem
      ∧ t.dev.get (PG_CTL_EN p) = b2n en ∧ t.dev.get (PG_CTL_FREEZE p) = s.dev.get (PG_CTL_FREEZE p)
      ∧ (∀ k, k ≠ PG_CTL p → k ≠ CHC_CURSTAT (pageChan p) → t.dev.getW k = s.dev.getW k)
      ∧ (en = true → s.dev.get (PG_CTL_EN p) = 0 → 0x100 ≤ p → p % 4 = 0 → pageChan p < s.dev.chans.length →
          t.dev.get (CHC_CURSTAT_STATE (pageChan p)) = 0 ∧ (t.dev.chan (pageChan p)).await = true
            ∧ (t.dev.chan (pageChan p)).awaitNs = s.dev.nowNs + 70000))
  ∧ (∀ (s : State) (w : Who) (p : Nat) (on : Bool), populated s.dev.part p = true →
      Admits s w 1 (regAddr p 0x004) [ctlWith s.dev p 2 on] →
    ∃ t, exec (.freeze w p on) s = .next t ∧ t.otp = s.otp ∧ t.pending = s.pending ∧ t.dev.mem = s.dev.mem
      ∧ t.dev.chans = s.dev.chans
      ∧ t.dev.get (PG_CTL_FREEZE p) = b2n on ∧ t.dev.get (PG_CTL_EN p) = s.dev.get (PG_CTL_EN p)
      ∧ (∀ k, k ≠ PG_CTL p → t.dev.getW k = s.dev.getW k)
      ∧ (on = false → findKey p t.dev.frozen = none)
      ∧ (on = true → s.dev.get (PG_CTL_FREEZE p) = 0 → findKey p t.dev.frozen = some (snapshot s.otp (s.dev.setB (PG_CTL_FREEZE p) true) p)))
  ∧ (∀ (s : State) (w : Who) (p : Nat), populated s.dev.part p = true →
      Admits s w 1 (regAddr p 0x004) [ctlWith s.dev p 1 true] → s.dev.get (PG_ESC_SHADOW p) ≠ 0 → s.dev.page p = PageX.reset →
    ∃ t, exec (.blockSoftReset w p) s = .next t ∧ t.otp = s.otp ∧ t.pending = s.pending ∧ t.dev.mem = s.dev.mem
      ∧ t.dev.get (PG_CTL_EN p) = s.dev.get (PG_CTL_EN p)
      ∧ (t.dev.page p).shadow = some s.dev.aon.cycles ∧ (t.dev.page p).shadowLast = s.dev.aon.cycles
      ∧ (t.dev.page p).resetting = true ∧ t.dev.running p = false)
  ∧ (∀ (o : Otp) (d : Dev) (p off : Nat) (r : RegRow) (l : List (Nat × Word)) (w : Word) (i : Nat), i < 32 →
    findKey p d.frozen = some l → regRow p off = some r → findKey (rkey p off) l = some w →
    bitOf (viewW o d p off) i =
      if bitOf (rowMask r (fun f => f.1 == .ro)) i = true then bitOf w.toNat i else bitOf (viewLive o d p off) i)

/-- PG_IFRC sets the status bits that it names and PG_FFRC raises the sources that it names, in rising order (R7, R415);
PG_FACK clears the record, stops the timer and, in the gate page, clears the violation record (R404, R408, R439). -/
def Obligations.HeaderForceAndAck : Prop :=
  (∀ (s : State) (w : Who) (p : Nat) (bits : Word), populated s.dev.part p = true →
      Admits s w 1 (regAddr p 0x018) [bits.toNat] →
    exec (.interruptForce w p bits) s = .next (s.put (s.dev.setW (PG_IST p) (s.dev.getW (PG_IST p) ||| bits.toNat))))
  ∧ (∀ (s : State) (w : Who) (p : Nat) (bits : Word), populated s.dev.part p = true →
      Admits s w 1 (regAddr p 0x024) [bits.toNat] →
    exec (.faultForce w p bits) s = .next (s.put
      (s.dev.forEach ((List.range 32).filter (bitOf bits.toNat)) (fun d n => raiseForced d p n))))
  ∧ (∀ (s : State) (w : Who) (p : Nat), populated s.dev.part p = true → Admits s w 1 (regAddr p 0x028) [1] →
    ∃ t, exec (.faultAck w p) s = .next t ∧ t.otp = s.otp ∧ t.pending = s.pending ∧ t.dev.mem = s.dev.mem
      ∧ t.dev.getW (PG_FLT p) = 0 ∧ t.dev.getW (PG_FLTX p) = 0 ∧ (t.dev.page p).timer = none
      ∧ (t.dev.page p).held = (s.dev.page p).live ∧ (t.dev.page p).level = (s.dev.page p).level
      ∧ (p = 0x40 → t.dev.getW GATE_VADDR = 0 ∧ t.dev.getW GATE_VBYTE = 0 ∧ t.dev.getW GATE_VINFO = 0)
      ∧ (∀ k, k ≠ PG_FLT p → k ≠ PG_FLTX p → (p = 0x40 → k ∉ [GATE_VADDR, GATE_VBYTE, GATE_VINFO]) →
          t.dev.getW k = s.dev.getW k)
      ∧ (∀ q, q ≠ p → t.dev.page q = s.dev.page q))

/-- A fault that is detected while PG_FLT.VALID = 0 is recorded as the first cause, with its code, severity, shadow cause
and PG_IST.FLT; TRANSIENT is 1 at once for an event (R402, R412, R494). When a fault is detected while VALID = 1,
PG_FLTX.COUNT rises by one, MAXSEV takes the higher severity, and PG_FLT does not change (R403). -/
def Obligations.FirstCauseIsRecorded : Prop :=
  (∀ (d : Dev) (p n code sev : Nat) (forced : Bool), faultOf p n = some (code, sev) → populated d.part p = true →
    d.get (PG_FLT_VALID p) = 0 →
    let e := (recordFault d p n code sev forced).1
    e.get (PG_FLT_VALID p) = 1 ∧ e.get (PG_FLT_CODE p) = code ∧ e.get (PG_FLT_SEV p) = sev
      ∧ e.get (PG_FLT_SECONDARY p) = b2n (shadowCause d p).isSome
      ∧ e.get (PG_FLT_CAUSE p) = (shadowCause d p).getD 0 % 512
      ∧ e.get (PG_FLT_TRANSIENT p) = b2n (!(isState p n && !forced))
      ∧ e.bit (PG_IST p) 31 = true ∧ e.getW (PG_FLTX p) = d.getW (PG_FLTX p) ∧ e.mem = d.mem)
  ∧ (∀ (d : Dev) (p n code sev : Nat) (forced : Bool), faultOf p n = some (code, sev) → d.get (PG_FLT_VALID p) ≠ 0 →
    let e := (recordFault d p n code sev forced).1
    e.get (PG_FLTX_COUNT p) = min (d.get (PG_FLTX_COUNT p) + 1) 65535
      ∧ e.get (PG_FLTX_MAXSEV p) = max (d.get (PG_FLTX_MAXSEV p)) sev
      ∧ e.getW (PG_FLT p) = d.getW (PG_FLT p) ∧ e.getW (PG_IST p) = d.getW (PG_IST p) ∧ e.mem = d.mem)

/-- The escalation timer (R407): a fault starts it when none runs, a fault of the source that last set it leaves it, one of
higher severity than all recorded takes the shorter of the remaining and its own time, any other leaves it. -/
def Obligations.EscalationTimerRule : Prop :=
  ∀ (d : Dev) (p n sev before : Nat),
    let own := d.aon.cycles + 500 * ownTime sev (d.get (PG_ESC_TIME p))
    let e := setTimer d p n sev before
    ((d.page p).timer = none → (e.page p).timer = some own ∧ (e.page p).timerSrc = n)
      ∧ (∀ t, (d.page p).timer = some t → n = (d.page p).timerSrc → e.page p = d.page p)
      ∧ (∀ t, (d.page p).timer = some t → n ≠ (d.page p).timerSrc → before < sev →
          (e.page p).timer = some (min t own) ∧ (e.page p).timerSrc = n)
      ∧ (∀ t, (d.page p).timer = some t → n ≠ (d.page p).timerSrc → sev ≤ before → e.page p = d.page p)
      ∧ (∀ q, q ≠ p → e.page q = d.page q) ∧ e.regs = d.regs ∧ e.mem = d.mem

/-- Expiry of the escalation timer is the level 1 reaction, a block soft reset (R408, R409): the shadow opens at the expiry,
a quiet period is due, and the reaction is counted and shown. A page without a running timer, or with LIMIT = 0, takes none. -/
def Obligations.TimerExpiryIsTheLevelOneReaction : Prop :=
  (∀ (s : State) (p n : Nat), s.dev.powered = true → (s.dev.page p).timer = some n →
      s.dev.get (PG_ESC_LIMIT p) ≠ 0 → (s.dev.page p).latched = false → (s.dev.page p).shadow = none →
      s.dev.get (PG_ESC_SHADOW p) ≠ 0 →
    ∃ t, exec (.escalationTimerExpiry p) s = .next t ∧ t.otp = s.otp ∧ t.pending = s.pending ∧ t.dev.mem = s.dev.mem
      ∧ t.dev.aon = s.dev.aon.pass (n - s.dev.aon.cycles)
      ∧ (t.dev.page p).timer = none ∧ (t.dev.page p).level = 1 ∧ (t.dev.page p).resetting = true
      ∧ (t.dev.page p).shadow = some t.dev.aon.cycles ∧ (t.dev.page p).quietDue = 1
      ∧ t.dev.get DEV_ESCCNT_L1 = min (s.dev.get DEV_ESCCNT_L1 + 1) (fldTop DEV_ESCCNT_L1)
      ∧ t.dev.get DEV_ESCLAST_ACTION = 1 ∧ t.dev.get DEV_ESCLAST_PAGE = p % 512)
  ∧ (∀ (s : State) (p : Nat), (s.dev.page p).timer = none → exec (.escalationTimerExpiry p) s = .next s)
  ∧ (∀ (s : State) (p n : Nat), s.dev.powered = true → (s.dev.page p).timer = some n → s.dev.get (PG_ESC_LIMIT p) = 0 →
    exec (.escalationTimerExpiry p) s = .next (s.put
      ((s.dev.pass (n - s.dev.aon.cycles)).modPage p (fun x => { x with timer := none }))))

/-- The ends of a shadow, of a quiet period and of a pulse (R410 to R413, R417). A soft reset of a CHC page ends in the wait
of R119; after the level 1 reaction the shadow's end starts the quiet period of QUIET ticks; a quiet period that ends makes
the page recover, and it latches off when RCNT exceeds RLIM. -/
def Obligations.ShadowQuietAndPulseEnds : Prop :=
  (∀ (s : State) (p n : Nat), s.dev.powered = true → (s.dev.page p).shadow = some n → (s.dev.page p).quietDue ≠ 1 →
    let e := s.dev.pass ((s.dev.page p).shadowLast + 500 * s.dev.get (PG_ESC_SHADOW p) - s.dev.aon.cycles)
    let e := if 0x100 ≤ p ∧ p % 4 = 0 ∧ (s.dev.page p).resetting = true then
        e.modChan (pageChan p) (fun x => { x with await := true, awaitNs := e.nowNs + 70000 }) else e
    exec (.shadowEnd p) s = .next (s.put
      (e.modPage p (fun x => { x with shadow := none, resetting := false, cover := none }))))
  ∧ (∀ (s : State) (p n : Nat), s.dev.powered = true → (s.dev.page p).shadow = some n → (s.dev.page p).quietDue = 1 →
      s.dev.get (PG_QUIET_QUIET p) ≠ 0 →
    let e := s.dev.pass ((s.dev.page p).shadowLast + 500 * s.dev.get (PG_ESC_SHADOW p) - s.dev.aon.cycles)
    let e := if 0x100 ≤ p ∧ p % 4 = 0 ∧ (s.dev.page p).resetting = true then
        e.modChan (pageChan p) (fun x => { x with await := true, awaitNs := e.nowNs + 70000 }) else e
    exec (.shadowEnd p) s = .next (s.put
      (e.setPage p
        { s.dev.page p with shadow := none, resetting := false, cover := none, quietDue := 0,
                            quiet := some (s.dev.tick + s.dev.get (PG_QUIET_QUIET p)) })))
  ∧ (∀ (s : State) (p n : Nat), s.dev.powered = true → (s.dev.page p).quiet = some n → n ≤ s.dev.tick →
      (p < 0x80 ∨ 0x90 ≤ p) → s.dev.get (PG_RCNT_COUNT p) < s.dev.get (PG_QUIET_RLIM p) →
    ∃ t, exec (.quietPeriodEnd p) s = .next t ∧ t.otp = s.otp ∧ t.pending = s.pending ∧ t.dev.mem = s.dev.mem
      ∧ t.dev.page p = { s.dev.page p with level := 0, quiet := none, quietDue := 0 }
      ∧ t.dev.get (PG_RCNT_COUNT p) = min (s.dev.get (PG_RCNT_COUNT p) + 1) 255
      ∧ t.dev.get DEV_ESCLAST_ACTION = 4 ∧ t.dev.get DEV_ESCLAST_PAGE = p % 512
      ∧ (∀ k, k ≠ PG_RCNT p → k ≠ DEV_ESCLAST → t.dev.getW k = s.dev.getW k))
  ∧ (∀ (s : State) (p n : Nat), s.dev.powered = true → (s.dev.page p).quiet = some n → n ≤ s.dev.tick →
      (p < 0x80 ∨ 0x90 ≤ p) → s.dev.get (PG_QUIET_RLIM p) ≤ s.dev.get (PG_RCNT_COUNT p) → s.dev.get (PG_RCNT_COUNT p) < 255 →
    ∃ t, exec (.quietPeriodEnd p) s = .next t ∧ t.otp = s.otp ∧ t.pending = s.pending ∧ t.dev.mem = s.dev.mem
      ∧ (t.dev.page p).latched = true ∧ (t.dev.page p).quiet = none ∧ (t.dev.page p).timer = none
      ∧ t.dev.get (PG_RCNT_COUNT p) = s.dev.get (PG_RCNT_COUNT p) + 1 ∧ t.dev.bit (PG_IST 1) 1 = true
      ∧ t.dev.get DEV_ESCLAST_ACTION = 5)
  ∧ (∀ (s : State) (p n : Nat), (s.dev.page p).quiet = some n → s.dev.tick < n → exec (.quietPeriodEnd p) s = .next s)
  ∧ (∀ (s : State) (k : Nat), s.dev.powered = true → elemAt false s.dev.pins.pulse k = true →
    exec (.faultPinPulseEnd k) s = .next (s.put
      { s.dev.pass (elemAt 0 s.dev.pins.ends k - s.dev.aon.cycles) with
          pins := { s.dev.pins with pulse := putAt s.dev.pins.pulse k false } }))
  ∧ (∀ (s : State) (k : Nat), elemAt false s.dev.pins.pulse k = false → exec (.faultPinPulseEnd k) s = .next s)

/-- The safe state (R420): with nothing queued and no safe-output descriptors, entering it sets DEV_SAFE with the page and
the tick, PG_IST.SAFE and the count of level 3 reactions; a further entry changes nothing; and in step 4 the part abdicates
to a ready partner at the second commit point. While the safe state lasts, no initiator pushes: a push of a session, a
steward or the services leaves the queues as they are and ends with ST = BADDESC, without a fault (R420 step 2). -/
def Obligations.SafeStateEntryRefusalAndAbdication : Prop :=
  (∀ (d : Dev) (p : Nat), d.get DEV_SAFE_ACTIVE ≠ 1 → (∀ c, d.hasChan c = true → (d.chan c).tx = [] ∧ d.get (CHT_SAFE_CNT c) = 0) →
    enterSafe raise d p = ((d.setW DEV_SAFE (2 ^ 31 + p * 2 ^ 16 + d.tick16)).ist 1 2).inc DEV_ESCCNT_L3)
  ∧ (∀ (d : Dev) (p : Nat), d.get DEV_SAFE_ACTIVE = 1 → enterSafe raise d p = d)
  ∧ (∀ s : State, s.dev.powered = true → s.dev.get DEV_SAFE_ACTIVE = 1 → s.dev.get DEV_SAFE_ABD = 0 →
      s.dev.isHead = true → s.dev.get TWIN_STAT_LINK = 1 → s.dev.get TWIN_STAT_PREADY = 1 →
      2 ≤ (s.dev.tick16 + 65536 - s.dev.get DEV_SAFE_TICK) % 65536 →
    ∃ t, exec .safeStateAbdication s = .next t ∧ t.otp = s.otp ∧ t.pending = s.pending ∧ t.dev.mem = s.dev.mem
      ∧ t.dev.get TWIN_STAT_ROLE = 2 ∧ t.dev.isHead = false ∧ t.dev.get DEV_SAFE_ABD = 1 ∧ t.dev.get DEV_SAFE_ACTIVE = 1
      ∧ t.dev.get TWIN_CNT_ABDICATIONS = min (s.dev.get TWIN_CNT_ABDICATIONS + 1) (fldTop TWIN_CNT_ABDICATIONS)
      ∧ t.dev.bit (PG_IST 0x70) 1 = true ∧ t.dev.out = s.dev.out ++ [.twin s.dev.twin.seq .abdicateFrame]
      ∧ ((∀ c, s.dev.hasChan c = true → s.dev.get (CHC_CURSTAT_STATE c) = 0) → t.dev.chans = s.dev.chans))
  ∧ (∀ (d : Dev) (c i : Nat) (src : PushSrc), d.get DEV_SAFE_ACTIVE = 1 → src.safe = false → src.key = false →
    inRange d c i src.handle.isSome = true →
    let e := pushOp raise d c i src
    e.chans = d.chans ∧ e.regs = d.regs ∧ e.pages = d.pages
      ∧ bitsOf (e.desc i 3) 31 28 = 9
      ∧ (∀ a, ¬ (16 * i + 12 ≤ a ∧ a < 16 * i + 16) → Memory.get e.mem a = Memory.get d.mem a))

/-! ## The uplink register transport and the gates -/

/-- A valid URT message makes its session open and live (R46, R56, R269), and changes nothing else of the part but the
record of messages seen and four counters. A URT message outside a valid session, with another SESS than its association's,
or with VER ≠ 1 is discarded without a response and counted in DISC1.URT; a further copy within 400 ms is discarded and
counted in DISC1.DUP; one whose packet number or association number MACsec refuses is counted in DISC0.MACSEC (R46, R58,
R60, R271). Shown for PING; the other operations arrive by the same door. -/
def Obligations.ValidMessagesOnlyAreTaken : Prop :=
  (∀ (d : Dev) (u : UrtHdr), d.upOk u.side.num = true → (macsecTake d u).isSome = true → firstCopy d u.mac u.prp = true →
      urtValid d u = true →
      u.sess < d.sess.length →
    let r := urtArrive d u
    r.2 = true ∧ (r.1.ses u.sess).st = .opened ∧ (r.1.ses u.sess).live = true
      ∧ (∀ n, n ≠ u.sess → r.1.ses n = d.ses n)
      ∧ firstCopy r.1 u.mac u.prp = false ∧ r.1.lastMsg = d.aon.cycles ∧ r.1.out = d.out ∧ r.1.mem = d.mem
      ∧ r.1.pages = d.pages ∧ r.1.chans = d.chans
      ∧ (∀ k, k ∉ [UPL_RXCNT 0, UPL_RXCNT 1, PG_IST 0x28, PEN_CNT] → r.1.getW k = d.getW k))
  ∧ (∀ (s : State) (u : UrtHdr) (d : Dev), s.dev.powered = true → s.dev.upOk u.side.num = true → macsecTake s.dev u = some d →
      firstCopy s.dev u.mac u.prp = false →
    exec (.ping u) s = .next (s.put ((d.inc (UPL_DISC1_DUP u.side.num)).ist (pUPL u.side.num) 2)))
  ∧ (∀ (s : State) (u : UrtHdr), s.dev.powered = true → s.dev.upOk u.side.num = true → macsecTake s.dev u = none →
    exec (.ping u) s = .next (s.put ((s.dev.inc (UPL_DISC0_MACSEC u.side.num)).ist (pUPL u.side.num) 2)))
  ∧ (∀ (s : State) (u : UrtHdr) (d : Dev), s.dev.powered = true → s.dev.upOk u.side.num = true → macsecTake s.dev u = some d →
      firstCopy s.dev u.mac u.prp = true →
      (u.assoc ≠ some u.sess ∨ u.ver ≠ 1 ∨ (s.dev.ses u.sess).st = .free) →
    ∃ t, exec (.ping u) s = .next t ∧ t.otp = s.otp ∧ t.pending = s.pending ∧ t.dev.out = s.dev.out
      ∧ t.dev.sess = d.sess ∧ t.dev.mem = s.dev.mem
      ∧ t.dev.get (UPL_DISC1_URT u.side.num)
          = min (s.dev.get (UPL_DISC1_URT u.side.num) + 1) (fldTop (UPL_DISC1_URT u.side.num))
      ∧ t.dev.bit (PG_IST (pUPL u.side.num)) 2 = true
      ∧ (∀ k, k ≠ UPL_DISC1 u.side.num → k ≠ PG_IST (pUPL u.side.num) → t.dev.getW k = s.dev.getW k))

/-- READ and BREAD of memory answer the words there, with the operation, the session and the XID of the request, and change
no byte of memory (R48, R49). -/
def Obligations.ReadsAnswerTheWords : Prop :=
  (∀ (s : State) (u : UrtHdr) (a : Nat), UrtTaken s u → u.count = 0 → a + 4 ≤ 0x1000000 →
      heldByDrain (urtArrive s.dev u).1 a 4 = false → gateCheck (urtArrive s.dev u).1 (.session u.sess) 0 a 4 [] = none →
    ∃ t, exec (.read u a) s = .next t ∧ t.otp = s.otp ∧ t.pending = s.pending
      ∧ t.dev.out = s.dev.out ++ copies (urtArrive s.dev u).1 u.sess (.response u.sess 1 0 u.xid a [word (s.dev.memW a)])
      ∧ t.dev.mem = s.dev.mem)
  ∧ (∀ (s : State) (u : UrtHdr) (a : Nat), UrtTaken s u → 1 ≤ u.count → u.count ≤ 256 → a + 4 * u.count ≤ 0x1000000 →
      heldByDrain (urtArrive s.dev u).1 a (4 * u.count) = false →
      gateCheck (urtArrive s.dev u).1 (.session u.sess) 0 a (4 * u.count) [] = none →
    ∃ t, exec (.bread u a) s = .next t ∧ t.otp = s.otp ∧ t.pending = s.pending
      ∧ t.dev.out = s.dev.out ++ copies (urtArrive s.dev u).1 u.sess (.response u.sess 3 0 u.xid a
          ((List.range u.count).map (fun j => word (s.dev.memW (a + 4 * j)))))
      ∧ t.dev.mem = s.dev.mem)
  ∧ (∀ (s : State) (u : UrtHdr) (p off : Nat), UrtTaken s u → u.count = 0 → populated s.dev.part p = true → off < 4096 → off % 4 = 0 →
      heldByDrain (urtArrive s.dev u).1 (regAddr p off) 4 = false →
      gateCheck (urtArrive s.dev u).1 (.session u.sess) 0 (regAddr p off) 4 [] = none →
    ∃ t, exec (.read u (regAddr p off)) s = .next t ∧ t.otp = s.otp ∧ t.pending = s.pending
      ∧ t.dev.out = s.dev.out ++ copies (urtArrive s.dev u).1 u.sess (.response u.sess 1 0 u.xid (regAddr p off)
          [word (viewW s.otp (readEffect (urtArrive s.dev u).1 p off) p off)])
      ∧ t.dev.mem = s.dev.mem)

/-- WRITE and BWRITE to memory store the words there, most significant byte first (log entry 7), answer OK without data, and
leave every byte outside them (R48, R49). -/
def Obligations.WritesStoreTheWords : Prop :=
  (∀ (s : State) (u : UrtHdr) (a : Nat) (v : Word), UrtTaken s u → u.count = 1 → a + 4 ≤ 0x1000000 →
      heldByDrain (urtArrive s.dev u).1 a 4 = false → gateCheck (urtArrive s.dev u).1 (.session u.sess) 1 a 4 [v.toNat] = none →
    ∃ t, exec (.write u a v) s = .next t ∧ t.otp = s.otp ∧ t.pending = s.pending
      ∧ t.dev.out = s.dev.out ++ copies (urtArrive s.dev u).1 u.sess (.response u.sess 2 0 u.xid a [])
      ∧ (List.range 4).map (fun j => Memory.get t.dev.mem (s.dev.phys (a + j))) = bytesOf v.toNat
      ∧ (∀ x, (∀ j, j < 4 → x ≠ s.dev.phys (a + j)) → Memory.get t.dev.mem x = Memory.get s.dev.mem x))
  ∧ (∀ (s : State) (u : UrtHdr) (a : Nat) (l : List Word), UrtTaken s u → u.count = l.length → 1 ≤ l.length → l.length ≤ 256 →
      a + 4 * l.length ≤ 0xA00000 → heldByDrain (urtArrive s.dev u).1 a (4 * l.length) = false →
      gateCheck (urtArrive s.dev u).1 (.session u.sess) 1 a (4 * l.length) (l.map BitVec.toNat) = none →
    ∃ t, exec (.bwrite u a l) s = .next t ∧ t.otp = s.otp ∧ t.pending = s.pending
      ∧ t.dev.out = s.dev.out ++ copies (urtArrive s.dev u).1 u.sess (.response u.sess 4 0 u.xid a [])
      ∧ Memory.getAll t.dev.mem a (4 * l.length) = l.flatMap (fun v => bytesOf v.toNat)
      ∧ (∀ x, ¬ (a ≤ x ∧ x < a + 4 * l.length) → Memory.get t.dev.mem x = Memory.get s.dev.mem x))

/-- The write of a register word that the gates admit has the effect of the register; in memory it stores the word (R7,
R33). What a plain register takes (R7): RW, RWP and RWL bits take the written value as the register holds it, W1C bits that
are written 1 clear, and RO, RWS and reserved bits stay. -/
def Obligations.RegisterWritesFollowTheAccessCodes : Prop :=
  (∀ (s : State) (w : Who) (p off : Nat) (v : Word), Admits s w 1 (regAddr p off) [v.toNat] → populated s.dev.part p = true →
      off < 4096 → (regRow p off).isSome = true → ¬ (p = 0 ∧ off = 0x04C) →
    exec (.registerWrite w (regAddr p off) v) s = .next (s.put (writeReg s.otp s.dev w p off v.toNat)))
  ∧ (∀ (s : State) (w : Who) (p off : Nat) (v : Word), Admits s w 1 (regAddr p off) [v.toNat] → p < 512 → off < 4096 →
      (populated s.dev.part p = false ∨ regRow p off = none) → exec (.registerWrite w (regAddr p off) v) s = .next s)
  ∧ (∀ (s : State) (w : Who) (a : Nat) (v : Word), Admits s w 1 a [v.toNat] → a < 0x2000000 →
    exec (.registerWrite w a v) s = .next (s.put (s.dev.setMemW a v.toNat)))
  ∧ (∀ (d : Dev) (p off v : Nat) (r : RegRow) (n : Nat), regRow p off = some r → n < 32 → liveBlocked d p off v = false →
    (∀ x, heldAs p off x = x) →
    let has (l : List Acc) : Bool := r.acc.any (fun f => l.contains f.1 && decide (f.2.2 ≤ n) && decide (n ≤ f.2.1))
    let e := writeFields d p off v
    (has [.w1c] = true → bitOf v n = true → e.bit (rkey p off) n = false)
      ∧ (has [.rw, .rwp, .rwl] = true → has [.w1c] = false → e.bit (rkey p off) n = bitOf v n)
      ∧ (has [.rw, .rwp, .rwl] = false → (has [.w1c] = false ∨ bitOf v n = false) →
          e.bit (rkey p off) n = d.bit (rkey p off) n)
      ∧ (∀ k, k ≠ rkey p off → e.getW k = d.getW k) ∧ e.mem = d.mem)

/-- A refused access changes nothing but the violation's records (R431): the response carries GATE or ADDR and no data
(R432, R53), and a refused write of an initiator on the interconnect leaves only the violation. The record of a gate
violation (R439): GATE_VCNT rises by one for each; with VALID = 0 the start address, the first forbidden byte and the words
of GATE_VINFO are written and VALID is set; with VALID = 1 they stay. -/
def Obligations.RefusedAccessesAreRecordedAlone : Prop :=
  (∀ (s : State) (u : UrtHdr) (a : Nat) (v : Word) (reason byte : Nat), UrtTaken s u → u.count = 1 →
      heldByDrain (urtArrive s.dev u).1 a 4 = false →
      gateCheck (urtArrive s.dev u).1 (.session u.sess) 1 a 4 [v.toNat] = some (reason, byte) →
    exec (.write u a v) s = .next (s.put (respond (violation (urtArrive s.dev u).1 (.session u.sess) 1 a byte reason) u 2
      (if reason = 1 ∨ reason = 9 then 2 else 1) a [])))
  ∧ (∀ (s : State) (u : UrtHdr) (a : Nat) (reason byte : Nat), UrtTaken s u → u.count = 0 →
      heldByDrain (urtArrive s.dev u).1 a 4 = false →
      gateCheck (urtArrive s.dev u).1 (.session u.sess) 0 a 4 [] = some (reason, byte) →
    exec (.read u a) s = .next (s.put (respond (violation (urtArrive s.dev u).1 (.session u.sess) 0 a byte reason) u 1
      (if reason = 1 ∨ reason = 9 then 2 else 1) a [])))
  ∧ (∀ (s : State) (w : Who) (a : Nat) (v : Word) (reason byte : Nat), s.dev.powered = true →
      s.dev.get DEV_VIGSTAT_STATE ≠ 2 → heldByDrain s.dev a 4 = false → gateCheck s.dev w 1 a 4 [v.toNat] = some (reason, byte) →
    exec (.registerWrite w a v) s = .next (s.put (violation s.dev w 1 a byte reason)))
  ∧ (∀ (d : Dev) (w : Who) (ty addr byte reason : Nat), ty < 3 → reason < 16 → whoNum w < 16 →
    let e := violate (fun d _ _ => d) d w ty addr byte reason
    e.get GATE_VCNT_COUNT = min (d.get GATE_VCNT_COUNT + 1) (fldTop GATE_VCNT_COUNT) ∧ e.bit (PG_IST 0x40) 0 = true
      ∧ (d.get GATE_VINFO_VALID = 0 → e.get GATE_VINFO_VALID = 1 ∧ e.getW GATE_VADDR = addr % 2 ^ 32
          ∧ e.getW GATE_VBYTE = byte % 2 ^ 32 ∧ e.get GATE_VINFO_REASON = reason ∧ e.get GATE_VINFO_KIND = whoKind w
          ∧ e.get GATE_VINFO_GATE = gateNo byte)
      ∧ (d.get GATE_VINFO_VALID ≠ 0 → e.getW GATE_VADDR = d.getW GATE_VADDR ∧ e.getW GATE_VBYTE = d.getW GATE_VBYTE
          ∧ e.getW GATE_VINFO = d.getW GATE_VINFO)
      ∧ (∀ k, k ∉ [GATE_VCNT, GATE_VADDR, GATE_VBYTE, GATE_VINFO, PG_IST 0x40] → e.getW k = d.getW k) ∧ e.mem = d.mem)

/-- Requests that fail before any access (R53): a COUNT that does not fit the operation and an unknown operation answer OP,
a bulk word count of 0 or above 256 and a bulk range in register space that leaves its page answer RANGE. -/
def Obligations.BadCountsAndUnknownOperations : Prop :=
  (∀ (s : State) (u : UrtHdr) (op : Nat), UrtTaken s u → op ∉ [1, 2, 3, 4, 9, 10] →
    exec (.unknownOp u op) s = .next (s.put (respond (urtArrive s.dev u).1 u op 4 0 [])))
  ∧ (∀ (s : State) (u : UrtHdr) (op : Nat), op ∈ [1, 2, 3, 4, 9, 10] → exec (.unknownOp u op) s = .next s)
  ∧ (∀ (s : State) (u : UrtHdr) (a : Nat), UrtTaken s u → u.count ≠ 0 →
    exec (.read u a) s = .next (s.put (respond (urtArrive s.dev u).1 u 1 4 a [])))
  ∧ (∀ (s : State) (u : UrtHdr) (a : Nat) (v : Word), UrtTaken s u → u.count ≠ 1 →
    exec (.write u a v) s = .next (s.put (respond (urtArrive s.dev u).1 u 2 4 a [])))
  ∧ (∀ (s : State) (u : UrtHdr) (a : Nat) (l : List Word), UrtTaken s u → u.count ≠ l.length →
    exec (.bwrite u a l) s = .next (s.put (respond (urtArrive s.dev u).1 u 4 4 a [])))
  ∧ (∀ (s : State) (u : UrtHdr) (a : Nat), UrtTaken s u → badRange 0 a u.count = true →
    exec (.bread u a) s = .next (s.put (respond (urtArrive s.dev u).1 u 3 3 a [])))

/-- PING answers and does nothing more (R56); EVACK drops the messages that it covers and answers (R55). EVENT (R54, R55):
the records at the front of the queue go out under the next sequence number and wait for their acknowledgement; with 64
messages waiting nothing goes out; the oldest message is resent as it was. -/
def Obligations.EventsGoOutAndAreAcknowledged : Prop :=
  (∀ (s : State) (u : UrtHdr), UrtTaken s u →
    exec (.ping u) s = .next (s.put (respond (urtArrive s.dev u).1 u 10 (if u.count = 0 then 0 else 4) 0 [])))
  ∧ (∀ (s : State) (u : UrtHdr) (seq : Nat), UrtTaken s u → u.count = 0 → u.sess < s.dev.sess.length →
    ∃ t, exec (.evack u seq) s = .next t ∧ t.otp = s.otp ∧ t.pending = s.pending ∧ t.dev.mem = s.dev.mem
      ∧ (t.dev.ses u.sess).unack = (s.dev.ses u.sess).unack.filter (fun m => !covers seq m.1)
      ∧ (t.dev.ses u.sess).queue = (s.dev.ses u.sess).queue
      ∧ (∀ n, n ≠ u.sess → t.dev.ses n = s.dev.ses n)
      ∧ t.dev.out = s.dev.out ++ copies (urtArrive s.dev u).1 u.sess (.response u.sess 9 0 u.xid seq []))
  ∧ (∀ (s : State) (n k : Nat), s.dev.powered = true → (s.dev.ses n).st = .opened → (s.dev.ses n).unack.length < 64 →
      (s.dev.ses n).queue ≠ [] → 1 ≤ k → n < s.dev.sess.length →
    ∃ t, exec (.event n k) s = .next t ∧ t.otp = s.otp ∧ t.pending = s.pending ∧ t.dev.mem = s.dev.mem
      ∧ (t.dev.ses n).queue = (s.dev.ses n).queue.drop (min k 64)
      ∧ (t.dev.ses n).unack = (s.dev.ses n).unack ++ [((s.dev.ses n).evSeq, (s.dev.ses n).queue.take (min k 64))]
      ∧ (t.dev.ses n).evSeq = ((s.dev.ses n).evSeq + 1) % 2 ^ 32
      ∧ t.dev.out = s.dev.out ++ copies s.dev n (.event n (s.dev.ses n).evSeq (decide (min k 64 < (s.dev.ses n).queue.length))
          ((s.dev.ses n).queue.take (min k 64))))
  ∧ (∀ (s : State) (n k : Nat), 64 ≤ (s.dev.ses n).unack.length → exec (.event n k) s = .next s)
  ∧ (∀ (s : State) (n q : Nat) (recs : List EvRec) (l : List (Nat × List EvRec)), s.dev.powered = true →
      (s.dev.ses n).unack = (q, recs) :: l →
    exec (.eventResend n) s = .next (s.put (s.dev.send
      (.event n q (!l.isEmpty || !(s.dev.ses n).queue.isEmpty) recs))))

/-- The links (R60, R494): a link that comes up ends LINK_DOWN's condition, one that is lost counts in DOWNS, raises it and
takes its gPTP domain away (R345), and a frame that fails before URT counts in DISC0. -/
def Obligations.UplinkLinksAndDiscards : Prop :=
  (∀ (s : State) (x : Side), s.dev.powered = true → s.dev.upOk x.num = false →
    exec (.linkUp x) s = .next (s.put
      (condEnd (({ s.dev with ups := putAt s.dev.ups x.num ⟨true⟩ }).ist (pUPL x.num) 0) (pUPL x.num) 0)))
  ∧ (∀ (s : State) (x : Side), s.dev.powered = true → s.dev.upOk x.num = true →
    exec (.linkDown x) s = .next (s.put
      (domAbsent ((raise (({ s.dev with ups := putAt s.dev.ups x.num ⟨false⟩ }.inc (UPL_LINK_DOWNS x.num)).ist (pUPL x.num) 1)
        (pUPL x.num) 0).set (TIME_DSTAT_ASCAP x.num) 0) x.num)))
  ∧ (∀ (s : State) (x : Side), s.dev.powered = true → s.dev.upOk x.num = true →
    exec (.uplinkFrameDiscard x .noSecTag) s = .next (s.put ((s.dev.inc (UPL_DISC0_NOSECTAG x.num)).ist (pUPL x.num) 2))
      ∧ exec (.uplinkFrameDiscard x .macsec) s = .next (s.put ((s.dev.inc (UPL_DISC0_MACSEC x.num)).ist (pUPL x.num) 2)))

/-! ## The bell and the commit point -/

/-- The commit point (R63, R75): the tick number rises by one, or at the first bell is device time divided by P; the bell
instant is the one that was due. In vigil nothing else happens, and without set device time no bell rings. -/
def Obligations.CommitPointAdvancesTheTick : Prop :=
  (∀ (s : State) (l : List BellLine) (b : List Nat), s.dev.powered = true → ringing s.dev = true →
    ∃ t, exec (.commitPoint ⟨l, b⟩) s = .next t ∧ t.otp = s.otp ∧ t.pending = s.pending
      ∧ t.dev.tick = (if s.dev.bell.started then (s.dev.tick + 1) % 2 ^ 48 else nextBell s.dev / s.dev.periodNs)
      ∧ t.dev.bell.started = true ∧ t.dev.bell.inst = nextBell s.dev)
  ∧ (∀ (s : State) (l : List BellLine) (b : List Nat), s.dev.powered = true → ringing s.dev = true →
      s.dev.get DEV_VIGSTAT_STATE = 2 →
    exec (.commitPoint ⟨l, b⟩) s = .next (s.put ((advanceTick s.dev).advanceTo (nextBell s.dev))))
  ∧ (∀ (s : State) (l : List BellLine) (b : List Nat), ringing s.dev = false → exec (.commitPoint ⟨l, b⟩) s = .next s)

/-- Bell instants are spaced by P (R62): the bell after this one is the next instant that is a multiple of the period. -/
def Obligations.NextBellIsAMultipleOfThePeriod : Prop :=
  ∀ d : Dev, d.periodNs ≠ 0 → let e := placeNext d
    e.bell.next % d.periodNs = 0 ∧ d.bell.inst + d.periodNs ≤ e.bell.next ∧ e.bell.next < d.bell.inst + 2 * d.periodNs
      ∧ e.bell.tick = d.bell.tick ∧ e.bell.inst = d.bell.inst

/-- A late bell (R72): the head sends it with LATE = 1 and LAG, at LAG x 125 ns after the bell instant, counts it in
CHC_BELLCNT.LATE and CHC_BELLLAG and sets PG_IST.LATEBELL. A bell past the limit is missed (R73): counted, PG_IST.MISSBELL
set, BELL_MISSED raised; one that a bus-off or an isolation withholds is only counted (R191, R222). -/
def Obligations.LateAndMissedBells : Prop :=
  (∀ (s : State) (lag : Nat) (l : BellLine), s.dev.powered = true → s.dev.hasChan l.ch = true →
      (s.dev.chan l.ch).bell = .due → (s.dev.chan l.ch).formed = true → heldBack s.dev l.ch = false → l.busy = false →
      0 < lag → lag * 125 ≤ s.dev.bellLimit → busIdle s.dev l.ch (s.dev.bell.inst + lag * 125) = true →
    exec (.lateBell lag l) s = .next (s.put
      (sendBell (lateBellSent (s.dev.advanceTo (s.dev.bell.inst + lag * 125)) l.ch lag) l.ch lag l)))
  ∧ (∀ (d : Dev) (c lag : Nat), lag < 65536 → let e := lateBellSent d c lag
      e.get (CHC_BELLCNT_LATE c) = min (d.get (CHC_BELLCNT_LATE c) + 1) (fldTop (CHC_BELLCNT_LATE c))
        ∧ e.get (CHC_BELLLAG_LAST c) = lag ∧ e.get (CHC_BELLLAG_MAX c) = max (d.get (CHC_BELLLAG_MAX c)) lag
        ∧ e.bit (PG_IST (pCHC c)) 16 = true)
  ∧ (∀ (s : State) (c : Nat), s.dev.powered = true → s.dev.hasChan c = true → (s.dev.chan c).bell = .due →
      s.dev.isHead = true → bellWithheld s.dev c = false →
    exec (.bellMissed c) s = .next (s.put (raise
      (((((s.dev.advanceTo (s.dev.bell.inst + min (s.dev.periodNs / 2) 8000000)).inc (CHC_BELLCNT_MISS c)).ist (pCHC c) 17)).modChan c
        (fun x => { x with bell := .missed })) (pCHC c) 16)))
  ∧ (∀ (s : State) (c : Nat), s.dev.powered = true → s.dev.hasChan c = true → (s.dev.chan c).bell = .due →
      s.dev.isHead = true → bellWithheld s.dev c = true →
    exec (.bellMissed c) s = .next (s.put
      (((s.dev.advanceTo (s.dev.bell.inst + min (s.dev.periodNs / 2) 8000000)).inc (CHC_BELLCNT_MISS c)).modChan c
        (fun x => { x with bell := .missed }))))
  ∧ (∀ (s : State) (c : Nat), (s.dev.chan c).bell ≠ .due ∨ s.dev.isHead = false → exec (.bellMissed c) s = .next s)

/-- The bell payload is 32 bytes: tick number in six, seconds and nanoseconds of the bell instant in four each, most
significant byte first (R67). -/
def Obligations.BellPayloadLayout : Prop :=
  ∀ (d : Dev) (c lag : Nat), let l := bellPayload d c lag
    l.length = 32 ∧ natOf (l.take 6) = d.tick % 2 ^ 48
      ∧ natOf ((l.drop 6).take 4) = d.bell.inst / 1000000000 % 2 ^ 32
      ∧ natOf ((l.drop 10).take 4) = d.bell.inst % 1000000000
      ∧ natOf ((l.drop 21).take 1) = (d.chan c).awake % 256
      ∧ natOf ((l.drop 23).take 4) = (d.chan c).fence % 2 ^ 32
      ∧ natOf ((l.drop 30).take 2) = lag % 2 ^ 16

/-! ## Sending -/

/-- A push is queued (R129 to R133): word 3 of the descriptor shows QUEUED and no other byte of memory changes; while the
part is safe or has no headship it ends BADDESC, and outside the range it raises TX_DESC. -/
def Obligations.PushQueuesOrRefuses : Prop :=
  (∀ (s : State) (w : Who) (c idx : Nat), s.dev.hasChan c = true → c < s.dev.chans.length → idx < 2 ^ 14 →
      Admits s w 1 (regAddr (pCHT c) 0x04C) [idx] → s.dev.get DEV_SAFE_ACTIVE ≠ 1 → s.dev.isHead = true →
      s.dev.entry c idx = none → inRange s.dev c idx false = true →
      descBad s.dev c (s.dev.desc idx 0) (s.dev.desc idx 1) (s.dev.desc idx 2) (bitsOf (s.dev.desc idx 0) 31 30)
        (bitsOf (s.dev.desc idx 0) 24 22) = false →
      ((s.dev.chan c).tx.filter (fun e => e.qt == bitsOf (s.dev.desc idx 0) 31 30 && e.idx != idx)).length < 255 →
      (∀ n, w = .session n → scopeAdmits (s.dev.ses n).scope c (s.dev.desc idx 0) = true) →
    ∃ t e, exec (.push w c idx) s = .next t ∧ t.otp = s.otp ∧ t.pending = s.pending
      ∧ t.dev.entry c idx = some e ∧ e.st = 1 ∧ e.ec = e.c ∧ e.c = bitsOf (s.dev.desc idx 0) 24 22
      ∧ e.qt = bitsOf (s.dev.desc idx 0) 31 30 ∧ e.mid = bitsOf (s.dev.desc idx 0) 21 0 ∧ e.copy = none
      ∧ bitsOf (t.dev.desc idx 3) 31 28 = 1 ∧ bitsOf (t.dev.desc idx 3) 27 25 = e.c
      ∧ (∀ a, ¬ (16 * idx + 12 ≤ a ∧ a < 16 * idx + 16) → Memory.get t.dev.mem a = Memory.get s.dev.mem a)
      ∧ (∀ b, b ≠ c → (t.dev.chan b).tx = (s.dev.chan b).tx))
  ∧ (∀ (s : State) (w : Who) (c idx : Nat), s.dev.hasChan c = true → idx < 2 ^ 14 →
      Admits s w 1 (regAddr (pCHT c) 0x04C) [idx] → (s.dev.get DEV_SAFE_ACTIVE = 1 ∨ s.dev.isHead = false) →
      inRange s.dev c idx false = true →
    exec (.push w c idx) s = .next (s.put (s.dev.setDesc idx 3
      (9 * 2 ^ 28 + bitsOf (s.dev.desc idx 0) 24 22 * 2 ^ 25 + s.dev.tick16))))
  ∧ (∀ (s : State) (w : Who) (c idx : Nat), s.dev.hasChan c = true → idx < 2 ^ 14 →
      Admits s w 1 (regAddr (pCHT c) 0x04C) [idx] → s.dev.get DEV_SAFE_ACTIVE ≠ 1 → s.dev.isHead = true →
      s.dev.entry c idx = none → inRange s.dev c idx false = false →
    exec (.push w c idx) s = .next (s.put (raise (s.dev.ist (pCHT c) 6) (pCHT c) 0)))

/-- An abort of a queued entry ends it at once with ST = ABORTED, an ACTIVE one is marked, and a name that is not queued
changes nothing; ALL = 1 aborts every queued entry of the channel (R148). -/
def Obligations.AbortsEndQueuedEntries : Prop :=
  (∀ (s : State) (w : Who) (c idx : Nat) (e : TxEntry), s.dev.hasChan c = true → c < s.dev.chans.length → idx < 2 ^ 14 →
      Admits s w 1 (regAddr (pCHT c) 0x050) [idx] → s.dev.entry c idx = some e → e.st ≠ 2 → e.c < 8 →
    ∃ t, exec (.abort w c idx) s = .next t ∧ t.otp = s.otp ∧ t.pending = s.pending
      ∧ t.dev.entry c idx = none ∧ bitsOf (t.dev.desc idx 3) 31 28 = 6
      ∧ t.dev.get (CHT_ENDCNT_ABORTED c) = min (s.dev.get (CHT_ENDCNT_ABORTED c) + 1) (fldTop (CHT_ENDCNT_ABORTED c))
      ∧ (∀ a, ¬ (16 * idx + 12 ≤ a ∧ a < 16 * idx + 16) → Memory.get t.dev.mem a = Memory.get s.dev.mem a)
      ∧ (∀ k, k ≠ CHT_QSTAT c → k ≠ CHT_ENDCNT c → t.dev.getW k = s.dev.getW k))
  ∧ (∀ (s : State) (w : Who) (c idx : Nat) (e : TxEntry), s.dev.hasChan c = true → idx < 2 ^ 14 →
      Admits s w 1 (regAddr (pCHT c) 0x050) [idx] → s.dev.entry c idx = some e → e.st = 2 →
    exec (.abort w c idx) s = .next (s.put (s.dev.modChan c (fun x => { x with
      tx := x.tx.map (fun f => if f.idx = idx then { f with aborting := true } else f) }))))
  ∧ (∀ (s : State) (w : Who) (c idx : Nat), s.dev.hasChan c = true → idx < 2 ^ 14 →
      Admits s w 1 (regAddr (pCHT c) 0x050) [idx] → s.dev.entry c idx = none → exec (.abort w c idx) s = .next s)
  ∧ (∀ (s : State) (w : Who) (c : Nat), s.dev.hasChan c = true → Admits s w 1 (regAddr (pCHT c) 0x050) [2 ^ 31] →
    exec (.abortAll w c) s = .next (s.put (s.dev.forEach (s.dev.chan c).tx (fun d e => abortEntry d c e))))

/-- The entry that the head starts (R137, R138): in the arbitrated window no eligible entry of the channel has a lower
effective class, then a lower MID, then a lower descriptor index; in the scheduled window none whose turn has come has an
earlier slot, then a lower index. A PASSIVE head starts no priority or one-shot entry in the wait after a frame of its own
(R188). -/
def Obligations.HeadStartsTheFirstEligibleEntry : Prop :=
  (∀ (d : Dev) (c t : Nat) (e : TxEntry), d.get (CHC_WIN_SCHED_END c) * 1000 ≤ t → chooseEntry d c t = some e →
    e ∈ (d.chan c).tx ∧ arbReady d c e = true
      ∧ ∀ f ∈ (d.chan c).tx, arbReady d c f = true →
          e.ec < f.ec ∨ (e.ec = f.ec ∧ (e.mid < f.mid ∨ (e.mid = f.mid ∧ e.idx ≤ f.idx))))
  ∧ (∀ (d : Dev) (c t : Nat) (e : TxEntry), t < d.get (CHC_WIN_SCHED_END c) * 1000 → chooseEntry d c t = some e →
    e ∈ (d.chan c).tx ∧ schedReady d c t e = true
      ∧ ∀ f ∈ (d.chan c).tx, schedReady d c t f = true → e.slot < f.slot ∨ (e.slot = f.slot ∧ e.idx ≤ f.idx))
  ∧ (∀ (d : Dev) (c t : Nat), d.get (CHC_WIN_SCHED_END c) * 1000 ≤ t → (d.chan c).ownNs ≤ d.bell.inst + t →
      chooseEntry d c t = none →
    ∀ f ∈ (d.chan c).tx, arbReady d c f = false)
  ∧ (∀ (d : Dev) (c t : Nat), d.get (CHC_WIN_SCHED_END c) * 1000 ≤ t → d.bell.inst + t < (d.chan c).ownNs →
    chooseEntry d c t = none)

/-- An attempt starts, and it runs to its end (R112, R135, R141, R142, R216): a frame that wins arbitration goes out with
the class EC of the entry, which is ACTIVE, and SEQ rises by one; delivered, the entry ends SENT and TEC falls as R189 says;
a frame that loses arbitration ends as R142 says; without a right to start nothing happens, and while no mill serves the
hamlet the outcome is held. -/
def Obligations.AttemptsRunToTheirEnd : Prop :=
  (∀ (s : State) (c : Nat) (a : Attempt), a.part ≠ .finish → mayStart s.dev c a.sof = false →
    exec (.frameAttempt c a) s = .next s)
  ∧ (∀ (s : State) (c : Nat) (a : Attempt) (e : TxEntry) (cp : TxCopy), s.dev.powered = true → a.part ≠ .finish →
      mayStart s.dev c a.sof = true → a.line = .lost →
      let d := skipPassed s.dev c a.sof
      chooseEntry d c a.sof = some e → e.copy = some cp →
    exec (.frameAttempt c a) s = .next (s.put (noteEnd ((endAttempt
      (markActive (d.advanceTo (s.dev.bell.inst + a.sof)) c e.idx) c e.idx (fun d c e => entryLost d c a.fin e)).advanceTo
        (s.dev.bell.inst + a.fin)) c (s.dev.bell.inst + a.fin) false)))
  ∧ (∀ (s : State) (c : Nat) (a : Attempt) (e : TxEntry) (cp : TxCopy), s.dev.powered = true → a.part = .start →
      mayStart s.dev c a.sof = true → a.line ≠ .lost →
      let d := skipPassed s.dev c a.sof
      chooseEntry d c a.sof = some e → d.entry c e.idx = some e → e.copy = some cp → c < s.dev.chans.length →
    ∃ t tag, exec (.frameAttempt c a) s = .next t ∧ t.otp = s.otp ∧ t.pending = s.pending
      ∧ t.dev.out = s.dev.out ++ [.frame c e.idx (headFrame e.ec (bitsOf cp.w0.toNat 21 0) (bitsOf cp.w0.toNat 27 25)
          (!(bitOf cp.w0.toNat 28 && s.dev.get (CHC_LINE_SLOWOK c) == 1)) ((s.dev.chan c).seq + 1) cp.payload tag)]
      ∧ (t.dev.chan c).seq = (s.dev.chan c).seq + 1 ∧ t.dev.entry c e.idx = some { e with st := 2 }
      ∧ (t.dev.chan c).wire = some ⟨e.idx, s.dev.tick, e.ec, bitsOf cp.w0.toNat 27 25, bitsOf cp.w0.toNat 21 0,
          (s.dev.chan c).seq + 1, tag.isSome⟩
      ∧ bitsOf (t.dev.desc e.idx 3) 31 28 = 2 ∧ t.dev.regs = d.regs
      ∧ (∀ x, ¬ (16 * e.idx + 12 ≤ x ∧ x < 16 * e.idx + 16) → Memory.get t.dev.mem x = Memory.get d.mem x))
  ∧ (∀ (s : State) (c : Nat) (a : Attempt) (w : Wire) (e : TxEntry), s.dev.powered = true → a.part = .finish →
      a.line = .delivered → a.eof7 = false → (s.dev.chan c).wire = some w → served s.dev c = true → s.dev.isHead = true →
      busOff s.dev c = false → s.dev.get (CHS_TEC_TEC c) < 256 → c < s.dev.chans.length → s.dev.entry c w.idx = some e →
      e.qt = 1 → e.c < 8 → e.handle = none →
    ∃ t, exec (.frameAttempt c a) s = .next t ∧ t.otp = s.otp ∧ t.pending = s.pending ∧ t.dev.out = s.dev.out
      ∧ (t.dev.chan c).wire = none ∧ t.dev.entry c w.idx = none ∧ bitsOf (t.dev.desc w.idx 3) 31 28 = 3
      ∧ t.dev.get (CHT_SENTCNT_COUNT c) = min (s.dev.get (CHT_SENTCNT_COUNT c) + 1) (fldTop (CHT_SENTCNT_COUNT c))
      ∧ t.dev.get (CHS_TEC_TEC c) = s.dev.get (CHS_TEC_TEC c) - 1
      ∧ (∀ x, ¬ (16 * w.idx + 12 ≤ x ∧ x < 16 * w.idx + 16) → Memory.get t.dev.mem x = Memory.get s.dev.mem x))
  ∧ (∀ (s : State) (c : Nat) (a : Attempt) (w : Wire), s.dev.powered = true → a.part = .finish → a.line = .delivered →
      (s.dev.chan c).wire = some w → served s.dev c = false → s.dev.get (CHS_TEC_TEC c) < 256 → c < s.dev.chans.length →
    ∃ t, exec (.frameAttempt c a) s = .next t ∧ t.otp = s.otp ∧ t.pending = s.pending ∧ t.dev.mem = s.dev.mem
      ∧ (t.dev.chan c).outcome = some .delivered ∧ (t.dev.chan c).wire = some w ∧ (t.dev.chan c).tx = (s.dev.chan c).tx)

/-- The ends of an attempt in a transmit error (R136, R139, R140): ATT rises by one; a one-shot entry ends FAILED, a
priority entry ends FAILED when ATT exceeds RETRY, with RETRY below 15, and otherwise waits; a scheduled entry shows FAILED
for the tick. Aging (R145, R132): at a commit point each priority entry that was queued or active before it has one more
aging step due, and no other entry has. The step raises W by one; above AGELIM, with EC above 2, EC falls by one, W is 0,
PROMS and CHT_MISC.PROM rise by one. No entry rises above class 2. -/
def Obligations.FailedAttemptsAndAging : Prop :=
  (∀ (d : Dev) (c t : Nat) (e : TxEntry), e.aborting = false → e.qt = 2 →
    entryError d c t e = endEntry d c { e with att := min (e.att + 1) 15, copy := none, since := d.aon.cycles } 4)
  ∧ (∀ (d : Dev) (c t : Nat) (e : TxEntry), e.aborting = false → e.qt = 1 → e.retry < 15 → e.retry ≤ e.att → e.att < 15 →
    entryError d c t e = endEntry d c { e with att := e.att + 1, copy := none, since := d.aon.cycles } 4)
  ∧ (∀ (d : Dev) (c t : Nat) (e : TxEntry), e.aborting = false → e.qt = 1 → (e.retry = 15 ∨ e.att < e.retry) → e.att < 15 →
    entryError d c t e = putEntry d c { e with att := e.att + 1, copy := none, st := 1, since := d.aon.cycles })
  ∧ (∀ (d : Dev) (c : Nat) (e : TxEntry), e.aborting = false → e.qt = 0 →
    entryError d c d.tick e = ((putEntry d c
      { e with att := min (e.att + 1) 15, copy := none, st := 4, since := d.aon.cycles }).ist (pCHT c) 1).inc (CHT_ENDCNT_FAILED c))
  ∧ (∀ (cn : Nat) (e : TxEntry), e.qt ≠ 1 ∨ cn ≤ e.pushed → dueStep cn e = e)
  ∧ (∀ (cn : Nat) (e : TxEntry), e.qt = 1 → (e.st = 1 ∨ e.st = 2) → e.pushed < cn → dueStep cn e = { e with due := e.due + 1 })
  ∧ (∀ (d : Dev) (c i : Nat) (e : TxEntry), d.entry c i = some e → e.due = 0 → ageDue d c i = d)
  ∧ (∀ (d : Dev) (c : Nat) (e : TxEntry), c < d.chans.length → d.entry c e.idx = some e → e.due = 1 →
      ageDue d c e.idx = ageEntry d c e)
  ∧ (∀ (d : Dev) (c : Nat) (e : TxEntry), c < d.chans.length → d.entry c e.idx = some e →
      ¬ (d.get (CHT_AGELIM_AGELIM c) ≠ 0 ∧ d.get (CHT_AGELIM_AGELIM c) < e.w + 1 ∧ 2 < e.ec) →
      (ageEntry d c e).entry c e.idx = some { e with w := e.w + 1, due := e.due - 1 } ∧ (ageEntry d c e).mem = d.mem
        ∧ (ageEntry d c e).regs = d.regs)
  ∧ (∀ (d : Dev) (c : Nat) (e : TxEntry), c < d.chans.length → d.entry c e.idx = some e →
      d.get (CHT_AGELIM_AGELIM c) ≠ 0 → d.get (CHT_AGELIM_AGELIM c) < e.w + 1 → 2 < e.ec →
      (ageEntry d c e).entry c e.idx = some { e with ec := e.ec - 1, w := 0, proms := min (e.proms + 1) 15, due := e.due - 1 }
        ∧ 2 ≤ e.ec - 1
        ∧ (ageEntry d c e).get (CHT_MISC_PROM c) = min (d.get (CHT_MISC_PROM c) + 1) (fldTop (CHT_MISC_PROM c))
        ∧ (∀ a, ¬ (16 * e.idx + 12 ≤ a ∧ a < 16 * e.idx + 16) → Memory.get (ageEntry d c e).mem a = Memory.get d.mem a))

/-- The commands between push and attempt (R134, R140, R208, R210, R329): a slot of the wheel goes to its owner, or to the
channel that has waited longest, the lowest on a tie; the copy that the wheel comes to holds words 0 and 1 and the payload
of the descriptor, or ends FAILED on an uncorrectable error; a one-shot entry expires at ARB_END of its window; the
tick-bound work is done in the channel's first slot; a timed output that missed its apply tick ends MISSED. -/
def Obligations.CopiesExpiriesAndTickWork : Prop :=
  (∀ (d : Dev) (h k : Nat), (waitSince d (8 * h + k % 8)).isSome = true → slotHolder d h k = some (k % 8))
  ∧ (∀ (d : Dev) (h k j : Nat), waitSince d (8 * h + k % 8) = none → slotHolder d h k = some j →
      j < 8 ∧ ∃ t, waitSince d (8 * h + j) = some t
        ∧ ∀ i u, i < 8 → waitSince d (8 * h + i) = some u → t < u ∨ (t = u ∧ j ≤ i))
  ∧ (∀ (s : State) (c i : Nat) (e : TxEntry) (d : Dev), s.dev.powered = true → s.dev.entry c i = some e →
      serve s.dev c (.copy i) = some d → c < s.dev.chans.length → e.safe = false →
      descBad s.dev c (s.dev.desc i 0) (s.dev.desc i 1) (s.dev.desc i 2) e.qt e.c = false →
      (∀ n sc, e.owner = some (n, sc) → scopeAdmits sc c (s.dev.desc i 0) = true) →
    ∃ t, exec (.transmitCopy c ⟨i, false⟩) s = .next t ∧ t.otp = s.otp ∧ t.pending = s.pending
      ∧ t.dev.mem = s.dev.mem ∧ t.dev.regs = s.dev.regs ∧ t.dev.aon = d.aon ∧ t.dev.hams = d.hams
      ∧ t.dev.entry c i = some { e with
          copy := some ⟨word (s.dev.desc i 0), word (s.dev.desc i 1),
            s.dev.memB (granAddr (bitsOf (s.dev.desc i 2) 16 0)) (bitsOf (s.dev.desc i 1) 25 16)⟩,
          mid := bitsOf (s.dev.desc i 0) 21 0, slot := bitsOf (s.dev.desc i 1) 15 0, retry := bitsOf (s.dev.desc i 1) 31 28,
          ntf := bitOf (s.dev.desc i 1) 27 })
  ∧ (∀ (s : State) (c i : Nat) (e : TxEntry) (d : Dev), s.dev.powered = true → s.dev.entry c i = some e →
      serve s.dev c (.copy i) = some d →
    exec (.transmitCopy c ⟨i, true⟩) s = .next (s.put (raise (endEntry d c e 4) (pCHT c) 1)))
  ∧ (∀ (s : State) (c i : Nat) (ecc : Bool), serve s.dev c (.copy i) = none → exec (.transmitCopy c ⟨i, ecc⟩) s = .next s)
  ∧ (∀ (s : State) (c i : Nat) (e : TxEntry), s.dev.powered = true → s.dev.entry c i = some e → e.qt = 2 → e.st = 1 →
      e.window ≤ s.dev.tick →
    exec (.oneShotExpiry c i) s = .next (s.put
      (endEntry (s.dev.advanceTo (s.dev.bell.inst + s.dev.get (CHC_WIN_ARB_END c) * 1000)) c e 5)))
  ∧ (∀ (s : State) (h : Nat) (o : TimedOut), s.dev.powered = true → s.dev.svc.outs.find? (fun o => o.handle == h) = some o →
      o.tick ≤ s.dev.tick + 1 → o.desc = none →
    exec (.timedOutputMissed h) s = .next (s.put
      (toEnd (s.dev.advanceTo (s.dev.bell.inst + s.dev.get (CHC_WIN_ARB_END o.ch) * 1000)) h 4 0)))
  ∧ (∀ (s : State) (c : Nat) (d : Dev), s.dev.powered = true → s.dev.hasChan c = true → serve s.dev c .tick = some d →
      c < s.dev.chans.length →
    ∃ t, exec (.tickBoundWork c) s = .next t ∧ t.otp = s.otp ∧ t.pending = s.pending
      ∧ (t.dev.chan c).aged = true ∧ (t.dev.chan c).formed = true ∧ (t.dev.chan c).descWork = []
      ∧ (∀ b, b ≠ c → t.dev.chan b = s.dev.chan b) ∧ t.dev.sess = s.dev.sess ∧ t.dev.aon = d.aon)
  ∧ (∀ (s : State) (c : Nat), serve s.dev c .tick = none → exec (.tickBoundWork c) s = .next s)

/-! ## Receiving and confinement -/

/-- Checks 4 to 8 of R151 in their order: the reason of the first that fails, 0 when none does. Copies of the verdict that
differ give BADTAG (R242). A tagged frame wins only with a tag that one of the candidate keys gives for the tick in force at
its SOF or the one before (R232, R233, R235). -/
def Obligations.VerdictFollowsTheChecksInOrder : Prop :=
  (∀ (d : Dev) (c : Nat) (f : RxFrame), f.copiesDiffer = true → (verdict d c f).1 = 2)
  ∧ (∀ (d : Dev) (c : Nat) (f : RxFrame), f.copiesDiffer = false → f.a = false → d.get (CHX_AUTHCFG_ENFORCE c) = 1 →
      bitOf (d.get (CHX_AUTHCFG_PROT c)) f.ft = true → (verdict d c f).1 = 1)
  ∧ (∀ (d : Dev) (c : Nat) (f : RxFrame), f.copiesDiffer = false → f.a = false →
      ¬ (d.get (CHX_AUTHCFG_ENFORCE c) = 1 ∧ bitOf (d.get (CHX_AUTHCFG_PROT c)) f.ft = true) →
      (verdict d c f).1 = if fenced d c f.src then 5 else 0)
  ∧ (∀ (d : Dev) (c : Nat) (f : RxFrame), f.copiesDiffer = false → f.a = true → candSlots d c f = [] → (verdict d c f).1 = 4)
  ∧ (∀ (d : Dev) (c : Nat) (f : RxFrame), f.copiesDiffer = false → f.a = true → candSlots d c f ≠ [] → winner d c f = none →
      (verdict d c f).1 = 2)
  ∧ (∀ (d : Dev) (c : Nat) (f : RxFrame) (k t : Nat), f.copiesDiffer = false → f.a = true → candSlots d c f ≠ [] →
      winner d c f = some (k, t) →
      ((lastPair d c f.src).1 < t ∨ ((lastPair d c f.src).1 = t ∧ (lastPair d c f.src).2 < f.seq)) →
      (verdict d c f).1 = if fenced d c f.src then 5 else 0)
  ∧ (∀ (d : Dev) (c : Nat) (f : RxFrame) (k t : Nat), f.copiesDiffer = false → f.a = true → candSlots d c f ≠ [] →
      winner d c f = some (k, t) →
      ¬ ((lastPair d c f.src).1 < t ∨ ((lastPair d c f.src).1 = t ∧ (lastPair d c f.src).2 < f.seq)) →
      (verdict d c f).1 = 3)
  ∧ (∀ (d : Dev) (c : Nat) (f : RxFrame) (n t : Nat), winner d c f = some (n, t) →
    (t = sofTick d f ∨ t + 1 = sofTick d f) ∧ n ∈ candSlots d c f
      ∧ ∃ k, slotKey d c n = some k ∧ k.retired = false
          ∧ tagOf k.key f.c f.mid f.src f.ft true f.dps f.len f.seq t f.payload = f.tag)

/-- FRAME_RECEPTION (R151, R153, R157): a channel that does not hear takes nothing; on one that does the command completes
for every frame. A line error is counted and is a receive error, with an error flag (R111, R189); a frame that passes checks
1 to 3 is answered with ACK by a channel that is not silent, with AUTH when it is accepted and tagged, whose masks are
counted (R108, R234), and is delivered with its verdict after EOF; AUTH_FORGE and a form error in the tail end it without
delivery (R110, R112). A delivered frame that is accepted lowers REC and the score of its node, and is offered to the hold
FIFO. Frames of a tick's guard are counted (R70). The hold FIFO keeps two frames (R27, R157): a third is lost and counted,
and no offer changes what is held. -/
def Obligations.ReceptionAnswersAndOffers : Prop :=
  (∀ (s : State) (c : Nat) (f : RxFrame), hears s.dev c = false → exec (.frameReception c f) s = .next s)
  ∧ (∀ (s : State) (c : Nat) (f : RxFrame), s.dev.powered = true → hears s.dev c = true → s.dev.isHead = true →
      (asRead f).a = false → f.copiesDiffer = false →
      let g := asRead f
      let d := s.dev.advanceTo (s.dev.atBell g.sof)
      let d := if inGuard d c g = true then d.inc (CHS_ECNT2_GUARD c) else d
      let k := rxLineErr d c g
      k.1 ≠ 0 →
    exec (.frameReception c f) s = .next (s.put (lineError (countLineErr d c k.1) c g.src k.2 (rxFlagAt g k.1))))
  ∧ (∀ (s : State) (c : Nat) (f : RxFrame), s.dev.powered = true → hears s.dev c = true →
      (s.dev.isHead = true ∨ f.src ≠ 0) → f.line = .clean → f.copiesDiffer = false → f.authDom = false → f.a = false →
      let d := s.dev.advanceTo (s.dev.atBell f.sof)
      let guard := inGuard d c f
      let d := if guard = true then d.inc (CHS_ECNT2_GUARD c) else d
      let fin := d.atBell (frameEnd d c f)
      let e := if silent d c = true then d else d.emit (.answer c true false)
      (rxLineErr d c f).1 = 0 →
    exec (.frameReception c f) s = .next (s.put
      (delivered (noteEnd (e.advanceTo fin) c fin false) c f (verdict d c f) guard s.dev.inHoldover)))
  ∧ (∀ (s : State) (c : Nat) (f : RxFrame), s.dev.powered = true → hears s.dev c = true → s.dev.isHead = true →
      f.line = .clean → f.copiesDiffer = false → f.a = true →
      let d := s.dev.advanceTo (s.dev.atBell f.sof)
      let guard := inGuard d c f
      let d := if guard = true then d.inc (CHS_ECNT2_GUARD c) else d
      let fin := d.atBell (frameEnd d c f)
      (rxLineErr d c f).1 = 0 → (verdict d c f).1 = 0 → silent d c = false →
    exec (.frameReception c f) s = .next (s.put
      (delivered (noteEnd (((fixMasks d c f).emit (.answer c true true)).advanceTo fin) c fin false) c f (verdict d c f) guard
        s.dev.inHoldover)))
  ∧ (∀ (s : State) (c : Nat) (f : RxFrame), s.dev.powered = true → hears s.dev c = true → s.dev.isHead = true →
      f.line = .clean → f.copiesDiffer = false → f.authDom = true → f.a = false →
      let d := s.dev.advanceTo (s.dev.atBell f.sof)
      inGuard d c f = false → (rxLineErr d c f).1 = 0 → silent d c = false →
    exec (.frameReception c f) s = .next (s.put (forgedAuth (d.emit (.answer c true false)) c f false)))
  ∧ (∀ (s : State) (c : Nat) (f : RxFrame) (inEof : Bool), s.dev.powered = true → hears s.dev c = true → s.dev.isHead = true →
      f.line = .tail inEof → f.copiesDiffer = false → f.authDom = false → f.a = false →
      let d := s.dev.advanceTo (s.dev.atBell f.sof)
      inGuard d c f = false → (rxLineErr d c f).1 = 0 → silent d c = false →
    exec (.frameReception c f) s = .next (s.put
      (lineError ((d.emit (.answer c true false)).inc (CHS_ECNT1_FORM c)) c f.src true (if inEof then .nextBit else .firstEof))))
  ∧ (∀ (d : Dev) (c : Nat) (f : RxFrame) (holdover : Bool), f.eof7 = false → f.ft ≠ 4 →
    delivered d c f (0, none) false holdover
      = offerHold (scoreEvent (recDown d c) c f.src false) c (heldFrame d c f 0 holdover))
  ∧ (∀ (d : Dev) (c : Nat) (h : Held), c < d.chans.length → (d.chan c).hold.length < 2 →
    ((offerHold d c h).chan c).hold = (d.chan c).hold ++ [h] ∧ (offerHold d c h).regs = d.regs)
  ∧ (∀ (d : Dev) (c : Nat) (h : Held), 2 ≤ (d.chan c).hold.length →
    (offerHold d c h).chans = d.chans
      ∧ (offerHold d c h).get (CHX_LOSSCNT_HOLDOVF c)
          = min (d.get (CHX_LOSSCNT_HOLDOVF c) + 1) (fldTop (CHX_LOSSCNT_HOLDOVF c))
      ∧ (offerHold d c h).bit (PG_IST (pCHX c)) 3 = true)

/-- Placement in a receive descriptor that is not full (R172, R173): slot WR gets the payload, then its head; WR advances
modulo DEPTH, FILL rises by one, RD and OVF stay, and no other byte of memory changes. A frame for a full descriptor (R175):
OVF and CHX_OVFCNT.OVF rise by one and PG_IST.OVF is set; under OVW = 0 nothing is placed and the slots stay. An
uncorrectable error abandons the placement and raises RX_MEM (R177). -/
def Obligations.PlacementFillsASlotOrDropsTheNewest : Prop :=
  (∀ (d : Dev) (c i : Nat) (x : Held),
    let w0 := d.desc i 0
    let w3 := d.desc i 3
    let depth := bitsOf w0 23 16
    let sg := (bitsOf w0 9 0 + 63) / 64
    let wr := bitsOf w3 31 24
    let pay := granAddr (bitsOf (d.desc i 1) 16 0 + wr * sg)
    let hd := d.desc i 2 + 16 * wr
    let r := placeBuf d c i x false
    d.get (CHX_RXRANGE_BASE c) ≤ i → i < d.get (CHX_RXRANGE_BASE c) + d.get (CHX_RXRANGE_CNT c) → bitsOf w0 31 30 < 2 →
    depth ≠ 0 → bitsOf w0 9 0 ≤ 512 → bitsOf (d.desc i 1) 16 0 + depth * sg ≤ 98304 → bitsOf w3 15 8 < depth →
    wr < depth → i < 2 ^ 14 → 0x40000 ≤ hd → x.f.payload.length = x.f.len → x.f.len ≤ bitsOf w0 9 0 →
    r.2 = some wr
      ∧ bitsOf (r.1.desc i 3) 31 24 = (wr + 1) % depth ∧ bitsOf (r.1.desc i 3) 15 8 = bitsOf w3 15 8 + 1
      ∧ bitsOf (r.1.desc i 3) 23 16 = bitsOf w3 23 16 ∧ bitsOf (r.1.desc i 3) 7 0 = bitsOf w3 7 0
      ∧ r.1.get (CHX_RXCNT_COUNT c) = min (d.get (CHX_RXCNT_COUNT c) + 1) (fldTop (CHX_RXCNT_COUNT c))
      ∧ Memory.getAll r.1.mem hd 16 = bytesOf (slotW0 x.f x.late) ++ bytesOf (x.f.seq * 2 ^ 16 + x.f.len)
          ++ bytesOf (x.tick % 2 ^ 32) ++ bytesOf x.ns
      ∧ (hd + 16 ≤ pay ∨ pay + x.f.len ≤ hd → Memory.getAll r.1.mem pay x.f.len = x.f.payload)
      ∧ (∀ a, ¬ (pay ≤ a ∧ a < pay + (x.f.len + 63) / 64 * 64) → ¬ (16 * i + 12 ≤ a ∧ a < 16 * i + 16) →
          ¬ (hd ≤ a ∧ a < hd + 16) → Memory.get r.1.mem a = Memory.get d.mem a))
  ∧ (∀ (d : Dev) (c i : Nat) (x : Held),
    let w0 := d.desc i 0
    let w3 := d.desc i 3
    let depth := bitsOf w0 23 16
    let r := placeBuf d c i x false
    d.get (CHX_RXRANGE_BASE c) ≤ i → i < d.get (CHX_RXRANGE_BASE c) + d.get (CHX_RXRANGE_CNT c) → bitsOf w0 31 30 < 2 →
    depth ≠ 0 → bitsOf w0 9 0 ≤ 512 → bitsOf (d.desc i 1) 16 0 + depth * ((bitsOf w0 9 0 + 63) / 64) ≤ 98304 →
    depth ≤ bitsOf w3 15 8 → bitOf w0 29 = false →
    r.2 = none ∧ bitsOf (r.1.desc i 3) 7 0 = min (bitsOf w3 7 0 + 1) 255 ∧ bitsOf (r.1.desc i 3) 31 8 = bitsOf w3 31 8
      ∧ r.1.get (CHX_OVFCNT_OVF c) = min (d.get (CHX_OVFCNT_OVF c) + 1) (fldTop (CHX_OVFCNT_OVF c))
      ∧ r.1.bit (PG_IST (pCHX c)) 1 = true
      ∧ (∀ a, ¬ (16 * i + 12 ≤ a ∧ a < 16 * i + 16) → Memory.get r.1.mem a = Memory.get d.mem a))
  ∧ (∀ (d : Dev) (c i : Nat) (x : Held), let w0 := d.desc i 0
    d.get (CHX_RXRANGE_BASE c) ≤ i → i < d.get (CHX_RXRANGE_BASE c) + d.get (CHX_RXRANGE_CNT c) → bitsOf w0 31 30 < 2 →
    bitsOf w0 23 16 ≠ 0 → bitsOf w0 9 0 ≤ 512 →
    bitsOf (d.desc i 1) 16 0 + bitsOf w0 23 16 * ((bitsOf w0 9 0 + 63) / 64) ≤ 98304 →
    placeBuf d c i x true = (raise d (pCHX c) 1, none))

/-- FRAME_PLACEMENT takes the oldest held frame of the channel that the wheel comes to: a refused one goes to the pinfold,
an accepted one to its match (R162, R178, R209). In vigil, or when the wheel does not come to a held frame of the channel,
nothing is placed (R216). Releases: RXREL advances RD by COUNT modulo DEPTH and lowers FILL, COUNT above FILL releases FILL
slots (R174); PFPOP does so for the pinfold (R182). -/
def Obligations.PlacementTakesAndReleasesFree : Prop :=
  (∀ (s : State) (c : Nat) (k : MemErr) (x : Held) (l : List Held) (d : Dev), s.dev.powered = true → s.dev.hasChan c = true →
      s.dev.get DEV_VIGSTAT_STATE = 0 → serve s.dev c .frame = some d → (s.dev.chan c).hold = x :: l →
      let d := d.modChan c (fun y => { y with hold := l })
      let e := if x.reason ≠ 0 then pinfold d c x else placeAccepted d c x k
    exec (.framePlacement ⟨c, k⟩) s = .next (s.put { e with bell := { e.bell with closed := e.nowNs } }))
  ∧ (∀ (s : State) (c : Nat) (k : MemErr), (s.dev.hasChan c = false ∨ s.dev.get DEV_VIGSTAT_STATE ≠ 0 ∨ serve s.dev c .frame = none) →
    exec (.framePlacement ⟨c, k⟩) s = .next s)
  ∧ (∀ (s : State) (w : Who) (c idx n : Nat), s.dev.hasChan c = true → idx < 2 ^ 14 → n < 256 →
      Admits s w 1 (regAddr (pCHX c) 0x04C) [n * 2 ^ 24 + idx] →
      s.dev.get (CHX_RXRANGE_BASE c) ≤ idx → idx < s.dev.get (CHX_RXRANGE_BASE c) + s.dev.get (CHX_RXRANGE_CNT c) →
      bitsOf (s.dev.desc idx 0) 23 16 ≠ 0 →
      let m := min n (bitsOf (s.dev.desc idx 3) 15 8)
    ∃ t, exec (.rxrel w c idx n) s = .next t ∧ t.otp = s.otp ∧ t.pending = s.pending
      ∧ bitsOf (t.dev.desc idx 3) 15 8 = bitsOf (s.dev.desc idx 3) 15 8 - m
      ∧ bitsOf (t.dev.desc idx 3) 23 16 = (bitsOf (s.dev.desc idx 3) 23 16 + m) % bitsOf (s.dev.desc idx 0) 23 16
      ∧ bitsOf (t.dev.desc idx 3) 31 24 = bitsOf (s.dev.desc idx 3) 31 24
      ∧ bitsOf (t.dev.desc idx 3) 7 0 = bitsOf (s.dev.desc idx 3) 7 0
      ∧ t.dev.regs = s.dev.regs ∧ t.dev.chans = s.dev.chans
      ∧ (∀ a, ¬ (16 * idx + 12 ≤ a ∧ a < 16 * idx + 16) → Memory.get t.dev.mem a = Memory.get s.dev.mem a))
  ∧ (∀ (s : State) (w : Who) (h n : Nat), s.dev.hasHam h = true → n < 128 → Admits s w 1 (regAddr (pHAM h) 0x10C) [n] →
      let m := min n (s.dev.get (HAM_PFSTAT_FILL h))
    ∃ t, exec (.pfpop w h n) s = .next t ∧ t.otp = s.otp ∧ t.pending = s.pending ∧ t.dev.mem = s.dev.mem
      ∧ t.dev.get (HAM_PFSTAT_FILL h) = s.dev.get (HAM_PFSTAT_FILL h) - m
      ∧ t.dev.get (HAM_PFSTAT_RD h) = (s.dev.get (HAM_PFSTAT_RD h) + m) % 64
      ∧ t.dev.get (HAM_PFSTAT_LOST h) = s.dev.get (HAM_PFSTAT_LOST h)
      ∧ (∀ k, k ≠ HAM_PFSTAT h → t.dev.getW k = s.dev.getW k))

/-- TEC and REC (R186, R187, R189): the state follows the counters, and the warning bit is set from 96 on; a channel that is
BUSOFF, or a part without headship, counts nothing (R190, R450). -/
def Obligations.ErrorCountersAndState : Prop :=
  (∀ (d : Dev) (c tec rc : Nat), tec < 256 → let e := setCounters d c tec rc
      e.get (CHS_TEC_TEC c) = tec ∧ e.get (CHS_REC_REC c) = min rc 255
        ∧ e.get (CHS_TEC_STATE c) = (if 128 ≤ tec ∨ 128 ≤ rc then 1 else 0)
        ∧ e.get (CHS_TEC_WARN c) = b2n (96 ≤ tec || 96 ≤ rc) ∧ e.get (CHS_TEC_STUCK c) = d.get (CHS_TEC_STUCK c)
        ∧ (∀ k, k ∉ [CHS_TEC c, CHS_REC c, PG_IST (pCHS c)] → e.getW k = d.getW k) ∧ e.mem = d.mem ∧ e.chans = d.chans)
  ∧ (∀ (d : Dev) (c : Nat), d.isHead = true → busOff d c = false →
      tecUp d c = setCounters d c (d.get (CHS_TEC_TEC c) + 8) (d.get (CHS_REC_REC c))
        ∧ tecDown d c = setCounters d c (d.get (CHS_TEC_TEC c) - 1) (d.get (CHS_REC_REC c))
        ∧ recUp d c = setCounters d c (d.get (CHS_TEC_TEC c)) (d.get (CHS_REC_REC c) + 1))
  ∧ (∀ (d : Dev) (c : Nat), (d.isHead = false ∨ busOff d c = true) →
      tecUp d c = d ∧ tecDown d c = d ∧ recUp d c = d ∧ recDown d c = d)

/-- A score that rises to 96 warns, one that rises to 192 fences the node (R199, R200); fenced and sleeping nodes keep their
score (R198). -/
def Obligations.ScoresWarnAndFence : Prop :=
  (∀ (d : Dev) (c a n : Nat), 1 ≤ a → a ≤ 31 → n < 192 → let e := setScore d c a n
      e.get (CHS_NODE_SCORE c a) = n ∧ e.get (CHS_NODE_WARN c a) = b2n (decide (96 ≤ n))
        ∧ e.bit (CHS_WARNM c) a = decide (96 ≤ n) ∧ e.getW (CHS_FENCE c) = d.getW (CHS_FENCE c)
        ∧ (96 ≤ n → d.get (CHS_NODE_SCORE c a) < 96 → e.bit (PG_IST (pCHS c)) 4 = true)
        ∧ (∀ k, k ∉ [CHS_NODE c a, CHS_WARNM c, PG_IST (pCHS c)] → e.getW k = d.getW k) ∧ e.mem = d.mem)
  ∧ (∀ (d : Dev) (c a n : Nat), 1 ≤ a → a ≤ 31 → 192 ≤ n → n < 256 → let e := setScore d c a n
      fenced e c a = true ∧ e.get (CHS_NODE_FENCED c a) = 1 ∧ e.get (CHS_NODE_SCORE c a) = n
        ∧ e.get (CHS_FCNT_FENCE c) = min (d.get (CHS_FCNT_FENCE c) + 1) (fldTop (CHS_FCNT_FENCE c))
        ∧ e.get (CHS_NODE_FENCES c a) = min (d.get (CHS_NODE_FENCES c a) + 1) (fldTop (CHS_NODE_FENCES c a))
        ∧ e.bit (PG_IST (pCHS c)) 5 = true
        ∧ e.get (CHS_NODE_WARN c a) = 1 ∧ e.bit (CHS_WARNM c) a = true
        ∧ (d.get (CHS_NODE_SCORE c a) < 96 → e.bit (PG_IST (pCHS c)) 4 = true))
  ∧ (∀ (d : Dev) (c a : Nat) (up : Bool), fenced d c a = true → scoreEvent d c a up = d)

/-- Bus-off recovery (R193 to R195): TEC and REC are 0, the state is ACTIVE, RCNT rises by one, PG_IST.RECOVERED is set;
R105 still applies after RESTART and is met after the AUTO path. RCLR clears RCNT. -/
def Obligations.BusOffRecovery : Prop :=
  (∀ (s : State) (w : Who) (c : Nat), s.dev.hasChan c = true → c < s.dev.chans.length →
      Admits s w 1 (regAddr (pCHS c) 0x04C) [1] → busOff s.dev c = true → s.dev.get (CHS_BOCFG_MODE c) ≠ 0 →
    ∃ t, exec (.boctlRestart w c) s = .next t ∧ t.otp = s.otp ∧ t.pending = s.pending ∧ t.dev.mem = s.dev.mem
      ∧ t.dev.get (CHS_TEC_TEC c) = 0 ∧ t.dev.get (CHS_REC_REC c) = 0 ∧ t.dev.get (CHS_TEC_STATE c) = 0
      ∧ t.dev.get (CHS_BOSTAT_RCNT c) = min (s.dev.get (CHS_BOSTAT_RCNT c) + 1) 255
      ∧ t.dev.bit (PG_IST (pCHS c)) 3 = true ∧ (t.dev.chan c).await = true
      ∧ (t.dev.page (pCHS c)).live.contains 0 = false ∧ (∀ b, b ≠ c → t.dev.chan b = s.dev.chan b))
  ∧ (∀ (s : State) (w : Who) (c : Nat), s.dev.hasChan c = true → Admits s w 1 (regAddr (pCHS c) 0x04C) [1] →
      (busOff s.dev c = false ∨ (s.dev.get (CHS_BOCFG_MODE c) = 0 ∧ (s.dev.chan c).noAuto = false)) →
    exec (.boctlRestart w c) s = .next s)
  ∧ (∀ (s : State) (w : Who) (c : Nat), s.dev.hasChan c = true → Admits s w 1 (regAddr (pCHS c) 0x04C) [2] →
    exec (.rclr w c) s = .next (s.put (s.dev.set (CHS_BOSTAT_RCNT c) 0)))
  ∧ (∀ (s : State) (c : Nat), s.dev.powered = true → s.dev.hasChan c = true → c < s.dev.chans.length → busOff s.dev c = true →
      (s.dev.chan c).noAuto = false → (s.dev.get (CHS_BOCFG_MODE c) = 0 ∨ s.dev.get (CHS_BOCFG_MODE c) = 2) →
    ∃ t, exec (.busOffRecovery c) s = .next t ∧ t.otp = s.otp ∧ t.pending = s.pending ∧ t.dev.mem = s.dev.mem
      ∧ t.dev.get (CHS_TEC_TEC c) = 0 ∧ t.dev.get (CHS_REC_REC c) = 0 ∧ t.dev.get (CHS_TEC_STATE c) = 0
      ∧ t.dev.get (CHS_BOSTAT_RCNT c) = min (s.dev.get (CHS_BOSTAT_RCNT c) + 1) 255
      ∧ (t.dev.chan c).await = false ∧ (t.dev.chan c).mute = false)

/-- What the line does to a channel (R105, R117, R119, R121, R205), the 32 sequences of a bus-off (R193), and the automatic
unfence (R203). -/
def Obligations.LineEventsOfAChannel : Prop :=
  (∀ (s : State) (c : Nat), s.dev.powered = true → s.dev.hasChan c = true → s.dev.running (pCHC c) = true →
    exec (.txdTimeout c) s = .next (s.put
      (raise ((s.dev.inc (CHC_XSTAT_TXDTOCNT c)).ist (pCHC c) 0) (pCHC c) 0)))
  ∧ (∀ (s : State) (c : Nat), s.dev.powered = true → s.dev.hasChan c = true → s.dev.running (pCHC c) = true →
      s.dev.get (CHC_CURSTAT_STATE c) ≠ 3 → s.dev.get (CHS_TEC_STUCK c) = 0 → s.dev.get (CHC_XCVR_STBYFORCE c) = 0 →
      s.dev.get (CHC_XCVR_HBSTOP c) = 0 → busOff s.dev c = false → ((s.dev.chan c).await = true ∨ (s.dev.chan c).mute = true) →
    exec (.recessiveBitsSampled c) s = .next (s.put
      ((s.dev.advanceTo ((s.dev.chan c).awaitNs + 11 * s.dev.arbNs c)).modChan c (fun x => { x with await := false, mute := false }))))
  ∧ (∀ (s : State) (c : Nat), s.dev.powered = true → s.dev.hasChan c = true → s.dev.running (pCHC c) = true →
      s.dev.get (CHC_CURSTAT_STATE c) ≠ 3 → s.dev.get (CHS_TEC_STUCK c) = 0 → s.dev.get (CHC_XCVR_STBYFORCE c) = 0 →
      s.dev.get (CHC_XCVR_HBSTOP c) = 0 → busOff s.dev c = true → (s.dev.chan c).noAuto = false →
      (s.dev.get (CHS_BOCFG_MODE c) = 0 ∨ s.dev.get (CHS_BOCFG_MODE c) = 2) →
    exec (.recessiveBitsSampled c) s = .next (s.put
      (if 32 ≤ s.dev.get (CHS_BOSTAT_SEQ c) + 1 then autoRecovery s.dev c
       else s.dev.set (CHS_BOSTAT_SEQ c) (s.dev.get (CHS_BOSTAT_SEQ c) + 1))))
  ∧ (∀ (s : State) (c : Nat), s.dev.powered = true → s.dev.hasChan c = true → s.dev.running (pCHC c) = true →
      s.dev.get (CHC_CURSTAT_STATE c) ≠ 3 → s.dev.get (CHS_TEC_STUCK c) = 0 → s.dev.get (CHC_XCVR_STBYFORCE c) = 0 →
      s.dev.get (CHC_XCVR_HBSTOP c) = 0 → (s.dev.chan c).isolated = false → (s.dev.ham (hamOf c)).isolated = false →
    exec (.stuckDom c) s = .next (s.put (curfewCause
      (raise ((((recUp s.dev c).set (CHS_TEC_STUCK c) 1).ist (pCHS c) 7).inc (CHS_STUCK_COUNT c)) (pCHS c) 1) c 2)))
  ∧ (∀ (s : State) (c us : Nat), s.dev.powered = true → s.dev.hasChan c = true → c < s.dev.chans.length →
      s.dev.get (CHS_TEC_STUCK c) = 1 → us < 2 ^ 24 →
    ∃ t, exec (.stuckEnd c us) s = .next t ∧ t.otp = s.otp ∧ t.pending = s.pending ∧ t.dev.mem = s.dev.mem
      ∧ t.dev.get (CHS_TEC_STUCK c) = 0 ∧ t.dev.get (CHS_STUCK_MAXDUR c) = max (s.dev.get (CHS_STUCK_MAXDUR c)) us
      ∧ (t.dev.chan c).await = true ∧ (t.dev.page (pCHS c)).live.contains 1 = false
      ∧ (∀ k, k ∉ [CHS_TEC c, CHS_STUCK c, PG_FLT (pCHS c)] → t.dev.getW k = s.dev.getW k))
  ∧ (∀ (s : State) (c a e : Nat), s.dev.powered = true → s.dev.hasChan c = true → 1 ≤ a → a ≤ 31 →
      s.dev.get (CHS_NSCFG_AUTOUNF c) = 1 → s.dev.get (CHS_FENCEHOLD_HOLD c) ≠ 0 → (a, e) ∈ (s.dev.chan c).fenceUntil →
      asleepNode s.dev c a = false → e ≤ s.dev.tick + 1 → fenced s.dev c a = true → (s.dev.chan c).unfReq.contains a = false →
    ∃ t, exec (.autoUnfence c a) s = .next t ∧ t.otp = s.otp ∧ t.pending = s.pending ∧ t.dev.mem = s.dev.mem
      ∧ fenced t.dev c a = false ∧ t.dev.get (CHS_NODE_SCORE c a) = 64 ∧ t.dev.get (CHS_NODE_FENCED c a) = 0
      ∧ t.dev.get (CHS_NODE_WARN c a) = 0 ∧ t.dev.bit (PG_IST (pCHS c)) 6 = true
      ∧ t.dev.get (CHS_FCNT_UNFAUTO c) = min (s.dev.get (CHS_FCNT_UNFAUTO c) + 1) (fldTop (CHS_FCNT_UNFAUTO c)))

/-! ## Mills, keys, services, interrupts, gates -/

/-- Mills (R211, R214, R215, R219 to R222): a mismatch of a spare fails its self-test, of a serving mill halts it; GO with a
spare starts a migration from the serving mill to it, which tests itself meanwhile, and without one only reports; the
migration's end gives the hamlet the spare; self-tests report their result. -/
def Obligations.MillsMigrateAndTest : Prop :=
  (∀ (s : State) (m port ch : Nat), s.dev.powered = true → s.dev.hasMill m = true → s.dev.get (MILL_STAT_STATE m) = 2 →
    exec (.lockstepMismatch m port ⟨ch, []⟩) s = .next (s.put
      (((raise (((s.dev.inc (MILL_MMCNT_COUNT m)).setW (MILL_MMINFO m) (port * 2 ^ 28 + ch * 2 ^ 25 + s.dev.tick16)).ist
        (pMILL m) 0) (pMILL m) 0).set (MILL_BIST_RESULT m) 2).set (MILL_STAT_STATE m) 5)))
  ∧ (∀ (s : State) (m port ch : Nat), s.dev.powered = true → s.dev.hasMill m = true → s.dev.get (MILL_STAT_STATE m) = 1 →
    exec (.lockstepMismatch m port ⟨ch, []⟩) s = .next (s.put
      (millHalts (((s.dev.inc (MILL_MMCNT_COUNT m)).setW (MILL_MMINFO m) (port * 2 ^ 28 + ch * 2 ^ 25 + s.dev.tick16)).ist
        (pMILL m) 0) m 0)))
  ∧ (∀ (s : State) (w : Who) (h : Nat), s.dev.hasHam h = true → Admits s w 1 (regAddr (pHAM h) 0x044) [1] →
      (spareOf s.dev = none ∨ (s.dev.ham h).mig.isSome = true ∨ (s.dev.ham h).isolated = true) →
    exec (.migrateGo w h) s = .next (s.put (s.dev.ist (pHAM h) 2)))
  ∧ (∀ (s : State) (w : Who) (h old sp : Nat), s.dev.hasHam h = true → Admits s w 1 (regAddr (pHAM h) 0x044) [1] →
      s.dev.get (HAM_MILL_MILL h) = old → old ≠ 0xF → s.dev.get (MILL_STAT_STATE old) = 1 → spareOf s.dev = some sp →
      (s.dev.ham h).mig = none → (s.dev.ham h).isolated = false → h < s.dev.hams.length →
      s.dev.get (PG_ESC_SHADOW (pMILL old)) ≠ 0 →
    ∃ t, exec (.migrateGo w h) s = .next t ∧ t.otp = s.otp ∧ t.pending = s.pending ∧ t.dev.mem = s.dev.mem
      ∧ (t.dev.ham h).mig = some ⟨sp, some old, 3⟩ ∧ t.dev.get (MILL_STAT_STATE sp) = 3
      ∧ t.dev.get (MILL_STAT_STATE old) = 4 ∧ t.dev.get (MILL_STAT_HAM old) = 0xF
      ∧ (t.dev.page (pMILL old)).shadow.isSome = true ∧ (t.dev.page (pMILL old)).cover = some h
      ∧ t.dev.bit (PG_IST (pHAM h)) 0 = true)
  ∧ (∀ (s : State) (h ns : Nat) (g : Migration), s.dev.powered = true → (s.dev.ham h).mig = some g → h < 8 → g.spare < 15 →
      h < s.dev.hams.length → (∀ p, (s.dev.page p).quietDue ≠ 2) → (∀ c, (s.dev.chan c).outcome = none) →
    ∃ t, exec (.migrationComplete h ns) s = .next t ∧ t.otp = s.otp ∧ t.pending = s.pending ∧ t.dev.mem = s.dev.mem
      ∧ t.dev.ham h = { (s.dev.ham h) with mig := none, wheel :=
          { Wheel.fromCycle s.dev.aon.cycles with used := (s.dev.ham h).wheel.used, lent := (s.dev.ham h).wheel.lent } }
      ∧ t.dev.get (HAM_MILL_MILL h) = g.spare ∧ t.dev.get (MILL_STAT_STATE g.spare) = 1
      ∧ t.dev.get (MILL_STAT_HAM g.spare) = h
      ∧ t.dev.get (HAM_MILL_MIGCNT h) = min (s.dev.get (HAM_MILL_MIGCNT h) + 1) (fldTop (HAM_MILL_MIGCNT h))
      ∧ t.dev.bit (PG_IST (pHAM h)) 1 = true ∧ t.dev.pages = s.dev.pages ∧ t.dev.chans = s.dev.chans
      ∧ (∀ j, j ≠ h → t.dev.ham j = s.dev.ham j) ∧ t.dev.get (MILL_BIST_RESULT g.spare) ≠ 3)
  ∧ (∀ (s : State) (h : Nat), s.dev.powered = true → (s.dev.ham h).mig.isSome = true →
    exec (.hamMigtime h) s = .next (s.put (raise s.dev (pHAM h) 1)))
  ∧ (∀ (s : State) (h : Nat), s.dev.powered = true → s.dev.hasHam h = true → (s.dev.ham h).isolated = false →
      (s.dev.ham h).mig = none →
    exec (.hamCtxmem h) s = .next (s.put (isolateHam raise ((s.dev.set (MILL_STAT_STATE (s.dev.get (HAM_MILL_MILL h))) 2).set
      (MILL_STAT_HAM (s.dev.get (HAM_MILL_MILL h))) 0xF) h (some 2))))
  ∧ (∀ (s : State) (w : Who) (m : Nat), s.dev.hasMill m = true → Admits s w 1 (regAddr (pMILL m) 0x04C) [2 ^ 31] →
      (s.dev.get (MILL_STAT_STATE m) = 2 ∨ s.dev.get (MILL_STAT_STATE m) = 5) →
    exec (.bistStart (some w) m) s = .next (s.put
      ((s.dev.set (MILL_BIST_RESULT m) 3).setMill m { s.dev.mill m with asked := true })))
  ∧ (∀ (s : State) (m : Nat), s.dev.powered = true → s.dev.hasMill m = true →
      (s.dev.get (MILL_STAT_STATE m) = 2 ∨ s.dev.get (MILL_STAT_STATE m) = 4) →
    exec (.bistStart none m) s = .next (s.put (s.dev.set (MILL_BIST_RESULT m) 3)))
  ∧ (∀ (s : State) (m : Nat), s.dev.powered = true → s.dev.hasMill m = true → s.dev.get (MILL_BIST_RESULT m) = 3 →
      s.dev.get (MILL_STAT_STATE m) = 2 →
    exec (.bistComplete m true) s = .next (s.put
      ((((s.dev.inc (MILL_BIST_RUNS m)).ist (pMILL m) 1).set (MILL_BIST_RESULT m) 1).setMill m
        { s.dev.mill m with asked := false }))
      ∧ exec (.bistComplete m false) s = .next (s.put (raise
        (((((s.dev.inc (MILL_BIST_RUNS m)).ist (pMILL m) 1).set (MILL_BIST_RESULT m) 2).setMill m
          { s.dev.mill m with asked := false }).set (MILL_STAT_STATE m) 5) (pMILL m) 1)))

/-- Epoch keys (R246, R250 to R256): a change that is wanted loads NEXT with the identifier after CUR's and no confirmation;
a use count at the soft limit asks for a change; activation makes CUR the OLD key and NEXT the CUR key. -/
def Obligations.EpochKeysChange : Prop :=
  (∀ (s : State) (c : Nat) (key : BitVec 256), s.dev.powered = true → s.dev.hasChan c = true → c < s.dev.chans.length →
      s.dev.isHead = true → underCurfew s.dev c = false → (s.dev.chan c).next = none → (s.dev.chan c).epWant = 1 →
      startDue s.dev c = true → s.dev.get SEC_RNG_OK = 1 →
    ∃ t, exec (.epochChangeStart c key) s = .next t ∧ t.otp = s.otp ∧ t.pending = s.pending ∧ t.dev.mem = s.dev.mem
      ∧ (t.dev.chan c).next = some ⟨match s.dev.keyInForce c with | some k => (k.id + 1) % 65536 | none => 1, key, 0, false⟩
      ∧ (t.dev.chan c).epWant = 0 ∧ (t.dev.chan c).epDeadline = (s.dev.chan c).epStart + s.dev.get (CHX_KEYCFG_LEAD c)
      ∧ t.dev.get (CHX_CONFIRM_MASK c) = 0 ∧ (t.dev.chan c).cur = (s.dev.chan c).cur ∧ (t.dev.chan c).old = (s.dev.chan c).old)
  ∧ (∀ (s : State) (c : Nat) (key : BitVec 256), (s.dev.get SEC_RNG_OK ≠ 1 ∨ s.dev.tick < (s.dev.chan c).epStart
      ∨ s.dev.bell.started = false) → exec (.epochChangeStart c key) s = .next s)
  ∧ (∀ (s : State) (c : Nat), s.dev.powered = true → s.dev.hasChan c = true → s.dev.isHead = true →
      s.dev.get (CHX_KEYCFG_LIFE c) ≠ 0 → (s.dev.chan c).epLast + s.dev.get (CHX_KEYCFG_LIFE c) * 1024 ≤ s.dev.tick →
      (s.dev.chan c).next = none → (s.dev.chan c).epWant = 0 →
    exec (.keyLifeExpiry c) s = .next (s.put (s.dev.modChan c (fun x => { x with epWant := 1, epStart := s.dev.tick }))))
  ∧ (∀ (s : State) (c : Nat) (k : EpKey), s.dev.powered = true → s.dev.hasChan c = true → served s.dev c = true →
      (s.dev.chan c).cur = some k → 251658240 ≤ k.use → capped (s.dev.chan c) = 0 → s.dev.get (CHX_KEYUSE_SOFT c) = 0 →
      c < s.dev.chans.length →
    ∃ t, exec (.keyUseCheck c) s = .next t ∧ t.otp = s.otp ∧ t.pending = s.pending ∧ t.dev.mem = s.dev.mem
      ∧ t.dev.get (CHX_KEYUSE_SOFT c) = 1 ∧ t.dev.bit (PG_IST (pCHX c)) 5 = true
      ∧ ((s.dev.chan c).next = none → (t.dev.chan c).epWant ≠ 0) ∧ (t.dev.chan c).cur = some k)
  ∧ (∀ (s : State) (c : Nat), s.dev.powered = true → s.dev.hasChan c = true → s.dev.isHead = true → underCurfew s.dev c = false →
      (s.dev.chan c).next = none → startDue s.dev c = true →
      (s.dev.chan c).epStart + s.dev.get (CHX_KEYCFG_LEAD c) / 2 ≤ s.dev.tick →
    exec (.keyGen c) s = .next (s.put (raise (s.dev.modChan c (fun x => { x with epStart := s.dev.tick + 1 })) (pCHX c) 3)))
  ∧ (∀ (s : State) (c : Nat), s.dev.powered = true → s.dev.hasChan c = true → s.dev.isHead = true →
      (s.dev.chan c).next.isSome = true → (s.dev.chan c).epWant ≠ 3 → (s.dev.chan c).epDeadline ≤ s.dev.tick + 1 →
      allConfirmed s.dev c = true →
    exec (.epochDeadline c) s = .next (s.put (s.dev.modChan c (fun x => { x with epWant := 3 }))))
  ∧ (∀ (s : State) (c : Nat), s.dev.powered = true → s.dev.hasChan c = true → (s.dev.chan c).old.isSome = true →
      (s.dev.chan c).epLast + 16 ≤ s.dev.tick + 1 →
    exec (.oldKeyErase c) s = .next (s.put (s.dev.modChan c (fun x => { x with old := none }))))
  ∧ (∀ (s : State) (c a i k : Nat) (ek : BitVec 256) (key : EpKey), s.dev.powered = true → s.dev.hasChan c = true →
      s.dev.isHead = true → keyToSend s.dev c a = some k → enrollKey s.dev c a = some ek → slotKey s.dev c k = some key →
      fenced s.dev c a = false → asleepNode s.dev c a = false → inRange s.dev c i false = true → s.dev.entry c i = none →
    ∃ t d, exec (.keyFramePush c a i) s = .next t ∧ t.otp = s.otp ∧ t.pending = s.pending
      ∧ t.dev = pushOp raise d c i ⟨none, none, false, true⟩
      ∧ d.mem = ((((s.dev.setDesc i 0 (1 * 2 ^ 30 + 5 * 2 ^ 25 + 2 * 2 ^ 22 + 0x3FFF00 + a)).setDesc i 1
          (15 * 2 ^ 28 + 52 * 2 ^ 16)).setMemB (granAddr (bitsOf (((s.dev.setDesc i 0 (1 * 2 ^ 30 + 5 * 2 ^ 25 + 2 * 2 ^ 22
          + 0x3FFF00 + a)).setDesc i 1 (15 * 2 ^ 28 + 52 * 2 ^ 16)).desc i 2) 16 0)) (keyPayload ek a key.id key.key)).mem)
      ∧ d.regs = s.dev.regs)
  ∧ (∀ (d : Dev) (c t : Nat), c < d.chans.length → let e := activate d c t
      (e.chan c).old = (d.chan c).cur ∧ (e.chan c).cur = (d.chan c).next ∧ (e.chan c).next = none
        ∧ (e.chan c).epLast = t ∧ e.get (CHX_EPCNT_CHANGES c) = min (d.get (CHX_EPCNT_CHANGES c) + 1) (fldTop (CHX_EPCNT_CHANGES c))
        ∧ e.bit (PG_IST (pCHX c)) 4 = true ∧ (∀ b, b ≠ c → e.chan b = d.chan b))

/-- Services (R323, R325, R326, R330, R334): the oldest open work of a tick is closed; a request with an operand that R325
refuses takes its status without an entry; a cancelled entry ends; SOEREL advances the ring's read index. -/
def Obligations.ServicesWorkAndTimedOutputs : Prop :=
  (∀ (s : State) (k : SvcWork) (l : List SvcWork), s.dev.powered = true → s.dev.svc.work = k :: l → s.dev.works 0x50 = true →
      s.dev.get DEV_VIGSTAT_STATE = 0 →
    ∃ t, exec .servicesTickWork s = .next t ∧ t.otp = s.otp ∧ t.pending = s.pending
      ∧ t.dev.svc.work = l ∧ t.dev.svc.outs = s.dev.svc.outs ∧ t.dev.chans = s.dev.chans ∧ t.dev.pages = s.dev.pages
      ∧ t.dev.flash = s.dev.flash)
  ∧ (∀ s : State, s.dev.svc.work = [] → exec .servicesTickWork s = .next s)
  ∧ (∀ (s : State) (w : Who) (n : Nat) (w7 : Word), n < 8 →
      let v := putBit w7.toNat 31 true
      let d := writeFields s.dev 0x53 (0x11C + 0x20 * n) v
      Admits s w 1 (regAddr 0x53 (0x11C + 0x20 * n)) [v] →
    exec (.timedOutputRequest w n w7) s = .next (s.put (toRequest d n v)))
  ∧ (∀ (d : Dev) (n w7 : Nat), n < 8 → (d.hasChan (bitsOf (d.getW (SVC_TOREQ n 0)) 31 26) = false ∨ 16 < bitsOf w7 4 0
      ∨ 1000000000 ≤ bitsOf (d.getW (SVC_TOREQ n 2)) 29 0) →
    (toRequest d n w7).getW (SVC_TORES n) = 2 ^ 31 + 8 * 2 ^ 24 + 0x1FFF ∧ (toRequest d n w7).svc = d.svc)
  ∧ (∀ (d : Dev) (n m v : Nat), d.get TWIN_STAT_ROLE ≠ 2 → n < 8 → v < 2 ^ 32 → bitOf v 31 = true → scopeOp (d.ses n).scope 4 = true →
      toInScope d n (bitsOf (d.getW (SVC_TOREQ n 0)) 31 26) (bitsOf (d.getW (SVC_TOREQ n 0)) 21 0) = false →
      m = regAddr 0x53 (0x11C + 0x20 * n) → regReason d (.session n) [(m, v)] m v = 7)
  ∧ (∀ (s : State) (m : Nat) (val : Word) (o : TimedOut), Admits s (.session m) 1 (regAddr 0x53 0x048) [val.toNat] →
      bitOf val.toNat 31 = true →
      s.dev.svc.outs.find? (fun o => o.handle == bitsOf val.toNat 12 0 && o.sess == m) = some o → o.desc = none →
    exec (.tocan (.session m) val) s = .next (s.put (toEnd s.dev (bitsOf val.toNat 12 0) 5 0)))
  ∧ (∀ (s : State) (w : Who) (n : Nat), n < 2 ^ 16 → Admits s w 1 (regAddr 0x52 0x04C) [n] →
      let m := min n (s.dev.get SVC_SOEFILL_FILL)
    ∃ t, exec (.soerel w n) s = .next t ∧ t.otp = s.otp ∧ t.pending = s.pending ∧ t.dev.mem = s.dev.mem
      ∧ t.dev.get SVC_SOEFILL_FILL = s.dev.get SVC_SOEFILL_FILL - m
      ∧ t.dev.get SVC_SOESTAT_RD = (s.dev.get SVC_SOESTAT_RD + m) % 65536
      ∧ t.dev.get SVC_SOESTAT_WR = s.dev.get SVC_SOESTAT_WR
      ∧ (∀ k, k ≠ SVC_SOEFILL → k ≠ SVC_SOESTAT → t.dev.getW k = s.dev.getW k))

/-- The interrupt controller (R383 to R398): raises count to 255; a pending source goes to the target chosen; a claim with
the tag of the offer makes the source ACTIVE, any other reads 1,023 and counts; a completion ends it; offers retract. -/
def Obligations.InterruptsRaiseDeliverClaimComplete : Prop :=
  (∀ (s : State) (w : Who) (n : Nat), Admits s w 1 (regAddr 0x30 0x044) [n] → 512 ≤ n → n < 1023 →
      s.dev.get (INTC_SRC_CE n) = 0 →
    ∃ t, exec (.swdb w n) s = .next t ∧ t.otp = s.otp ∧ t.pending = s.pending ∧ t.dev.mem = s.dev.mem
      ∧ raisesOf t.dev n = min (raisesOf s.dev n + 1) 255 ∧ srcPending t.dev n = true ∧ t.dev.regs = s.dev.regs)
  ∧ (∀ (s : State) (w : Who) (n : Nat), Admits s w 1 (regAddr 0x30 0x044) [n] → (n < 512 ∨ n = 1023) →
    exec (.swdb w n) s = .next (s.put ((s.dev.inc INTC_ERRCNT_BADRAISE).ist 0x30 1)))
  ∧ (∀ (s : State) (w : Who) (n : Nat) (en : Bool), n < 1023 →
      Admits s w 1 (regAddr (0x32 + n / 256) (0x400 + 4 * (n % 256))) [putBit (s.dev.pendingW (INTC_SRC n)) 31 en] →
    ∃ t, exec (.sourceMask w n en) s = .next t ∧ t.otp = s.otp ∧ t.pending = s.pending ∧ t.dev.mem = s.dev.mem
      ∧ t.dev.get (INTC_SRC_EN n) = b2n en)
  ∧ (∀ (s : State) (n t : Nat), s.dev.powered = true → s.dev.works 0x30 = true → deliverable s.dev n = true →
      chooseTarget s.dev n = some t → t < 4 →
    ∃ u, exec (.delivery n) s = .next u ∧ u.otp = s.otp ∧ u.pending = s.pending ∧ u.dev.mem = s.dev.mem
      ∧ offered u.dev t n = true
      ∧ u.dev.get (INTC_OFFER_TAG t) = (s.dev.get (INTC_OFFER_TAG t) + 1) % 2 ^ ((INTC_OFFER_TAG t).hi + 1 - (INTC_OFFER_TAG t).lo)
      ∧ (∀ k, k ≠ INTC_OFFER t → k ≠ INTC_CNT → u.dev.getW k = s.dev.getW k))
  ∧ (∀ (s : State) (n : Nat), deliverable s.dev n = false → exec (.delivery n) s = .next s)
  ∧ (∀ (s : State) (p : Priv) (t n tag : Nat), t < 4 → n < 1024 → tag < 16 →
      Admits s (.steward t p) 1 (regAddr 0x31 (0x104 + 0x40 * t)) [tag * 2 ^ 16 + n] →
      offered s.dev t n = true → s.dev.get (INTC_OFFER_TAG t) = tag →
    ∃ u, exec (.claim (.steward t p) t n tag) s = .next u ∧ u.otp = s.otp ∧ u.pending = s.pending ∧ u.dev.mem = s.dev.mem
      ∧ srcActive u.dev n = true ∧ u.dev.get (INTC_OFFER_VALID t) = 0 ∧ u.dev.get (INTC_CLAIMED_SRC t) = n
      ∧ raisesOf u.dev n = 0)
  ∧ (∀ (s : State) (p : Priv) (t n tag : Nat), t < 4 → n < 1024 → tag < 16 →
      Admits s (.steward t p) 1 (regAddr 0x31 (0x104 + 0x40 * t)) [tag * 2 ^ 16 + n] →
      (offered s.dev t n = false ∨ s.dev.get (INTC_OFFER_TAG t) ≠ tag) →
    ∃ u, exec (.claim (.steward t p) t n tag) s = .next u ∧ u.otp = s.otp ∧ u.pending = s.pending ∧ u.dev.mem = s.dev.mem
      ∧ u.dev.get (INTC_CLAIMED_SRC t) = 1023 ∧ u.dev.intc.active = s.dev.intc.active
      ∧ u.dev.get INTC_CNT_SPURIOUS = min (s.dev.get INTC_CNT_SPURIOUS + 1) (fldTop INTC_CNT_SPURIOUS))
  ∧ (∀ (s : State) (p : Priv) (t n b : Nat), t < 4 → n < 1024 →
      Admits s (.steward t p) 1 (regAddr 0x31 (0x108 + 0x40 * t)) [n] → (n, t, b) ∈ s.dev.intc.active →
    ∃ u, exec (.complete (.steward t p) t n) s = .next u ∧ u.otp = s.otp ∧ u.pending = s.pending ∧ u.dev.mem = s.dev.mem
      ∧ u.dev.regs = s.dev.regs ∧ (∀ b, (n, t, b) ∉ u.dev.intc.active))
  ∧ (∀ (s : State) (t : Nat), s.dev.powered = true → t < 4 → s.dev.get (INTC_OFFER_VALID t) = 1 →
      eligible s.dev (s.dev.get (INTC_OFFER_SRC t)) t = false →
    exec (.retraction t) s = .next (s.put ((s.dev.set (INTC_OFFER_VALID t) 0).inc INTC_CNT_RETRACT)))
  ∧ (∀ (s : State) (t : Nat), s.dev.powered = true → t < 4 →
      (s.dev.get (INTC_OFFER_VALID t) = 0 ∨ eligible s.dev (s.dev.get (INTC_OFFER_SRC t)) t = true) →
    ∃ u, exec (.retraction t) s = .next u ∧ u.otp = s.otp ∧ u.pending = s.pending ∧ u.dev.mem = s.dev.mem
      ∧ u.dev.get (INTC_OFFER_VALID t) = 0 ∧ targetAwake u.dev t = false ∧ u.dev.intc.active = s.dev.intc.active
      ∧ (∀ k, k ≠ INTC_OFFER t → k ≠ INTC_CNT → u.dev.getW k = s.dev.getW k))
  ∧ (∀ (s : State) (g : Nat), s.dev.powered = true → g < 64 → s.dev.get (INTC_COALST_HELD g) ≠ 0 →
    ∃ u, exec (.coalescingRelease g) s = .next u ∧ u.otp = s.otp ∧ u.pending = s.pending ∧ u.dev.mem = s.dev.mem
      ∧ u.dev.get (INTC_COALST_HELD g) = 0 ∧ (∀ k, k ≠ INTC_COALST g → u.dev.getW k = s.dev.getW k)
      ∧ (∀ n, n < 1023 → s.dev.get (INTC_SRC_COAL n) = g → groupHolds u.dev n = false)
      ∧ (∀ e ∈ u.dev.intc.heldAt, e ∈ s.dev.intc.heldAt ∧ e.1 ≠ g))

/-- Gates and captured reads (R63, R81, R339, R436 to R438): GO with a well-formed table drains, a second GO is refused as
BUSY; the drain's end puts every staged entry into force and raises GEN; reads of TICKLO and NOWLO capture the rest of the
value. -/
def Obligations.GateCommitsAndCapturedReads : Prop :=
  (∀ (s : State) (w : Who), Admits s w 1 (regAddr 0x40 0x044) [2 ^ 31] → s.dev.get GATE_COMMIT_BUSY = 1 →
    exec (.gateCommit w) s = .next (s.put
      ((((s.dev.set GATE_COMMIT_ERR 4).set GATE_COMMIT_ENTA 0).set GATE_COMMIT_ENTB 0).ist 0x40 2)))
  ∧ (∀ (s : State) (w : Who) (a b : Nat), Admits s w 1 (regAddr 0x40 0x044) [2 ^ 31] → s.dev.get GATE_COMMIT_BUSY ≠ 1 →
      s.dev.cert = false → tableError (stgEntry s.dev) = (0, a, b) →
    exec (.gateCommit w) s = .next (s.put
      (({ s.dev with gate := { s.dev.gate with drain := some (stagedList s.dev), byGo := true } }).set GATE_COMMIT_BUSY 1)))
  ∧ (∀ (s : State) (l : List (Nat × Word × Word)), s.dev.powered = true → s.dev.gate.drain = some l →
    ∃ t, exec .gateDrainComplete s = .next t ∧ t.otp = s.otp ∧ t.pending = s.pending ∧ t.dev.mem = s.dev.mem
      ∧ t.dev.gate.drain = none ∧ t.dev.get GATE_COMMIT_BUSY = 0 ∧ t.dev.bit (PG_IST 0x40) 1 = true
      ∧ t.dev.get GATE_GEN_GEN = (s.dev.get GATE_GEN_GEN + 1) % 2 ^ (GATE_GEN_GEN.hi + 1 - GATE_GEN_GEN.lo)
      ∧ (∀ i, 16 ≤ i → i < 256 → tblW t.dev i 0 = (listEntry s.dev l i).1 % 2 ^ 32 ∧ tblW t.dev i 1 = (listEntry s.dev l i).2 % 2 ^ 32)
      ∧ (∀ i, i < 16 → tblW t.dev i 0 = tblW s.dev i 0 ∧ tblW t.dev i 1 = tblW s.dev i 1))
  ∧ (∀ s : State, s.dev.gate.drain = none → exec .gateDrainComplete s = .next s)
  ∧ (∀ (s : State) (w : Who), Admits s w 1 (regAddr 2 0x054) [2 ^ 31] →
    exec (.bslackRestart w) s = .next (s.put (s.dev.set DEV_BSLACK_MIN 0xFFFFFF)))
  ∧ (∀ (s : State) (w : Who), Admits s w 0 (regAddr 2 0x044) [] →
    exec (.devTickloRead w) s = .next (s.put (s.dev.setW DEV_TICKHI (s.dev.tick / 2 ^ 32 % 2 ^ 16))))
  ∧ (∀ (s : State) (w : Who), Admits s w 0 (regAddr 0x10 0x048) [] →
    exec (.timeNowloRead w) s = .next (s.put ((((s.dev.setW TIME_NOWLO (s.dev.nowSec % 2 ^ 32)).setW TIME_NOWHI
      (s.dev.nowSec / 2 ^ 32)).setW TIME_NOWNS s.dev.nowSub).setW TIME_NOWFRAC (s.dev.aon.time % 2 ^ 48 / 2 ^ 32))))

/-! ## Time, curfew and vigil -/

/-- Time (R340, R343 to R348): a Sync of an ABSENT domain that is capable takes it to ACQUIRE with its path delay, also
beside one of the other domain in the same cycle; one that no domain hears changes nothing; three offsets within 1 us lock
it; an Announce records the grandmaster; peer delay decides asCapable and answers a request; a lost domain is ABSENT; the
holdover limit raises once. -/
def Obligations.TimeDomainsAndHoldover : Prop :=
  (∀ (s : State) (x : Side) (m : SyncMsg), s.dev.powered = true → domHears s.dev x.num = true → domState s.dev x.num = 0 →
    ∃ t, exec (.sync x ⟨m, none⟩) s = .next t ∧ t.otp = s.otp ∧ t.pending = s.pending ∧ t.dev.mem = s.dev.mem
      ∧ t.dev.chans = s.dev.chans ∧ domState t.dev x.num = 1 ∧ t.dev.get (TIME_DPD_PD x.num) = m.pd % 2 ^ 32)
  ∧ (∀ (s : State) (x : Side) (m o : SyncMsg), s.dev.powered = true → domHears s.dev 0 = true → domHears s.dev 1 = true →
      domState s.dev 0 = 0 → domState s.dev 1 = 0 →
    ∃ t, exec (.sync x ⟨m, some o⟩) s = .next t ∧ t.otp = s.otp ∧ t.pending = s.pending ∧ t.dev.mem = s.dev.mem
      ∧ t.dev.chans = s.dev.chans ∧ domState t.dev 0 = 1 ∧ domState t.dev 1 = 1)
  ∧ (∀ (s : State) (x : Side) (m : SyncMsg), domHears s.dev x.num = false → exec (.sync x ⟨m, none⟩) s = .next s)
  ∧ (∀ (d : Dev) (x : Nat) (o a b : Int), x < d.tim.doms.length → x < 2 → (d.dom x).acq = [a, b] →
      absInt (o - a) ≤ 1000 → absInt (o - b) ≤ 1000 → absInt (a - b) ≤ 1000 →
    domState (acquire d x o) x = 2 ∧ (acquire d x o).bit (PG_IST (pDOM x)) 0 = true)
  ∧ (∀ (d : Dev) (x : Nat), d.get TIME_STAT_STATE ≠ 1 ∨ d.get TIME_STAT_SEL ≠ x → steer d x = d)
  ∧ (∀ (s : State) (x : Side) (gm utc steps : Nat), s.dev.powered = true → s.dev.upOk x.num = true →
      s.dev.get (TIME_DCFG_OFF x.num) = 0 → gm < 2 ^ 64 → (s.dev.dom x.num).gm = none → x.num < s.dev.tim.doms.length →
    ∃ t, exec (.announce x gm ⟨utc, steps⟩) s = .next t ∧ t.otp = s.otp ∧ t.pending = s.pending ∧ t.dev.mem = s.dev.mem
      ∧ t.dev.getW (TIME_GMIDHI x.num) = gm / 2 ^ 32 ∧ t.dev.getW (TIME_GMIDLO x.num) = gm % 2 ^ 32
      ∧ t.dev.dom x.num = { (s.dev.dom x.num) with gm := some gm, steps := steps } ∧ domState t.dev x.num = domState s.dev x.num)
  ∧ (∀ (s : State) (x : Side), s.dev.powered = true →
    (s.dev.upOk x.num = true → exec (.pdelayReq x) s = .next (s.put
      (((s.dev.inc (UPL_RXCNT_COUNT x.num)).inc (UPL_TXCNT_COUNT x.num)).emit (.pdelay x true)))
      ∧ exec (.pdelaySend x) s = .next (s.put ((s.dev.inc (UPL_TXCNT_COUNT x.num)).emit (.pdelay x false))))
    ∧ (s.dev.upOk x.num = false → exec (.pdelayReq x) s = .next s ∧ exec (.pdelaySend x) s = .next s
      ∧ ∀ mld ppm, exec (.pdelayResp x mld ppm) s = .next s))
  ∧ (∀ (s : State) (x : Side) (mld : Nat) (ppm : Int), s.dev.powered = true → s.dev.upOk x.num = true → mld ≤ 800 →
      absInt ppm ≤ 200 →
    ∃ t, exec (.pdelayResp x mld ppm) s = .next t ∧ t.otp = s.otp ∧ t.pending = s.pending ∧ t.dev.mem = s.dev.mem
      ∧ t.dev.get (TIME_DSTAT_ASCAP x.num) = 1 ∧ t.dev.get (TIME_DLINK_MLD x.num) = mld
      ∧ domState t.dev x.num = domState s.dev x.num)
  ∧ (∀ (s : State) (x : Side) (why : SyncLoss), s.dev.powered = true → domState s.dev x.num = 1 → s.dev.aon.set = false →
    ∃ t, exec (.syncTimeout x why) s = .next t ∧ t.otp = s.otp ∧ t.pending = s.pending ∧ t.dev.mem = s.dev.mem
      ∧ t.dev.chans = s.dev.chans ∧ domState t.dev x.num = 0)
  ∧ (∀ s : State, s.dev.powered = true → s.dev.get TIME_STAT_STATE = 2 → s.dev.get TIME_HOLDLIM_SEC ≠ 0 →
      s.dev.tim.holdRaised = false →
      let d := s.dev.advanceTo ((s.dev.tim.holdStart + s.dev.get TIME_HOLDLIM_SEC) * 1000000000)
    exec .timeHoldlim s = .next (s.put (raise { d with tim := { d.tim with holdRaised := true } } 0x10 0)))

/-- Curfew (R359 to R369): AWAKE to CALLED to ENTRY to ASLEEP to WAKING, each with the registers it changes and nothing
else: a call when the channel has been free of criers for long enough and neither need nor veto holds, the commit two ticks
later, sleep 100 us after the bell's interframe space; a need, a veto, a pattern or a WAKE write aborts a call and wakes a
sleeping channel; a veto is the bit of its session. -/
def Obligations.CurfewCallsSleepsAndWakes : Prop :=
  (∀ (s : State) (c : Nat), s.dev.powered = true → s.dev.hasChan c = true → c < s.dev.chans.length →
      s.dev.get (CHC_CURSTAT_STATE c) = 0 → bitOf (s.dev.pendingW (CHC_CURCFG c)) 31 = true →
      max (bitsOf (s.dev.pendingW (CHC_CURCFG c)) 15 0) 1 ≤ min (s.dev.get (CHC_CURSTAT_IDLE c) + 1) 65535 →
      needed s.dev c = false → s.dev.get (CHC_VETO_MASK c) = 0 → s.dev.running (pCHC c) = true →
    ∃ t, exec (.curfewCall c) s = .next t ∧ t.otp = s.otp ∧ t.pending = s.pending
      ∧ OnlyChan [CHC_CURSTAT c, CHC_CURCNT c, PG_IST (pCHC c)] c s.dev t.dev
      ∧ t.dev.get (CHC_CURSTAT_STATE c) = 1 ∧ t.dev.bit (PG_IST (pCHC c)) 8 = true
      ∧ t.dev.get (CHC_CURCNT_CALLS c) = min (s.dev.get (CHC_CURCNT_CALLS c) + 1) (fldTop (CHC_CURCNT_CALLS c))
      ∧ t.dev.chan c = { (s.dev.chan c) with callTick := s.dev.tick + 1 })
  ∧ (∀ (s : State) (c : Nat), s.dev.powered = true → s.dev.hasChan c = true → c < s.dev.chans.length →
      s.dev.get (CHC_CURSTAT_STATE c) = 1 → (s.dev.chan c).callTick + 2 ≤ s.dev.tick + 1 →
    ∃ t, exec (.curfewCommit c) s = .next t ∧ t.otp = s.otp ∧ t.pending = s.pending
      ∧ OnlyChan [CHC_CURSTAT c, PG_IST (pCHC c)] c s.dev t.dev
      ∧ t.dev.get (CHC_CURSTAT_STATE c) = 2 ∧ t.dev.bit (PG_IST (pCHC c)) 9 = true
      ∧ t.dev.chan c = { (s.dev.chan c) with callTick := s.dev.tick + 1 - 2 })
  ∧ (∀ (s : State) (c : Nat), s.dev.powered = true → s.dev.hasChan c = true → s.dev.get (CHC_CURSTAT_STATE c) = 2 →
      (s.dev.chan c).bell = .sent →
    ∃ t, exec (.sleep c) s = .next t ∧ t.otp = s.otp ∧ t.pending = s.pending
      ∧ (∀ k, k ∉ [CHC_CURSTAT c, CHC_SLPCNT c, PG_IST (pCHC c)] → t.dev.getW k = s.dev.getW k)
      ∧ { t.dev with regs := s.dev.regs, aon := s.dev.aon } = s.dev
      ∧ t.dev.nowNs = max s.dev.nowNs (max (s.dev.bell.inst + (s.dev.chan c).bellFin + 3 * s.dev.arbNs c + 100000)
          (s.dev.chan c).idleNs)
      ∧ t.dev.get (CHC_CURSTAT_STATE c) = 3 ∧ t.dev.bit (PG_IST (pCHC c)) 11 = true
      ∧ t.dev.get (CHC_SLPCNT_SLEEPS c) = min (s.dev.get (CHC_SLPCNT_SLEEPS c) + 1) (fldTop (CHC_SLPCNT_SLEEPS c)))
  ∧ (∀ (s : State) (c : Nat), s.dev.powered = true → s.dev.hasChan c = true → c < s.dev.chans.length →
      s.dev.running (pCHC c) = true → s.dev.get DEV_VIGSTAT_STATE = 0 → s.dev.get (CHC_CURSTAT_STATE c) = 3 →
      s.dev.isHead = true →
    ∃ t, exec (.wakePattern c) s = .next t ∧ t.otp = s.otp ∧ t.pending = s.pending
      ∧ OnlyChan [CHC_CURSTAT c] c s.dev t.dev
      ∧ t.dev.get (CHC_CURSTAT_STATE c) = 4 ∧ t.dev.get (CHC_CURSTAT_CAUSE c) = 1
      ∧ t.dev.chan c = { (s.dev.chan c) with wakeNs := s.dev.nowNs, await := true, awaitNs := s.dev.nowNs + 50000 })
  ∧ (∀ (s : State) (c : Nat), s.dev.powered = true → s.dev.hasChan c = true → s.dev.running (pCHC c) = true →
      s.dev.get DEV_VIGSTAT_STATE = 0 → hears s.dev c = true → s.dev.get (CHC_CURSTAT_STATE c) ≤ 2 →
      let d := rxError (countLineErr s.dev c 1) c 0 false
    exec (.wakePattern c) s = .next (s.put (if d.isHead = true then curfewCause d c 1 else d)))
  ∧ (∀ (s : State) (c : Nat), s.dev.get DEV_VIGSTAT_STATE = 0 →
      (s.dev.hasChan c = false ∨ s.dev.running (pCHC c) = false) → exec (.wakePattern c) s = .next s)
  ∧ (∀ (s : State) (c : Nat), s.dev.powered = true → s.dev.hasChan c = true → s.dev.get (CHC_CURSTAT_STATE c) = 3 →
    ∃ t, exec (.falseWake c) s = .next t ∧ t.otp = s.otp ∧ t.pending = s.pending
      ∧ OnlyRegs [CHC_WAKECNT c, PG_IST (pCHC c)] s.dev t.dev ∧ t.dev.bit (PG_IST (pCHC c)) 13 = true
      ∧ t.dev.get (CHC_WAKECNT_FALSE c) = min (s.dev.get (CHC_WAKECNT_FALSE c) + 1) (fldTop (CHC_WAKECNT_FALSE c)))
  ∧ (∀ (s : State) (w : Who) (c : Nat), s.dev.hasChan c = true → c < s.dev.chans.length →
      Admits s w 1 (regAddr (pCHC c) 0x10C) [1] →
    ((s.dev.get (CHC_CURSTAT_STATE c) = 1 ∨ s.dev.get (CHC_CURSTAT_STATE c) = 2) →
      ∃ t, exec (.curctlWake w c) s = .next t ∧ t.otp = s.otp ∧ t.pending = s.pending
        ∧ OnlyChan [CHC_CURSTAT c, CHC_CURCNT c, PG_IST (pCHC c)] c s.dev t.dev
        ∧ t.dev.get (CHC_CURSTAT_STATE c) = 0 ∧ t.dev.get (CHC_CURSTAT_IDLE c) = 0 ∧ t.dev.bit (PG_IST (pCHC c)) 10 = true
        ∧ t.dev.get (CHC_CURCNT_ABORTS c) = min (s.dev.get (CHC_CURCNT_ABORTS c) + 1) (fldTop (CHC_CURCNT_ABORTS c))
        ∧ t.dev.chan c = { (s.dev.chan c) with call := false, commit := false })
    ∧ (s.dev.get (CHC_CURSTAT_STATE c) = 3 →
      ∃ t, exec (.curctlWake w c) s = .next t ∧ t.otp = s.otp ∧ t.pending = s.pending
        ∧ OnlyChan [CHC_CURSTAT c] c s.dev t.dev
        ∧ t.dev.get (CHC_CURSTAT_STATE c) = 4 ∧ t.dev.get (CHC_CURSTAT_CAUSE c) = 4
        ∧ t.dev.chan c = { (s.dev.chan c) with wakeNs := s.dev.nowNs, await := true, awaitNs := s.dev.nowNs + 50000 })
    ∧ ((s.dev.get (CHC_CURSTAT_STATE c) = 0 ∨ s.dev.get (CHC_CURSTAT_STATE c) = 4) → exec (.curctlWake w c) s = .next s))
  ∧ (∀ (s : State) (n c : Nat), n < 8 → s.dev.hasChan c = true → Admits s (.session n) 1 (regAddr (pCHC c) 0x110) [1] →
    ∃ t, exec (.vetoSet (.session n) c) s = .next t ∧ t.otp = s.otp ∧ t.pending = s.pending
      ∧ OnlyChan [CHC_VETO c, CHC_CURSTAT c, CHC_CURCNT c, PG_IST (pCHC c)] c s.dev t.dev
      ∧ bitOf (t.dev.get (CHC_VETO_MASK c)) n = true
      ∧ (∀ j, j ≠ n → bitOf (t.dev.get (CHC_VETO_MASK c)) j = bitOf (s.dev.get (CHC_VETO_MASK c)) j)
      ∧ (s.dev.get (CHC_CURSTAT_STATE c) = 1 ∨ s.dev.get (CHC_CURSTAT_STATE c) = 2 → t.dev.get (CHC_CURSTAT_STATE c) = 0)
      ∧ (s.dev.get (CHC_CURSTAT_STATE c) = 3 → t.dev.get (CHC_CURSTAT_STATE c) = 4 ∧ t.dev.get (CHC_CURSTAT_CAUSE c) = 3))
  ∧ (∀ (s : State) (n c : Nat), n < 8 → s.dev.hasChan c = true → Admits s (.session n) 1 (regAddr (pCHC c) 0x110) [0] →
    ∃ t, exec (.vetoClear (.session n) c) s = .next t ∧ t.otp = s.otp ∧ t.pending = s.pending
      ∧ OnlyRegs [CHC_VETO c] s.dev t.dev ∧ bitOf (t.dev.get (CHC_VETO_MASK c)) n = false
      ∧ (∀ j, j ≠ n → bitOf (t.dev.get (CHC_VETO_MASK c)) j = bitOf (s.dev.get (CHC_VETO_MASK c)) j))

/-- Vigil (R376 to R380): under its conditions the entry starts and completes; an exit cause ends it without keys on any
segment; an exit whose restore fails restarts the part with device time kept and cause 3. -/
def Obligations.VigilEntersAndEnds : Prop :=
  (∀ s : State, s.dev.powered = true → s.dev.get DEV_VIGSTAT_STATE = 0 → s.dev.get TWIN_STAT_ROLE ≠ 2 →
      vigilReady s.dev = true →
    ∃ t, exec .vigilEntry s = .next t ∧ t.otp = s.otp ∧ t.pending = s.pending ∧ t.dev.mem = s.dev.mem
      ∧ t.dev.get DEV_VIGSTAT_STATE = 1 ∧ (∀ n, n < 4 → t.dev.get (INTC_OFFER_VALID n) = 0) ∧ t.dev.chans = s.dev.chans)
  ∧ (∀ s : State, vigilReady s.dev = false → exec .vigilEntry s = .next s)
  ∧ (∀ s : State, s.dev.powered = true → s.dev.get DEV_VIGSTAT_STATE = 1 → uplinkIdle s.dev = true →
    ∃ t, exec .vigilEntryComplete s = .next t ∧ t.otp = s.otp ∧ t.pending = s.pending
      ∧ (∀ a, a < 0x1000000 ∨ 0x1040000 ≤ a → Memory.get t.dev.mem a = Memory.get s.dev.mem a)
      ∧ t.dev.get DEV_VIGSTAT_STATE = 2 ∧ t.dev.bit (PG_IST 3) 0 = true ∧ t.dev.vigSaved = true ∧ t.dev.chans = s.dev.chans
      ∧ t.dev.get DEV_VIGSTAT_ENTRIES = min (s.dev.get DEV_VIGSTAT_ENTRIES + 1) (fldTop DEV_VIGSTAT_ENTRIES)
      ∧ (∀ k, k ≠ DEV_VIGSTAT → k ≠ PG_IST 3 → t.dev.getW k = s.dev.getW k))
  ∧ (∀ s : State, s.dev.get DEV_VIGSTAT_STATE ≠ 1 → exec .vigilEntryComplete s = .next s)
  ∧ (∀ (s : State) (v : VigilCause) (st : Straps), s.dev.powered = true → s.dev.get DEV_VIGSTAT_STATE = 2 → s.dev.vigHeld = [] →
    ∃ t, exec (.vigilExit v true st) s = .next t ∧ t.otp = s.otp ∧ t.pending = s.pending ∧ t.dev.mem = s.dev.mem
      ∧ t.dev.get DEV_VIGSTAT_STATE = 0 ∧ t.dev.get DEV_VIGSTAT_CAUSE = VigilCause.code v ∧ t.dev.bit (PG_IST 3) 1 = true
      ∧ (∀ c, (t.dev.chan c).cur = none ∧ (t.dev.chan c).old = none ∧ (t.dev.chan c).next = none))
  ∧ (∀ (s : State) (v : VigilCause) (st : Straps), s.dev.powered = true → s.dev.get DEV_VIGSTAT_STATE = 2 →
    ∃ t, exec (.vigilExit v false st) s = .next t ∧ t.otp = (firstPower s).otp ∧ t.pending = s.pending ∧ t.dev.straps = st
      ∧ t.dev.aon.time = s.dev.aon.time ∧ t.dev.aon.set = s.dev.aon.set ∧ t.dev.aon.cause = 3)

/-! ## Packages -/

/-- Packages are loaded, verified, disarmed and erased as R289 to R293 say: the load starts anew and belongs to its session,
a chunk counts when flash holds it, a whole package is LOADED, a check that fails rejects with its reason, and a command in
a state that does not admit it changes LASTERR alone. -/
def Obligations.PackagesAreLoadedAndVerified : Prop :=
  (∀ (s : State) (n len q : Nat), len % 4 = 0 → 128 ≤ len → len ≤ 65536 → q < 2 ^ 14 →
      Admits s (.session n) 1 (regAddr 0x60 0x048) [2 ^ 31 + q * 2 ^ 17 + len] → stagedSt s.dev ≠ 3 → stagedSt s.dev ≠ 5 →
    ∃ t, exec (.cfgLoadFirst (.session n) len q) s = .next t ∧ t.otp = s.otp ∧ t.pending = s.pending ∧ t.dev.mem = s.dev.mem
      ∧ stagedSt t.dev = 1 ∧ t.dev.get CFG_LOADED_BYTES = 0 ∧ t.dev.cfg.loading = [] ∧ t.dev.cfg.chunks = [windowBytes s.dev len]
      ∧ t.dev.cfg.lsess = some n ∧ t.dev.cfg.permit = none ∧ t.dev.flash.staged = none ∧ t.dev.flash.active = s.dev.flash.active
      ∧ t.dev.flash.previous = s.dev.flash.previous)
  ∧ (∀ (s : State) (n len q : Nat), len < 2 ^ 17 → q < 2 ^ 14 →
      Admits s (.session n) 1 (regAddr 0x60 0x048) [2 ^ 31 + q * 2 ^ 17 + len] →
      stagedSt s.dev = 3 ∨ stagedSt s.dev = 5 →
    exec (.cfgLoadFirst (.session n) len q) s = .next (s.put (s.dev.set CFG_STAT_LASTERR 14)))
  ∧ (∀ (s : State) (n len q : Nat), len < 2 ^ 17 → q < 2 ^ 14 →
      Admits s (.session n) 1 (regAddr 0x60 0x048) [2 ^ 31 + q * 2 ^ 17 + len] →
      stagedSt s.dev ≠ 3 → stagedSt s.dev ≠ 5 → (len % 4 ≠ 0 ∨ len < 128 ∨ 65536 < len) →
    exec (.cfgLoadFirst (.session n) len q) s = .next (s.put (s.dev.set CFG_STAT_LASTERR 17)))
  ∧ (∀ (s : State) (n len : Nat), len < 2 ^ 17 → Admits s (.session n) 1 (regAddr 0x60 0x048) [len] →
    (s.dev.cfg.lsess ≠ some n → exec (.cfgLoad (.session n) len) s = .next (s.put (s.dev.set CFG_STAT_LASTERR 16)))
      ∧ (s.dev.cfg.lsess = some n → stagedSt s.dev ≠ 1 →
          exec (.cfgLoad (.session n) len) s = .next (s.put (s.dev.set CFG_STAT_LASTERR 14)))
      ∧ (s.dev.cfg.lsess = some n → stagedSt s.dev = 1 → (len % 4 ≠ 0 ∨ len < 4 ∨ 65536 < len) →
          exec (.cfgLoad (.session n) len) s = .next (s.put (s.dev.set CFG_STAT_LASTERR 17)))
      ∧ (s.dev.cfg.lsess = some n → stagedSt s.dev = 1 → len % 4 = 0 → 4 ≤ len → len ≤ 65536 →
          exec (.cfgLoad (.session n) len) s = .next (s.put
            (s.dev.modCfg (fun c => { c with chunks := c.chunks ++ [windowBytes s.dev len] })))))
  ∧ (∀ (s : State) (c : List Byte) (rest : List (List Byte)), s.dev.powered = true → s.dev.cfg.chunks = c :: rest →
      let l := s.dev.cfg.loading ++ c
    (totalOf l ≤ 0x800000 → l.length < totalOf l →
      exec (.chunkAppended true) s = .next (s.put ((s.dev.modCfg (fun x => { x with loading := l, chunks := rest })).set
        CFG_LOADED_BYTES l.length)))
      ∧ (totalOf l ≤ 0x800000 → l.length = totalOf l →
        ∃ t, exec (.chunkAppended true) s = .next t ∧ t.otp = s.otp ∧ t.pending = s.pending ∧ t.dev.mem = s.dev.mem
          ∧ stagedSt t.dev = 2 ∧ t.dev.get CFG_LOADED_BYTES = l.length
          ∧ t.dev.flash = { s.dev.flash with staged := some (parsePackage s.dev.part l) }
          ∧ t.dev.bit (PG_IST 0x60) 0 = true)
      ∧ exec (.chunkAppended false) s = .next (s.put
          (raise (rejectStaged (keepLoaded s.dev s.dev.cfg.loading) 10) 0x60 3))
      ∧ (0x800000 < totalOf l ∨ totalOf l < l.length →
          exec (.chunkAppended true) s = .next (s.put (rejectStaged (keepLoaded s.dev s.dev.cfg.loading) 8))))
  ∧ (∀ (s : State) (ok : Bool), s.dev.cfg.chunks = [] → exec (.chunkAppended ok) s = .next s)
  ∧ (∀ (s : State) (w : Who), Admits s w 1 (regAddr 0x60 0x044) [1] →
    exec (.verify w) s = .next (s.put (if stagedSt s.dev = 2 then
      (s.dev.modCfg (fun c => { c with loading := [], chunks := [] })).set CFG_STAT_STAGED 3 else s.dev.set CFG_STAT_LASTERR 14)))
  ∧ (∀ (s : State) (pkg : Package), s.dev.powered = true → stagedSt s.dev = 3 → s.dev.flash.staged = some pkg →
      checkPackage s.otp s.dev true pkg ≠ 0 →
    exec .verifyComplete s = .next (s.put (((s.dev.set CFG_STAT_STAGED 6).ist 0x60 2).set CFG_STAT_LASTERR
      (checkPackage s.otp s.dev true pkg))))
  ∧ (∀ (s : State) (pkg : Package), s.dev.powered = true → stagedSt s.dev = 3 → s.dev.flash.staged = some pkg →
      checkPackage s.otp s.dev true pkg = 0 →
    ∃ t, exec .verifyComplete s = .next t ∧ t.otp = s.otp ∧ t.pending = s.pending ∧ stagedSt t.dev = 4
      ∧ t.dev.bit (PG_IST 0x60) 1 = true
      ∧ t.dev.flash = { s.dev.flash with areas := putAt s.dev.flash.areas 2 (some (freeArea s.dev)) }
      ∧ (∀ k, k ≠ CFG_STAT → k ≠ PG_IST 0x60 → t.dev.getW k = s.dev.getW k)
      ∧ t.dev.chans = s.dev.chans ∧ t.dev.pages = s.dev.pages)
  ∧ (∀ (s : State) (w : Who), Admits s w 1 (regAddr 0x60 0x044) [2] →
    exec (.disarm w) s = .next (s.put
      (if stagedSt s.dev = 5 then s.dev.set CFG_STAT_STAGED 4 else s.dev.set CFG_STAT_LASTERR 14)))
  ∧ (∀ (s : State) (w : Who), Admits s w 1 (regAddr 0x60 0x044) [3] →
    exec (.erase w) s = .next (s.put
      (if stagedSt s.dev = 5 ∨ stagedSt s.dev = 3 then s.dev.set CFG_STAT_LASTERR 14
       else if stagedSt s.dev = 0 then s.dev
       else if stagedSt s.dev = 1 then ((freeStaged s.dev).set CFG_STAT_STAGED 0).set CFG_STAT_LASTERR 18
       else (freeStaged s.dev).set CFG_STAT_STAGED 0)))

/-- Roles, probation and returns (R286, R294, R298, R299, R301): a commit makes STAGED the ACTIVE package and ACTIVE the
PREVIOUS one; the role record takes the roles in force; probation ends with its last tick when nothing failed; a run without
a live session fails it; a return after a failure, and a manual one, bring PREVIOUS back. -/
def Obligations.PackageRolesMoveAndReturn : Prop :=
  (∀ (d : Dev) (pkg : Package), d.flash.staged = some pkg →
    (commitPackage d).flash.active = some pkg ∧ (commitPackage d).flash.previous = d.flash.active
      ∧ (commitPackage d).flash.staged = none ∧ (commitPackage d).flash.recordDone = false)
  ∧ (∀ s : State, s.dev.powered = true → s.dev.flash.recs.length = 2 →
      let r := s.dev.flash.record
    ∃ t, exec .roleRecordWrite s = .next t ∧ t.otp = s.otp ∧ t.pending = s.pending
      ∧ { t.dev with flash := s.dev.flash } = s.dev
      ∧ { t.dev.flash with recs := s.dev.flash.recs, recordDone := s.dev.flash.recordDone } = s.dev.flash
      ∧ t.dev.flash.recordDone = true ∧ r ∈ t.dev.flash.recs
      ∧ t.dev.flash.record = ⟨r.seq + 1, true, s.dev.flash.active, s.dev.flash.previous, s.dev.flash.slots, s.dev.has CFG_STAT_PROB⟩)
  ∧ (∀ s : State, s.dev.powered = true → s.dev.get CFG_STAT_PROB = 1 → s.dev.cfg.failed = 0 → failCause s.dev = 0 →
      sessRunEnds s.dev = false → lateHamlets s.dev = [] → s.dev.svc.work = [] →
      s.dev.cfg.probStart + s.dev.cfg.probLen ≤ s.dev.tick + 1 →
    ∃ t, exec .probationEnd s = .next t ∧ t.otp = s.otp ∧ t.pending = s.pending ∧ t.dev.mem = s.dev.mem
      ∧ t.dev.get CFG_STAT_PROB = 0 ∧ t.dev.get CFG_PROBLEFT_TICKS = 0 ∧ t.dev.bit (PG_IST 0x60) 5 = true
      ∧ t.dev.flash = s.dev.flash ∧ stagedSt t.dev = stagedSt s.dev)
  ∧ (∀ s : State, (sessRunEnds s.dev = true ∨ failCause s.dev ≠ 0) → exec .probationEnd s = .next s)
  ∧ (∀ s : State, s.dev.powered = true → s.dev.get CFG_STAT_PROB = 1 → s.dev.cfg.failed = 0 →
      s.dev.cfg.probStart ≤ s.dev.tick → s.dev.sess.any (fun x => x.st == .opened && x.live) = false →
      s.dev.get CFG_SESSWAIT_TICKS ≤ s.dev.cfg.sessRun + 1 →
    exec .sesswaitExpiry s = .next (s.put (s.dev.modCfg (fun c => { c with failed := 3, failAt := s.dev.tick + 1 }))))
  ∧ (∀ s : State, s.dev.cfg.failed = 0 → exec .returnPkg s = .next s)
  ∧ (∀ (s : State) (pkg : Package), s.dev.powered = true → s.dev.cfg.failed ≠ 0 → s.dev.cfg.failAt ≤ s.dev.tick →
      s.dev.flash.previous = some pkg →
    ∃ t, exec .returnPkg s = .next t ∧ t.otp = s.otp ∧ t.pending = s.pending ∧ t.dev.tick = s.dev.tick
      ∧ t.dev.flash.active = some pkg ∧ t.dev.flash.previous = none ∧ t.dev.flash.recordDone = false
      ∧ t.dev.flash.staged = (if stagedSt s.dev = 4 then s.dev.flash.staged else s.dev.flash.active))
  ∧ (∀ s : State, s.dev.powered = true → s.dev.cfg.failed ≠ 0 → s.dev.cfg.failAt ≤ s.dev.tick → s.dev.flash.previous = none →
    exec .returnPkg s = .next (s.put
      (atNextTick s.dev (fun d => raise (recordReturn (endProbation d) s.dev.cfg.failed) 0x60 2))))
  ∧ (∀ (s : State) (n : Nat) (pkg : Package), s.dev.powered = true → n ∈ s.dev.cfg.manualAt → n ≤ s.dev.tick + 1 →
      s.dev.get CFG_STAT_PROB = 0 → s.dev.flash.previous = some pkg →
    ∃ t, exec .manualReturn s = .next t ∧ t.otp = s.otp ∧ t.pending = s.pending ∧ t.dev.tick = s.dev.tick
      ∧ t.dev.flash.active = some pkg ∧ t.dev.flash.previous = s.dev.flash.active ∧ t.dev.flash.staged = s.dev.flash.staged
      ∧ (∀ k, k ∈ t.dev.cfg.manualAt ↔ k ∈ s.dev.cfg.manualAt ∧ s.dev.tick + 1 < k))
  ∧ (∀ s : State, (∀ n ∈ s.dev.cfg.manualAt, s.dev.tick + 1 < n) → exec .manualReturn s = .next s)

/-! ## Sessions, pennants and operations -/

/-- Sessions (R267 to R273, R261, R282): a whole body waits for its check, an incomplete one for the rest; a HELLO is queued
or refused; a HELLO that passes takes the lowest free number; the first authority is commissioned once; a session ends by
its timeouts, its expiry or PEN_CLOSE, and nothing of it stays. -/
def Obligations.SessionsOpenAndEnd : Prop :=
  (∀ (s : State) (f : PxmFrag), s.dev.powered = true →
    (pxmForm f = false →
      exec (.pxmFragment f) s = .next (s.put ((s.dev.inc (UPL_DISC0_NOSECTAG f.side.num)).ist (pUPL f.side.num) 2)))
      ∧ (pxmForm f = true → firstCopy s.dev f.mac f.prp = false →
      exec (.pxmFragment f) s = .next (s.put ((s.dev.inc (UPL_DISC1_DUP f.side.num)).ist (pUPL f.side.num) 2))))
  ∧ (∀ (s : State) (f : PxmFrag), s.dev.powered = true → pxmForm f = true → firstCopy s.dev f.mac f.prp = true →
      (∀ r ∈ s.dev.reasm, sameBody r f = false) → f.offset = 0 → f.total = f.data.length →
      bodyOf s.otp f.type f.xid f.data ≠ .other →
    ∃ t, exec (.pxmFragment f) s = .next t ∧ t.otp = s.otp ∧ t.pending = s.pending ∧ t.dev.mem = s.dev.mem
      ∧ t.dev.sec = { s.dev.sec with bodies := s.dev.sec.bodies ++ [bodyOf s.otp f.type f.xid f.data] }
      ∧ t.dev.reasm = s.dev.reasm ∧ (∀ k, k ≠ UPL_RXCNT f.side.num → t.dev.getW k = s.dev.getW k))
  ∧ (∀ (s : State) (f : PxmFrag), s.dev.powered = true → pxmForm f = true → firstCopy s.dev f.mac f.prp = true →
      (∀ r ∈ s.dev.reasm, sameBody r f = false) → f.data.length < f.total →
    ∃ t, exec (.pxmFragment f) s = .next t ∧ t.otp = s.otp ∧ t.pending = s.pending ∧ t.dev.mem = s.dev.mem
      ∧ t.dev.sec = s.dev.sec
      ∧ t.dev.reasm = s.dev.reasm ++ [⟨f.side, f.mac, f.xid, f.type, f.total, [(f.offset, f.data)]⟩])
  ∧ (∀ (s : State) (x : Side) (mac xid : Nat), s.dev.powered = true →
      s.dev.reasm.any (fun r => r.mac == mac && r.xid == xid) = true →
    exec (.pxmTimeout x mac xid) s = .next (s.put
      ((({ s.dev with reasm := s.dev.reasm.filter (fun r => !(r.mac == mac && r.xid == xid)) }).inc
        (UPL_DISC2_PXMTO x.num)).ist (pUPL x.num) 2)))
  ∧ (∀ (s : State) (h : Hello) (rest : List PxmBody), s.dev.powered = true → secWorks s.dev = true →
      takeFirst PxmBody.isHello s.dev.sec.bodies = (some (.hello h), rest) →
      let d := setBodies s.dev rest
      let full := s.dev.sess.all (fun x => x.st != .free) = true ∧ s.dev.sess.all (fun x => x.host != h.pennant.host) = true
      let busy := 5 ≤ s.dev.sec.hellos.length + s.dev.sec.ops.length
    (full → exec .hello s = .next (s.put (refuseHello d h 10)))
      ∧ (¬ full → busy → exec .hello s = .next (s.put (refuseHello d h 11)))
      ∧ (¬ full → ¬ busy → s.dev.get SEC_RNG_OK = 0 →
          exec .hello s = .next (s.put (refuseHello d h 13)))
      ∧ (¬ full → ¬ busy → s.dev.get SEC_RNG_OK = 1 →
          exec .hello s = .next (s.put { d with sec := { d.sec with hellos := s.dev.sec.hellos ++ [h] } })))
  ∧ (∀ (s : State) (h : Hello) (rest : List Hello), s.dev.powered = true → secWorks s.dev = true → s.dev.sec.hellos = h :: rest →
      checkPennant s.otp s.dev h.pennant 1 h.hostHash h.hostSigOk ≠ 0 →
    exec .accept s = .next (s.put (refuseHello { s.dev with sec := { s.dev.sec with hellos := rest } } h
      (checkPennant s.otp s.dev h.pennant 1 h.hostHash h.hostSigOk))))
  ∧ (∀ (s : State) (h : Hello) (rest : List Hello) (n : Nat), s.dev.powered = true → secWorks s.dev = true →
      s.dev.sec.hellos = h :: rest → checkPennant s.otp s.dev h.pennant 1 h.hostHash h.hostSigOk = 0 →
      s.dev.get SEC_RNG_OK = 1 → s.dev.sess.length = 8 → n < 8 → (s.dev.ses n).st = .free →
      (∀ m, m < n → (s.dev.ses m).st ≠ .free) → (∀ m, m < 8 → (s.dev.ses m).st ≠ .free → (s.dev.ses m).host ≠ h.pennant.host) →
    ∃ t, exec .accept s = .next t ∧ t.otp = s.otp ∧ t.pending = s.pending ∧ t.dev.mem = s.dev.mem
      ∧ t.dev.sec.hellos = rest ∧ (∀ m, m ≠ n → t.dev.ses m = s.dev.ses m)
      ∧ t.dev.ses n = { Sess.reset with st := .accepted, scope := h.pennant.scope, host := h.pennant.host,
                                        auth := h.pennant.auth, seq := h.pennant.seq, notAfter := h.pennant.notAfter,
                                        prk := (agree h s.dev.fresh).2.2.2, txAt := [s.dev.aon.cycles, s.dev.aon.cycles] }
      ∧ t.dev.prp = (s.dev.prp + 4) % 65536
      ∧ (s.dev.upOk 0 = true → .uplink .a s.dev.prp 0xA none (.pxmAccept n h.xid (acceptBody s.otp h n s.dev.fresh)) ∈ t.dev.out))
  ∧ (∀ (s : State) (h : BitVec 384) (x : Nat) (rest : List PxmBody), s.dev.powered = true → secWorks s.dev = true →
      takeFirst PxmBody.isCommission s.dev.sec.bodies = (some (.commission h x), rest) →
      s.otp.slots.any (fun k => k.prog) = false →
    exec .commission s = .next { s with
      otp := { s.otp with slots := putAt s.otp.slots 0 { (s.otp.slot 0) with prog := true, hash := h } },
      dev := setBodies s.dev rest })
  ∧ (∀ (s : State) (h : BitVec 384) (x : Nat) (rest : List PxmBody), s.dev.powered = true → secWorks s.dev = true →
      takeFirst PxmBody.isCommission s.dev.sec.bodies = (some (.commission h x), rest) →
      s.otp.slots.any (fun k => k.prog) = true →
    ∃ t, exec .commission s = .next t ∧ t.otp = s.otp ∧ t.pending = s.pending ∧ t.dev.mem = s.dev.mem
      ∧ t.dev.sec.bodies = rest ∧ t.dev.bit (PG_IST 0x28) 3 = true
      ∧ t.dev.get PEN_CNT_REFUSED = min (s.dev.get PEN_CNT_REFUSED + 1) (fldTop PEN_CNT_REFUSED))
  ∧ (∀ (s : State) (n : Nat), s.dev.powered = true →
    ((s.dev.ses n).st = .accepted → exec (.sessionOpenTimeout n) s = .next (s.put (closeSession s.dev n)))
      ∧ ((s.dev.ses n).st ≠ .accepted → exec (.sessionOpenTimeout n) s = .next s)
      ∧ ((s.dev.ses n).st = .opened → (s.dev.ses n).live = false →
          exec (.sessionLiveTimeout n) s = .next (s.put (closeSession s.dev n)))
      ∧ ((s.dev.ses n).live = true → exec (.sessionLiveTimeout n) s = .next s)
      ∧ exec (.sessionLivenessLost n) s = .next (s.put (s.dev.modSes n (fun x => { x with live := false })))
      ∧ ((s.dev.ses n).st ≠ .free → s.dev.aon.set = true → (s.dev.ses n).notAfter ≤ s.dev.nowSec →
          exec (.sessionExpiry n) s = .next (s.put (closeSession s.dev n)))
      ∧ (s.dev.nowSec < (s.dev.ses n).notAfter → exec (.sessionExpiry n) s = .next s))
  ∧ (∀ (s : State) (m : Nat) (v : Word), Admits s (.session m) 1 (regAddr 0x28 0x080) [v.toNat] → bitOf v.toNat 3 = true →
    exec (.penClose (.session m) v) s = .next (s.put (closeSession s.dev (bitsOf v.toNat 2 0))))
  ∧ (∀ (d : Dev) (n : Nat), n < d.sess.length → (d.ses n).st ≠ .free →
      let e := closeSession d n
    e.ses n = Sess.reset ∧ (∀ m, m ≠ n → e.ses m = d.ses m) ∧ (∀ o ∈ e.sec.ops, o.sess ≠ n ∧ o ∈ d.sec.ops)
      ∧ (∀ c, d.hasChan c = true → bitOf (e.get (CHC_VETO_MASK c)) n = false)
      ∧ (∀ x ∈ e.intc.hostDel, x.2 ≠ n + 4) ∧ e.chans = d.chans ∧ e.mem = d.mem
      ∧ ((d.ses n).st = .opened → e.bit (PG_IST 0x28) 1 = true))
  ∧ (∀ (d : Dev) (m n : Nat) (v : Word), d.get TWIN_STAT_ROLE ≠ 2 → bitOf v.toNat 3 = true → bitsOf v.toNat 2 0 = n → n ≠ m →
      scopePage (d.ses m).scope 0x28 = false → regReason d (.session m) [(regAddr 0x28 0x080, v.toNat)] (regAddr 0x28 0x080) v.toNat = 7)
  ∧ (∀ (s : State) (n : Nat) (x : Side), s.dev.powered = true → (s.dev.ses n).st ≠ .free →
    (txRolls s.dev n x.num = true → exec (.keyIndexRollover n x true) s = .next (s.put (s.dev.modSes n (fun y =>
        { y with keyIdx := putAt y.keyIdx x.num ((elemAt 0 y.keyIdx x.num + 1) % 2 ^ 32), txPn := putAt y.txPn x.num 1,
                 txAt := putAt y.txAt x.num s.dev.aon.cycles }))))
      ∧ (txRolls s.dev n x.num = false → exec (.keyIndexRollover n x true) s = .next s)
      ∧ exec (.keyIndexRollover n x false) s = .next (s.put (s.dev.modSes n (fun y =>
        { y with keyIdx := putAt y.keyIdx (2 + x.num) ((elemAt 0 y.keyIdx (2 + x.num) + 1) % 2 ^ 32),
                 oldKey := putAt y.oldKey x.num true, rxOld := putAt y.rxOld x.num (elemAt 1 y.rxPn x.num),
                 rxPn := putAt y.rxPn x.num 1 })))
      ∧ exec (.oldSakRetire n x) s = .next (s.put (s.dev.modSes n (fun y => { y with oldKey := putAt y.oldKey x.num false }))))
  ∧ (∀ s : State, s.dev.powered = true →
    exec (.rngHealth true) s = .next (s.put (raise ((s.dev.inc SEC_RNG_APTFAIL).set SEC_RNG_OK 0) 0x20 0))
      ∧ exec (.rngHealth false) s = .next (s.put (raise ((s.dev.inc SEC_RNG_RCTFAIL).set SEC_RNG_OK 0) 0x20 0))
      ∧ exec .rngRecovery s = .next (s.put (condEnd (s.dev.set SEC_RNG_OK 1) 0x20 0)))

/-- Operations (R264, R265, R274 to R280): one waits for its turn or is refused as BUSY; the row of another opcode leaves
it; a check of R264 that fails refuses it with its reason and changes nothing else; one that passes has the effect of its
row in R276 once, and its sequence number is noted. -/
def Obligations.OperationsRunOnce : Prop :=
  (∀ (s : State) (n len q : Nat), len < 2 ^ 13 → q < 2 ^ 19 →
      Admits s (.session n) 1 (regAddr 0x28 0x088) [q * 2 ^ 13 + len] →
      let p := bufferPennant s.otp s.dev n len
    (opRuns s.dev n = false → s.dev.sec.hellos.length + s.dev.sec.ops.length < 5 →
      ∃ t, exec (.penOpgo (.session n) len q) s = .next t ∧ t.otp = s.otp ∧ t.pending = s.pending ∧ t.dev.mem = s.dev.mem
        ∧ t.dev.sec = { s.dev.sec with ops := s.dev.sec.ops ++ [⟨n, p, (s.dev.ses n).host⟩] }
        ∧ t.dev.get (PEN_OPSTAT_STATE n) = 1 ∧ (∀ k, k ≠ PEN_OPSTAT n → t.dev.getW k = s.dev.getW k))
      ∧ (opRuns s.dev n = true →
        exec (.penOpgo (.session n) len q) s = .next (s.put (refuse s.dev 2 p.auth 11 n (p.seq % 2 ^ 32))))
      ∧ (opRuns s.dev n = false → 5 ≤ s.dev.sec.hellos.length + s.dev.sec.ops.length →
        exec (.penOpgo (.session n) len q) s = .next (s.put (refuse
          (opState (s.dev.setW (PEN_OPSTAT n) (2 ^ 28 + p.opcode * 2 ^ 8)) n 5 11) 2 p.auth 11 n (p.seq % 2 ^ 32)))))
  ∧ (∀ cc ∈ opCommands, ∀ (s : State) (r : OpReq) (rest : List OpReq), s.dev.sec.ops = r :: rest → r.pennant.opcode ≠ cc.2 →
      opListed r.pennant.opcode = true → exec cc.1 s = .next s)
  ∧ (∀ cc ∈ opCommands, ∀ (s : State) (r : OpReq) (rest : List OpReq), OpReady s r rest cc.2 →
      checkPennant s.otp s.dev r.pennant 2 r.host true ≠ 0 →
    exec cc.1 s = .next (s.put (opRefuse { s.dev with sec := { s.dev.sec with ops := rest } } r
      (checkPennant s.otp s.dev r.pennant 2 r.host true))))
  ∧ (∀ (s : State) (r : OpReq) (rest : List OpReq) (code : Nat), OpReady s r rest code →
      checkPennant s.otp s.dev r.pennant 2 r.host true = 0 →
      let q := opTaken s r rest
      let d := q.dev
    (∀ h x, code = 0x01 → r.pennant.operand = .digestTick h x → armReason s.dev h x = 0 →
        exec .arm s = .next (s.put (opEnd ((((d.set CFG_STAT_STAGED 5).setW CFG_ARMTICKLO (x % 2 ^ 32)).setW CFG_ARMTICKHI
          (x / 2 ^ 32 % 2 ^ 16)).ist 0x60 3) r.sess)))
      ∧ (∀ h x, code = 0x01 → r.pennant.operand = .digestTick h x → armReason s.dev h x ≠ 0 →
        exec .arm s = .next (s.put (opRefuse (d.set CFG_STAT_LASTERR (armReason s.dev h x)) r 15)))
      ∧ (code = 0x02 → r.pennant.operand = .digest 0#384 → s.dev.flash.previous ≠ none →
        exec .rollback s = .next (s.put (opEnd (d.modCfg (fun c => { c with manualAt := insertNat (s.dev.tick + 2) c.manualAt })) r.sess)))
      ∧ (∀ h, code = 0x02 → r.pennant.operand = .digest h → h ≠ 0#384 →
        exec .rollback s = .next (s.put (opEnd (d.modCfg (fun c => { c with permit := some h })) r.sess)))
      ∧ (∀ ch a key, r.sess < 8 → code = 0x10 → r.pennant.operand = .enroll ch a key true → nodeOk s.dev ch a = true →
        ∃ t, exec .enroll s = .next t ∧ t.otp = s.otp ∧ t.pending = s.pending ∧ t.dev.mem = s.dev.mem
          ∧ (ch, a, key) ∈ t.dev.sec.vault ∧ (∀ e ∈ t.dev.sec.vault, e.1 = ch → e.2.1 = a → e.2.2 = key)
          ∧ (∀ e ∈ s.dev.sec.vault, ¬ (e.1 = ch ∧ e.2.1 = a) → e ∈ t.dev.sec.vault)
          ∧ (ch, a, rfc3394 s.dev.sec.storage (keyBlocks key)) ∈ t.dev.flash.enroll
          ∧ (ch < s.dev.chans.length → (slotKey s.dev ch 0).isSome = true → keyToSend t.dev ch a = some 0)
          ∧ t.dev.bit (CHX_CONFIRM ch) a = false ∧ t.dev.get (PEN_OPSTAT_STATE r.sess) = 4 ∧ t.dev.sec.ops = rest)
      ∧ (∀ ch a, code = 0x11 → r.pennant.operand = .chNode ch a → nodeOk s.dev ch a = true →
        exec .revoke s = .next (s.put (opEnd (epochAnew
          ((d.storeKey ch a none).setBit (CHX_CONFIRM ch) a false) ch) r.sess)))
      ∧ (code = 0x12 → exec .rekey s = .next (s.put (opEnd
          (d.forEach (d.chanList.filter (scopeSeg r.pennant.scope)) epochRequest) r.sess)))
      ∧ (∀ ch a, code = 0x13 → r.pennant.operand = .chNode ch a → nodeOk s.dev ch a = true →
        exec .unfence s = .next (s.put ((opState (d.modChan ch (fun x => { x with unfReq := insertNat a x.unfReq })) r.sess 3
          0).inc PEN_CNT_OPS)))
      ∧ (∀ p, code = 0x20 → r.pennant.operand = .page p → populated s.dev.part p = true →
        exec .release s = .next (s.put (opEnd (releasePage d p) r.sess)))
      ∧ (∀ h, code = 0x30 → r.pennant.operand = .digest h →
        exec .gate s = .next (s.put (opEnd (({ d with gate := { d.gate with permit := some h } }).set GATE_COMMIT_PERMIT 1)
          r.sess)))
      ∧ (code = 0x40 → exec .debug s = .next (s.put (opEnd
          (({ d with sec := { d.sec with debugUntil := r.pennant.notAfter } }).set SEC_MODE_DEBUG 1) r.sess)))
      ∧ (∀ v, code = 0x50 → r.pennant.operand = .floor v → elemAt 0 s.dev.flash.floors r.pennant.auth < v →
        ∃ t, exec .floor s = .next t ∧ t.otp = s.otp ∧ t.pending = s.pending ∧ t.dev.mem = s.dev.mem
          ∧ t.dev.flash.floors = putAt s.dev.flash.floors r.pennant.auth v
          ∧ (∀ n, n < 8 → (t.dev.ses n).st ≠ .free → (t.dev.ses n).auth = r.pennant.auth → v ≤ (t.dev.ses n).seq)
          ∧ t.dev.get (PEN_OPSTAT_STATE r.sess) = 4)
      ∧ (∀ v, code = 0x50 → r.pennant.operand = .floor v → v ≤ elemAt 0 s.dev.flash.floors r.pennant.auth →
        exec .floor s = .next (s.put (opRefuse d r 15)))
      ∧ (∀ k, code = 0x51 → r.pennant.operand = .slot k → k < s.otp.slots.length → k < 4 →
          (∃ j, j < 4 ∧ j ≠ k ∧ s.otp.usable j = true) →
        ∃ t, exec .authrev s = .next t ∧ t.pending = s.pending ∧ t.dev.mem = s.dev.mem
          ∧ t.otp.usable k = false ∧ (∀ j, j ≠ k → t.otp.slot j = s.otp.slot j)
          ∧ (∀ n, n < 8 → (t.dev.ses n).st ≠ .free → (t.dev.ses n).auth ≠ k) ∧ t.dev.get (PEN_OPSTAT_STATE r.sess) = 4
          ∧ (∀ o ∈ rest, o.pennant.auth = k → o ∈ t.dev.sec.ops))
      ∧ (∀ k h, code = 0x52 → r.pennant.operand = .slotHash k h → k < 4 → (s.otp.slot k).prog = false →
        exec .authadd s = .next { (s.put (opEnd d r.sess)) with
          otp := { s.otp with slots := putAt s.otp.slots k { (s.otp.slot k) with prog := true, hash := h } } })
      ∧ (code = 0x60 → exec .certify s = .next { (s.put (opEnd { d with certPend := true } r.sess)) with
          otp := { s.otp with cert := true } }))
  ∧ (∀ s : State, s.dev.powered = true → s.dev.get SEC_MODE_DEBUG = 1 →
    (s.dev.sec.debugUntil ≤ s.dev.nowSec → exec .debugPortClose s = .next (s.put (s.dev.set SEC_MODE_DEBUG 0)))
      ∧ (s.dev.nowSec < s.dev.sec.debugUntil → exec .debugPortClose s = .next s))

/-! ## Twin operation -/

/-- Headship moves as R445 and R450 to R455 say: a frame carries what is on the wire, one with a false tag is only counted,
three kinds of command bring a part from START to HEAD or JOINING, a standby takes headship on a takeover or an abdication,
and a head gives it up to a ready partner only. Each clause says what else stays. -/
def Obligations.HeadshipMoves : Prop :=
  (∀ s : State, linked s.dev = false → exec .hbSend s = .next s ∧ exec .twinRekey s = .next s
    ∧ exec .abdicateFrame s = .next s ∧ (∀ f, exec (.hbReceived f) s = .next s))
  ∧ (∀ s : State, s.dev.powered = true → linked s.dev = true → s.dev.isHead = true →
    ∃ t, exec .hbSend s = .next t ∧ t.otp = s.otp ∧ t.pending = s.pending
      ∧ { t.dev with chans := s.dev.chans, twin := s.dev.twin, out := s.dev.out } = s.dev
      ∧ t.dev.chans = s.dev.chans.map (fun x => { x with inFlight := none })
      ∧ t.dev.twin = { s.dev.twin with seq := s.dev.twin.seq + 1 }
      ∧ t.dev.out = s.dev.out ++ [.twin s.dev.twin.seq (.heartbeat true (twinReady s.dev) (s.dev.get DEV_SAFE_ACTIVE == 1)
          (s.dev.get DEV_VIGSTAT_STATE == 2) (s.dev.get DEV_VIGSTAT_STATE == 0 && s.dev.has DEV_VIGSTAT_CAUSE)
          (s.dev.tick % 2 ^ 24) (s.dev.chans.filterMap (fun x => x.inFlight)))])
  ∧ (∀ s : State, s.dev.powered = true → linked s.dev = true → s.dev.isHead = false →
    ∃ t, exec .hbSend s = .next t ∧ t.otp = s.otp ∧ t.pending = s.pending
      ∧ { t.dev with twin := s.dev.twin, out := s.dev.out } = s.dev
      ∧ t.dev.twin = { s.dev.twin with seq := s.dev.twin.seq + 1 }
      ∧ t.dev.out = s.dev.out ++ [.twin s.dev.twin.seq (.heartbeat false (twinReady s.dev) (s.dev.get DEV_SAFE_ACTIVE == 1)
          false false (s.dev.tick % 2 ^ 24) [])])
  ∧ (∀ (s : State) (f : HbFrame), s.dev.powered = true → linked s.dev = true → f.badTag = true →
    exec (.hbReceived f) s = .next (s.put (s.dev.inc TWIN_LNKCNT_BADTAG)))
  ∧ (∀ (s : State) (f : HbFrame), s.dev.powered = true → linked s.dev = true → f.badTag = false → f.head = false →
    ∃ t, exec (.hbReceived f) s = .next t ∧ t.otp = s.otp ∧ t.pending = s.pending
      ∧ (∀ k, k ≠ TWIN_STAT → t.dev.getW k = s.dev.getW k)
      ∧ { t.dev with regs := s.dev.regs, chans := s.dev.chans, twin := s.dev.twin } = s.dev
      ∧ t.dev.twin = { s.dev.twin with lineLow := false } ∧ t.dev.get TWIN_STAT_MISSED = 0
      ∧ t.dev.get TWIN_STAT_PREADY = b2n f.ready ∧ t.dev.get TWIN_STAT_ROLE = s.dev.get TWIN_STAT_ROLE)
  ∧ (∀ (s : State) (f : HbFrame), s.dev.powered = true → linked s.dev = true → f.badTag = false → f.head = true →
      s.dev.get TWIN_STAT_ROLE = 0 →
    ∃ t, exec (.hbReceived f) s = .next t ∧ t.otp = s.otp ∧ t.pending = s.pending
      ∧ (∀ k, k ≠ TWIN_STAT → t.dev.getW k = s.dev.getW k)
      ∧ { t.dev with regs := s.dev.regs, chans := s.dev.chans, twin := s.dev.twin } = s.dev
      ∧ t.dev.twin = { s.dev.twin with lineLow := true } ∧ t.dev.get TWIN_STAT_ROLE = 3)
  ∧ (∀ (s : State) (f : HbFrame), s.dev.powered = true → linked s.dev = true → f.badTag = false → f.head = true → f.recs = [] →
      s.dev.isHead = true →
    exec (.hbReceived f) s = .next (s.put (split s.otp (((s.dev.set TWIN_STAT_MISSED 0).setB TWIN_STAT_PREADY f.ready).modTwin
      (fun t => { t with lineLow := true })))))
  ∧ (∀ (s : State) (f : HbFrame), s.dev.powered = true → linked s.dev = true → f.badTag = false → f.head = true → f.recs = [] →
      s.dev.get TWIN_STAT_ROLE = 2 →
    (f.vigil = true → s.dev.get DEV_VIGSTAT_STATE = 0 →
      ∃ t, exec (.hbReceived f) s = .next t ∧ t.otp = s.otp ∧ t.pending = s.pending ∧ t.dev.mem = s.dev.mem
        ∧ t.dev.get DEV_VIGSTAT_STATE = 1 ∧ t.dev.get TWIN_STAT_ROLE = 2 ∧ t.dev.chans = s.dev.chans)
    ∧ (f.vigil = false → f.wake = true → s.dev.get DEV_VIGSTAT_STATE = 2 → s.dev.vigHeld = [] →
      ∃ t, exec (.hbReceived f) s = .next t ∧ t.otp = s.otp ∧ t.pending = s.pending ∧ t.dev.mem = s.dev.mem
        ∧ t.dev.get DEV_VIGSTAT_STATE = 0 ∧ t.dev.get DEV_VIGSTAT_CAUSE = 3 ∧ t.dev.get TWIN_STAT_ROLE = 2)
    ∧ (f.vigil = false → f.wake = false →
      ∃ t, exec (.hbReceived f) s = .next t ∧ t.otp = s.otp ∧ t.pending = s.pending
        ∧ OnlyRegs [TWIN_STAT] { s.dev with twin := { s.dev.twin with lineLow := true } } t.dev ∧ t.dev.get TWIN_STAT_ROLE = 2
        ∧ t.dev.get TWIN_STAT_MISSED = 0))
  ∧ (∀ s : State, s.dev.powered = true → ¬ (s.dev.get TWIN_STAT_ROLE = 2 ∧ s.dev.twin.lineLow = true) →
    ∃ t, exec .hbMissed s = .next t ∧ t.otp = s.otp ∧ t.pending = s.pending ∧ OnlyRegs [TWIN_STAT] s.dev t.dev
      ∧ t.dev.get TWIN_STAT_MISSED = min (s.dev.get TWIN_STAT_MISSED + 1) (fldTop TWIN_STAT_MISSED)
      ∧ t.dev.get TWIN_STAT_ROLE = s.dev.get TWIN_STAT_ROLE)
  ∧ (∀ s : State, s.dev.powered = true → s.dev.get TWIN_STAT_ROLE = 2 → s.dev.twin.lineLow = true →
    exec .hbMissed s = .next (s.put (raise (s.dev.inc TWIN_STAT_MISSED) 0x70 0)))
  ∧ (∀ s : State, s.dev.powered = true → s.dev.get TWIN_STAT_ROLE = 2 → s.dev.twin.commitOk = true →
      (∀ c, (s.dev.chan c).peerFlight = none) →
    ∃ t, exec .takeover s = .next t ∧ t.otp = s.otp ∧ t.pending = s.pending
      ∧ OnlyRegs [TWIN_STAT, TWIN_CNT, PG_IST 0x70] { s.dev with twin := { s.dev.twin with lineLow := false } } t.dev
      ∧ t.dev.get TWIN_STAT_ROLE = 1 ∧ t.dev.isHead = true ∧ t.dev.bit (PG_IST 0x70) 0 = true
      ∧ t.dev.get TWIN_CNT_TAKEOVERS = min (s.dev.get TWIN_CNT_TAKEOVERS + 1) (fldTop TWIN_CNT_TAKEOVERS))
  ∧ (∀ s : State, s.dev.powered = true → s.dev.get TWIN_STAT_ROLE = 2 → s.dev.twin.commitOk = false →
      (∀ c, (s.dev.chan c).peerFlight = none) →
    exec .takeover s = .next (s.put (raise ((((s.dev.set TWIN_STAT_ROLE 1).inc TWIN_CNT_TAKEOVERS).ist 0x70 0).modTwin
      (fun t => { t with lineLow := false })) 0x70 2)))
  ∧ (∀ s : State, s.dev.get TWIN_STAT_ROLE ≠ 2 → exec .takeover s = .next s)
  ∧ (∀ s : State, linked s.dev = true → exec .abdicateFrame s = exec .takeover s)
  ∧ (∀ (d : Dev) (c : Nat) (r : InFlight) (e : TxEntry), c < d.chans.length → (d.chan c).peerFlight = some r → r.outcome = 0 →
      d.entry c r.idx = some e → e.idx = r.idx →
    ((resumeChan d c).chan c).peerFlight = none
      ∧ (resumeChan d c).entry c r.idx = some { e with st := 1, att := min (e.att + 1) 15, copy := none, since := d.aon.cycles })
  ∧ (∀ (s : State) (w : Who), Admits s w 1 (regAddr 0x70 0x054) [1] →
    (s.dev.isHead = true → s.dev.get TWIN_STAT_LINK = 1 → s.dev.get TWIN_STAT_PREADY = 1 →
      ∃ t, exec (.abdicate w) s = .next t ∧ t.otp = s.otp ∧ t.pending = s.pending ∧ t.dev.mem = s.dev.mem
        ∧ t.dev.pages = s.dev.pages ∧ t.dev.flash = s.dev.flash
        ∧ t.dev.get TWIN_STAT_ROLE = 2 ∧ t.dev.out = s.dev.out ++ [.twin s.dev.twin.seq .abdicateFrame]
        ∧ t.dev.bit (PG_IST 0x70) 1 = true
        ∧ t.dev.get TWIN_CNT_ABDICATIONS = min (s.dev.get TWIN_CNT_ABDICATIONS + 1) (fldTop TWIN_CNT_ABDICATIONS))
    ∧ ((s.dev.isHead = false ∨ s.dev.get TWIN_STAT_LINK = 0 ∨ s.dev.get TWIN_STAT_PREADY = 0) →
      ∃ t, exec (.abdicate w) s = .next t ∧ t.otp = s.otp ∧ t.pending = s.pending ∧ OnlyRegs [PG_IST 0x70] s.dev t.dev
        ∧ t.dev.bit (PG_IST 0x70) 2 = true))
  ∧ (∀ s : State, s.dev.powered = true → s.dev.get TWIN_STAT_ROLE = 0 → s.dev.twin.lineLow = false →
    ∃ t, exec .startTimeout s = .next t ∧ t.otp = s.otp ∧ t.pending = s.pending
      ∧ OnlyRegs [TWIN_STAT] { s.dev with aon := t.dev.aon } t.dev ∧ t.dev.get TWIN_STAT_ROLE = 1 ∧ t.dev.isHead = true
      ∧ t.dev.aon.cycles = max s.dev.aon.cycles
          (s.dev.aon.release + (if s.dev.get TWIN_CFG_PREF = 1 then 3250 else 13250)))
  ∧ (∀ s : State, s.dev.powered = true → s.dev.get TWIN_STAT_ROLE = 0 →
    ∃ t, exec .headshipLow s = .next t ∧ t.otp = s.otp ∧ t.pending = s.pending
      ∧ OnlyRegs [TWIN_STAT] { s.dev with twin := { s.dev.twin with lineLow := true } } t.dev
      ∧ t.dev.get TWIN_STAT_ROLE = 3 ∧ t.dev.twin.lineLow = true)
  ∧ (∀ s : State, s.dev.get TWIN_STAT_ROLE ≠ 0 → exec .startTimeout s = .next s ∧ exec .headshipLow s = .next s)
  ∧ (∀ s : State, s.dev.twin.lineLow = true → exec .startTimeout s = .next s)

/-- Pairing and synchronisation (R443 to R448, R456): an accepted partner links the part, and one without headship starts to
synchronise; the packages, the keys and the snapshot come in this order; the DELTA messages of one commit point on top of
them make it a STANDBY; a damaged message, or a synchronisation that lasts too long, raises TWIN_JOIN. -/
def Obligations.PartnersPairAndSynchronise : Prop :=
  (∀ s : State, s.dev.powered = true → linked s.dev = false →
    exec .twinLinkUp s = .next (s.put (twinSend (s.dev.modTwin (fun t => { t with upAt := s.dev.aon.cycles })) .twinPair)) ∧ exec .twinLinkDown s = .next s)
  ∧ (∀ s : State, s.dev.powered = true → linked s.dev = true →
    ∃ t, exec .twinLinkDown s = .next t ∧ t.otp = s.otp ∧ t.pending = s.pending ∧ t.dev.mem = s.dev.mem
      ∧ t.dev.get TWIN_STAT_LINK = 0 ∧ t.dev.get TWIN_STAT_PREADY = 0 ∧ t.dev.get TWIN_SYNC_PHASE = 0 ∧ t.dev.twin.peer = none
      ∧ t.dev.bit (PG_IST 0x70) 4 = true ∧ t.dev.get TWIN_STAT_ROLE = s.dev.get TWIN_STAT_ROLE
      ∧ t.dev.get TWIN_LNKCNT_DROPS = min (s.dev.get TWIN_LNKCNT_DROPS + 1) (fldTop TWIN_LNKCNT_DROPS))
  ∧ (∀ s : State, linked s.dev = true → exec .twinLinkUp s = .next s)
  ∧ (∀ (s : State) (m : PairMsg), s.dev.powered = true → m.whole = false →
    exec (.pair m) s = .next (s.put (twinSend s.dev .twinPair)))
  ∧ (∀ (s : State) (m : PairMsg), s.dev.powered = true → m.whole = true → m.sigOk = true →
      (m.peer.toNat = namedPeer s.dev ∨ (namedPeer s.dev = 0 ∧ s.dev.isHead = false)) →
    ∃ t, exec (.pair m) s = .next t ∧ t.otp = s.otp ∧ t.pending = s.pending ∧ t.dev.mem = s.dev.mem
      ∧ t.dev.get TWIN_STAT_LINK = 1 ∧ t.dev.get TWIN_STAT_MISSED = 0 ∧ t.dev.twin.peer = some m.peer
      ∧ t.dev.get TWIN_STAT_ROLE = s.dev.get TWIN_STAT_ROLE
      ∧ t.dev.get TWIN_SYNC_PHASE = (if s.dev.isHead = true then s.dev.get TWIN_SYNC_PHASE else 1))
  ∧ (∀ (s : State) (m : PairMsg), s.dev.powered = true → m.whole = true →
      (m.sigOk = false ∨ (m.peer.toNat ≠ namedPeer s.dev ∧ (namedPeer s.dev ≠ 0 ∨ s.dev.isHead = true))) →
    exec (.pair m) s = .next (s.put (raise s.dev 0x70 3)))
  ∧ (∀ (s : State), follows s.dev = false ∨ s.dev.get TWIN_SYNC_PHASE = 0 →
    (∀ m, exec (.delta m) s = .next s) ∧ (∀ m, exec (.bulk m) s = .next s))
  ∧ (∀ (s : State) (tag : Bool), s.dev.powered = true → follows s.dev = true → s.dev.get TWIN_SYNC_PHASE ≠ 0 →
    exec (.delta (.damaged tag)) s = .next (s.put (twinDamage s.dev tag 3))
      ∧ exec (.bulk (.damaged true tag)) s = .next (s.put (twinDamage s.dev tag 1))
      ∧ exec (.bulk (.damaged false tag)) s = .next (s.put (twinDamage s.dev tag 3)))
  ∧ (∀ (s : State) (k q : Nat), s.dev.powered = true → follows s.dev = true → s.dev.get TWIN_SYNC_PHASE ≠ 0 →
      s.dev.twin.gotSnapshot = true → s.dev.twin.missing = 0 →
    exec (.delta (.opSeq k q)) s = .next (s.put { s.dev with
      flash := { s.dev.flash with opseq := putAt s.dev.flash.opseq k q },
      twin := { s.dev.twin with deltas := s.dev.twin.deltas + 1 } }))
  ∧ (∀ (s : State) (c t r fence : Nat), s.dev.powered = true → follows s.dev = true → s.dev.get TWIN_SYNC_PHASE ≠ 0 →
      s.dev.twin.gotSnapshot = true → s.dev.twin.missing = 0 → s.dev.hasChan c = true →
    ∃ u, exec (.delta (.confine c t r fence [])) s = .next u ∧ u.otp = s.otp ∧ u.pending = s.pending ∧ u.dev.mem = s.dev.mem
      ∧ u.dev.get (CHS_TEC_TEC c) = min t 511 ∧ u.dev.get (CHS_REC_REC c) = min r 255
      ∧ u.dev.get (CHS_TEC_STATE c) = confState t r
      ∧ (∀ a, 1 ≤ a → a < 32 → fenced u.dev c a = bitOf fence a))
  ∧ (∀ (s : State) (c : Nat) (old cur next : Option (Nat × BitVec 256)) (ep : EpochWire), s.dev.powered = true →
      follows s.dev = true → s.dev.get TWIN_SYNC_PHASE ≠ 0 → s.dev.twin.gotSnapshot = true → s.dev.twin.missing = 0 →
      s.dev.hasChan c = true → c < s.dev.chans.length →
    ∃ u, exec (.delta (.keys c old cur next ep)) s = .next u ∧ u.otp = s.otp ∧ u.pending = s.pending ∧ u.dev.mem = s.dev.mem
      ∧ (u.dev.chan c).epStart = ep.start ∧ (u.dev.chan c).epDeadline = ep.deadline ∧ (u.dev.chan c).epLast = ep.last
      ∧ ((u.dev.chan c).old.isSome = old.isSome ∧ (u.dev.chan c).cur.isSome = cur.isSome ∧ (u.dev.chan c).next.isSome = next.isSome)
      ∧ u.dev.get (CHX_CONFIRM_MASK c) = ep.confirm / 2 % 2 ^ 31 ∧ (∀ b, b ≠ c → u.dev.chan b = s.dev.chan b))
  ∧ (∀ (s : State) (n q : Nat) (h : Option (BitVec 384)), s.dev.powered = true → follows s.dev = true →
      s.dev.get TWIN_SYNC_PHASE = 4 → s.dev.twin.gotSnapshot = true → q ≤ s.dev.twin.deltas →
    ∃ t, exec (.delta (.commit n q h)) s = .next t ∧ t.otp = s.otp ∧ t.pending = s.pending ∧ t.dev.mem = s.dev.mem
      ∧ t.dev.get TWIN_STAT_ROLE = 2 ∧ t.dev.get TWIN_SYNC_PHASE = 5 ∧ t.dev.get TWIN_SYNC_PCT = 100
      ∧ t.dev.twin.commitOk = true ∧ t.dev.bit (PG_IST 0x70) 3 = true
      ∧ t.dev.get TWIN_CNT_JOINS = min (s.dev.get TWIN_CNT_JOINS + 1) (fldTop TWIN_CNT_JOINS))
  ∧ (∀ (s : State) (n q : Nat) (h : Option (BitVec 384)), s.dev.powered = true → follows s.dev = true →
      s.dev.get TWIN_SYNC_PHASE ≠ 0 → s.dev.twin.gotSnapshot = true → s.dev.twin.deltas < q →
    ∃ t, exec (.delta (.commit n q h)) s = .next t ∧ t.otp = s.otp ∧ t.pending = s.pending ∧ t.dev.regs = s.dev.regs
      ∧ t.dev.mem = s.dev.mem ∧ t.dev.twin.missing = q - s.dev.twin.deltas ∧ t.dev.twin.commitOk = false)
  ∧ (∀ (s : State) (p : Package) (ok : Bool), s.dev.powered = true → follows s.dev = true → s.dev.get TWIN_SYNC_PHASE ≠ 0 →
      s.dev.flash.active.map (fun x => x.digest) = some p.digest →
    ∃ t, exec (.bulk (.active p ok)) s = .next t ∧ t.otp = s.otp ∧ t.pending = s.pending ∧ t.dev.mem = s.dev.mem
      ∧ t.dev.twin.gotActive = true ∧ t.dev.twin.headDigest = some p.digest ∧ t.dev.flash = s.dev.flash)
  ∧ (∀ (s : State) (ks : List (Nat × Nat × BitVec 256)), s.dev.powered = true → follows s.dev = true →
      s.dev.get TWIN_SYNC_PHASE ≠ 0 →
    (s.dev.twin.gotActive = true → ∃ t, exec (.bulk (.enrollKeys ks)) s = .next t ∧ t.otp = s.otp ∧ t.pending = s.pending
        ∧ t.dev.mem = s.dev.mem ∧ t.dev.sec.vault = ks ∧ t.dev.twin.gotKeys = true ∧ t.dev.get TWIN_SYNC_PHASE = 3)
      ∧ (s.dev.twin.gotActive = false → exec (.bulk (.enrollKeys ks)) s = .next s)
      ∧ (s.dev.twin.gotKeys = false → exec (.bulk (.snapshot [])) s = .next s)
      ∧ (s.dev.twin.gotKeys = true → ∃ t, exec (.bulk (.snapshot [])) s = .next t ∧ t.otp = s.otp ∧ t.pending = s.pending
        ∧ t.dev.mem = s.dev.mem ∧ t.dev.twin.gotSnapshot = true ∧ t.dev.get TWIN_SYNC_PHASE = 4))
  ∧ (∀ (s : State) (n : Nat), s.dev.powered = true → follows s.dev = true → s.dev.get TWIN_SYNC_PHASE ≠ 0 → stagedSt s.dev = 4 →
    ∃ t, exec (.bulk (.arm n)) s = .next t ∧ t.otp = s.otp ∧ t.pending = s.pending ∧ t.dev.mem = s.dev.mem
      ∧ stagedSt t.dev = 5 ∧ armTick t.dev = n % 2 ^ 48)
  ∧ (∀ s : State, s.dev.powered = true → linked s.dev = true →
    exec .twinRekey s = .next (s.put (s.dev.modTwin (fun t => { t with keys := t.keys + 1 }))))
  ∧ (∀ s : State, s.dev.powered = true → follows s.dev = true → 1 ≤ s.dev.get TWIN_SYNC_PHASE → s.dev.get TWIN_SYNC_PHASE ≤ 4 →
    exec .joinTimeout s = .next (s.put (raise (resync' (s.dev.pass
      (s.dev.twin.upAt + 5000000000 - s.dev.aon.cycles)) 0) 0x70 2)))
  ∧ (∀ s : State, follows s.dev = false ∨ s.dev.get TWIN_SYNC_PHASE = 0 ∨ 5 ≤ s.dev.get TWIN_SYNC_PHASE →
    exec .joinTimeout s = .next s)
end

