-- ==== Sys2Proof/Laws/Bits.lean ====
section
/-! SUPPORT. Bit fields of a number: what reading a field gives after a field was written. -/

namespace Sys2Proof

/-- The field is a field of a word: its bits are in order and within the word. -/
def Fld.ok (f : Fld) : Bool := f.lo ≤ f.hi && f.hi < 32

/-- Two fields share no bit. -/
def Fld.apart (f g : Fld) : Bool := f.key != g.key || f.hi < g.lo || g.hi < f.lo

/-- Bit `j` of a field. -/
theorem testBit_bitsOf (x hi lo j : Nat) :
    (bitsOf x hi lo).testBit j = (decide (j < hi + 1 - lo) && x.testBit (lo + j)) := by
  simp [bitsOf, Nat.testBit_mod_two_pow, Nat.testBit_div_two_pow, Nat.add_comm]

theorem putBits_low_lt (x hi lo v : Nat) (h : lo ≤ hi) :
    2 ^ lo * (v % 2 ^ (hi + 1 - lo)) + x % 2 ^ lo < 2 ^ (hi + 1) := by
  have h1 : v % 2 ^ (hi + 1 - lo) + 1 ≤ 2 ^ (hi + 1 - lo) := Nat.mod_lt _ (Nat.two_pow_pos _)
  have h2 : x % 2 ^ lo < 2 ^ lo := Nat.mod_lt _ (Nat.two_pow_pos _)
  have h3 : 2 ^ lo * 2 ^ (hi + 1 - lo) = 2 ^ (hi + 1) := by rw [← Nat.pow_add]; congr 1; omega
  have h4 := Nat.mul_le_mul_left (2 ^ lo) h1
  rw [h3, Nat.mul_add] at h4
  omega

/-- Bit `j` of a number whose field was replaced. -/
theorem testBit_putBits (x hi lo v j : Nat) (h : lo ≤ hi) :
    (putBits x hi lo v).testBit j = if lo ≤ j ∧ j ≤ hi then v.testBit (j - lo) else x.testBit j := by
  have e : putBits x hi lo v
      = 2 ^ (hi + 1) * (x / 2 ^ (hi + 1)) + (2 ^ lo * (v % 2 ^ (hi + 1 - lo)) + x % 2 ^ lo) := by
    simp [putBits, Nat.mul_comm, Nat.add_assoc]
  rw [e, Nat.testBit_two_pow_mul_add _ (putBits_low_lt x hi lo v h),
    Nat.testBit_two_pow_mul_add _ (Nat.mod_lt _ (Nat.two_pow_pos _))]
  by_cases h1 : j < hi + 1
  · by_cases h2 : j < lo
    · have h3 : ¬ (lo ≤ j ∧ j ≤ hi) := by omega
      simp [h1, h2, h3, Nat.testBit_mod_two_pow]
    · have h3 : lo ≤ j ∧ j ≤ hi := by omega
      have h4 : j - lo < hi + 1 - lo := by omega
      simp [h1, h2, h3, h4, Nat.testBit_mod_two_pow]
  · have h3 : ¬ (lo ≤ j ∧ j ≤ hi) := by omega
    have h4 : j - (hi + 1) + (hi + 1) = j := by omega
    rw [if_neg h1, if_neg h3, Nat.testBit_div_two_pow, h4]

/-- A field reads what was written to it, cut to its width. -/
theorem bitsOf_putBits (x hi lo v : Nat) (h : lo ≤ hi) :
    bitsOf (putBits x hi lo v) hi lo = v % 2 ^ (hi + 1 - lo) := by
  apply Nat.eq_of_testBit_eq
  intro j
  rw [testBit_bitsOf, testBit_putBits _ _ _ _ _ h, Nat.testBit_mod_two_pow]
  by_cases h1 : j < hi + 1 - lo
  · have h2 : lo ≤ lo + j ∧ lo + j ≤ hi := by omega
    simp [h1, h2]
  · simp [h1]

/-- A field that shares no bit with the written one reads as before. -/
theorem bitsOf_putBits_other (x hi lo v h2 l2 : Nat) (h : lo ≤ hi) (hd : hi < l2 ∨ h2 < lo) :
    bitsOf (putBits x hi lo v) h2 l2 = bitsOf x h2 l2 := by
  apply Nat.eq_of_testBit_eq
  intro j
  rw [testBit_bitsOf, testBit_bitsOf, testBit_putBits _ _ _ _ _ h]
  by_cases h1 : j < h2 + 1 - l2
  · have h3 : ¬ (lo ≤ l2 + j ∧ l2 + j ≤ hi) := by omega
    simp [h1, h3]
  · simp [h1]

/-- A word with a field written is a word. -/
theorem putBits_lt (x hi lo v n : Nat) (h : lo ≤ hi) (hn : hi < n) (hx : x < 2 ^ n) : putBits x hi lo v < 2 ^ n := by
  apply Nat.lt_pow_two_of_testBit
  intro j hj
  rw [testBit_putBits _ _ _ _ _ h, if_neg (by omega)]
  exact Nat.testBit_lt_two_pow (Nat.lt_of_lt_of_le hx (Nat.pow_le_pow_right (by omega) hj))

theorem bitsOf_lt (x hi lo : Nat) : bitsOf x hi lo < 2 ^ (hi + 1 - lo) := Nat.mod_lt _ (Nat.two_pow_pos _)

/-- A field written with the value it has leaves the word. -/
theorem putBits_self (x hi lo : Nat) (h : lo ≤ hi) : putBits x hi lo (bitsOf x hi lo) = x := by
  apply Nat.eq_of_testBit_eq
  intro j
  rw [testBit_putBits _ _ _ _ _ h]
  by_cases h1 : lo ≤ j ∧ j ≤ hi
  · have h2 : j - lo < hi + 1 - lo := by omega
    have h3 : lo + (j - lo) = j := by omega
    simp [h1, testBit_bitsOf, h2, h3]
  · simp [h1]

theorem bitOf_eq_testBit (x i : Nat) : bitOf x i = x.testBit i := by
  simp [bitOf, Nat.testBit_eq_decide_div_mod_eq, beq_eq_decide]

theorem bitOf_putBit (x i j : Nat) (b : Bool) : bitOf (putBit x i b) j = if j = i then b else bitOf x j := by
  rw [bitOf_eq_testBit, bitOf_eq_testBit, putBit, testBit_putBits _ _ _ _ _ (Nat.le_refl i)]
  by_cases h : j = i
  · subst h
    cases b <;> simp
  · have h1 : ¬ (i ≤ j ∧ j ≤ i) := by omega
    simp [h, h1]

end Sys2Proof
end

