-- ==== Sys2Proof/Laws/Regs.lean ====
section
/-! SUPPORT. The register file: reading a register or a field after one was written; pages, channels and the other tables
after an update. -/

namespace Sys2Proof.Machine

open Sys2Proof

section assoc
variable {α : Type}

@[simp] theorem findKey_delKey_same (k : Nat) (l : List (Nat × α)) : findKey k (delKey k l) = none := by
  induction l with
  | nil => rfl
  | cons e l ih =>
    by_cases h : e.1 = k
    · simp [delKey, h, ih]
    · simp [delKey, h, findKey, ih]

theorem findKey_delKey_ne {k j : Nat} (h : j ≠ k) (l : List (Nat × α)) : findKey j (delKey k l) = findKey j l := by
  induction l with
  | nil => rfl
  | cons e l ih =>
    by_cases h1 : e.1 = k
    · have h2 : ¬ e.1 = j := by omega
      simp [delKey, h1, ih, findKey]
      omega
    · have : delKey k (e :: l) = e :: delKey k l := if_neg h1
      rw [this]
      by_cases h2 : e.1 = j <;> simp [findKey, h2, ih]

theorem findKey_insKey_same (k : Nat) (a : α) (l : List (Nat × α)) (h : findKey k l = none) :
    findKey k (insKey k a l) = some a := by
  induction l with
  | nil => simp [insKey, findKey]
  | cons e l ih =>
    have h1 : ¬ e.1 = k := by
      intro c
      simp [findKey, c] at h
    have h2 : findKey k l = none := by simpa [findKey, h1] using h
    by_cases h3 : k < e.1
    · simp [insKey, h3, findKey]
    · simp [insKey, h3, findKey, h1, ih h2]

theorem findKey_insKey_ne {k j : Nat} (h : j ≠ k) (a : α) (l : List (Nat × α)) : findKey j (insKey k a l) = findKey j l := by
  have hk : ¬ k = j := fun c => h c.symm
  induction l with
  | nil => simp [insKey, findKey, hk]
  | cons e l ih =>
    by_cases h3 : k < e.1
    · simp [insKey, h3, findKey, hk]
    · have : insKey k a (e :: l) = e :: insKey k a l := if_neg h3
      rw [this]
      by_cases h2 : e.1 = j <;> simp [findKey, h2, ih]

@[simp] theorem findKey_putKey_same (k : Nat) (a : α) (l : List (Nat × α)) : findKey k (putKey k a l) = some a :=
  findKey_insKey_same _ _ _ (findKey_delKey_same _ _)

theorem findKey_putKey_ne {k j : Nat} (h : j ≠ k) (a : α) (l : List (Nat × α)) : findKey j (putKey k a l) = findKey j l := by
  rw [putKey, findKey_insKey_ne h, findKey_delKey_ne h]

/-- A binding in one equation. -/
theorem setKey_eq (gone : Bool) (k : Nat) (a : α) (l : List (Nat × α)) :
    setKey gone k a l = if gone then delKey k l else putKey k a l := by
  cases l <;> rfl

theorem findKey_setKey_same (gone : Bool) (k : Nat) (a : α) (l : List (Nat × α)) :
    findKey k (setKey gone k a l) = if gone then none else some a := by
  rw [setKey_eq]
  split
  · exact findKey_delKey_same k l
  · exact findKey_putKey_same k a l

theorem findKey_setKey_ne {k j : Nat} (h : j ≠ k) (gone : Bool) (a : α) (l : List (Nat × α)) :
    findKey j (setKey gone k a l) = findKey j l := by
  rw [setKey_eq]
  split
  · exact findKey_delKey_ne h l
  · exact findKey_putKey_ne h a l

@[simp] theorem elemAt_putAt_ne (d : α) (l : List α) (i j : Nat) (a : α) (h : j ≠ i) :
    elemAt d (putAt l i a) j = elemAt d l j := by
  induction l generalizing i j with
  | nil => rfl
  | cons e l ih =>
    cases i with
    | zero => cases j with
      | zero => exact absurd rfl h
      | succ j => rfl
    | succ i => cases j with
      | zero => rfl
      | succ j => exact ih i j (by omega)

theorem elemAt_putAt_same (d : α) (l : List α) (i : Nat) (a : α) (h : i < l.length) : elemAt d (putAt l i a) i = a := by
  induction l generalizing i with
  | nil => simp at h
  | cons e l ih =>
    cases i with
    | zero => rfl
    | succ i => exact ih i (by simpa using h)

@[simp] theorem length_putAt (l : List α) (i : Nat) (a : α) : (putAt l i a).length = l.length := by
  induction l generalizing i with
  | nil => rfl
  | cons e l ih =>
    cases i with
    | zero => rfl
    | succ i => simp [putAt, ih]

end assoc

section registers
variable (d : Dev)

theorem getW_lt (k : Nat) : d.getW k < 2 ^ 32 := by
  unfold Dev.getW
  split
  · exact BitVec.isLt _
  · exact Nat.mod_lt _ (by decide)

/-- A register reads what was written to it. -/
@[simp] theorem getW_setW_same (k x : Nat) : (d.setW k x).getW k = x % 2 ^ 32 := by
  unfold Dev.setW Dev.getW
  simp only [findKey_setKey_same]
  by_cases h : x % 2 ^ 32 = resetWord d.part k % 2 ^ 32
  · simp only [beq_iff_eq.mpr h, if_true]
    exact h.symm
  · simp only [beq_eq_false_iff_ne.mpr h, Bool.false_eq_true, if_false, word, BitVec.toNat_ofNat]

/-- Another register reads as before. -/
theorem getW_setW_ne {k j : Nat} (h : j ≠ k) (x : Nat) : (d.setW k x).getW j = d.getW j := by
  simp only [Dev.setW, Dev.getW, findKey_setKey_ne h]

/-- The word of a register after one of its fields was written. -/
theorem getW_set_same (f : Fld) (x : Nat) (h : f.ok = true) : (d.set f x).getW f.key = putBits (d.getW f.key) f.hi f.lo x := by
  simp only [Fld.ok, Bool.and_eq_true, decide_eq_true_eq] at h
  rw [Dev.set, getW_setW_same]
  exact Nat.mod_eq_of_lt (putBits_lt _ _ _ _ _ h.1 h.2 (getW_lt d _))

theorem getW_set_ne {k : Nat} (f : Fld) (x : Nat) (h : k ≠ f.key) : (d.set f x).getW k = d.getW k := by
  rw [Dev.set, getW_setW_ne d h]

/-- A field reads what was written to it. -/
theorem get_set_same (f : Fld) (x : Nat) (h : f.ok = true) : (d.set f x).get f = x % 2 ^ (f.hi + 1 - f.lo) := by
  rw [Dev.get, getW_set_same d f x h]
  simp only [Fld.ok, Bool.and_eq_true, decide_eq_true_eq] at h
  exact bitsOf_putBits _ _ _ _ h.1

/-- A field that shares no bit with the written one reads as before. -/
theorem get_set_apart (f g : Fld) (x : Nat) (h : f.ok = true) (ha : f.apart g = true) : (d.set f x).get g = d.get g := by
  have ho := h
  simp only [Fld.ok, Bool.and_eq_true, decide_eq_true_eq] at h
  by_cases hk : g.key = f.key
  · rw [Dev.get, hk, getW_set_same d f x ho, Dev.get, hk]
    apply bitsOf_putBits_other _ _ _ _ _ _ h.1
    simp only [Fld.apart, Bool.or_eq_true, bne_iff_ne, decide_eq_true_eq, hk] at ha
    omega
  · rw [Dev.get, getW_set_ne d f x hk, Dev.get]

theorem get_setW_ne {k : Nat} (g : Fld) (x : Nat) (h : g.key ≠ k) : (d.setW k x).get g = d.get g := by
  rw [Dev.get, getW_setW_ne d h, Dev.get]

theorem get_lt (f : Fld) : d.get f < 2 ^ (f.hi + 1 - f.lo) := bitsOf_lt _ _ _

/-- A counter one short of its top at most counts exactly (saturating counters). -/
theorem get_inc_same (f : Fld) (h : f.ok = true) : (d.inc f).get f = min (d.get f + 1) (fldTop f) := by
  rw [Dev.inc, Dev.add, get_set_same d f _ h]
  apply Nat.mod_eq_of_lt
  have := Nat.two_pow_pos (f.hi + 1 - f.lo)
  unfold fldTop
  omega

theorem get_inc_apart (f g : Fld) (h : f.ok = true) (ha : f.apart g = true) : (d.inc f).get g = d.get g :=
  get_set_apart d f g _ h ha

theorem getW_inc_ne {k : Nat} (f : Fld) (h : k ≠ f.key) : (d.inc f).getW k = d.getW k := getW_set_ne d f _ h

/-- A bit reads what was written to it, and every other bit of the word as before. -/
theorem bit_setBit (k i j : Nat) (b : Bool) (hi : i < 32) :
    (d.setBit k i b).bit k j = if j = i then b else d.bit k j := by
  have : putBit (d.getW k) i b < 2 ^ 32 := putBits_lt _ _ _ _ _ (Nat.le_refl i) hi (getW_lt d _)
  rw [Dev.bit, Dev.setBit, getW_setW_same, Nat.mod_eq_of_lt this, bitOf_putBit, Dev.bit]

theorem bit_setBit_ne {k k' : Nat} (i j : Nat) (b : Bool) (h : k' ≠ k) : (d.setBit k i b).bit k' j = d.bit k' j := by
  rw [Dev.bit, Dev.setBit, getW_setW_ne d h, Dev.bit]

theorem getW_setBit_ne {k j : Nat} (i : Nat) (b : Bool) (h : j ≠ k) : (d.setBit k i b).getW j = d.getW j :=
  getW_setW_ne d h _

theorem getW_ist_ne {p i j : Nat} (h : j ≠ PG_IST p) : (d.ist p i).getW j = d.getW j := getW_setW_ne d h _

end registers

section tables
variable (d : Dev)

@[simp] theorem page_setPage_same (p : Nat) (x : PageX) : (d.setPage p x).page p = x := by
  by_cases h : x = PageX.reset
  · simp [Dev.page, Dev.setPage, findKey_setKey_same, h]
  · simp [Dev.page, Dev.setPage, findKey_setKey_same, h]

theorem page_setPage_ne {p q : Nat} (h : q ≠ p) (x : PageX) : (d.setPage p x).page q = d.page q := by
  simp only [Dev.page, Dev.setPage, findKey_setKey_ne h]

@[simp] theorem page_modPage_same (p : Nat) (f : PageX → PageX) : (d.modPage p f).page p = f (d.page p) :=
  page_setPage_same d p _

theorem page_modPage_ne {p q : Nat} (h : q ≠ p) (f : PageX → PageX) : (d.modPage p f).page q = d.page q :=
  page_setPage_ne d h _

theorem chan_setChan_same (c : Nat) (x : Chan) (h : c < d.chans.length) : (d.setChan c x).chan c = x :=
  elemAt_putAt_same _ _ _ _ h

theorem chan_setChan_ne {b c : Nat} (h : b ≠ c) (x : Chan) : (d.setChan c x).chan b = d.chan b :=
  elemAt_putAt_ne _ _ _ _ _ h

theorem chan_modChan_same (c : Nat) (f : Chan → Chan) (h : c < d.chans.length) : (d.modChan c f).chan c = f (d.chan c) :=
  chan_setChan_same d c _ h

theorem chan_modChan_ne {b c : Nat} (h : b ≠ c) (f : Chan → Chan) : (d.modChan c f).chan b = d.chan b :=
  chan_setChan_ne d h _

theorem ses_setSes_same (n : Nat) (x : Sess) (h : n < d.sess.length) : (d.setSes n x).ses n = x :=
  elemAt_putAt_same _ _ _ _ h

theorem ses_setSes_ne {m n : Nat} (h : m ≠ n) (x : Sess) : (d.setSes n x).ses m = d.ses m :=
  elemAt_putAt_ne _ _ _ _ _ h

end tables

section lists
variable {α : Type}

/-- An invariant of the body is an invariant of the loop. -/
theorem forEach_keeps (P : Dev → Prop) (l : List α) (f : Dev → α → Dev) (h : ∀ d a, P d → P (f d a)) (d : Dev) (hd : P d) :
    P (d.forEach l f) := by
  unfold Dev.forEach
  induction l generalizing d with
  | nil => exact hd
  | cons a l ih => exact ih _ (h d a hd)

/-- What no turn of the loop changes, the loop does not change. -/
theorem forEach_same {β : Type} (g : Dev → β) (l : List α) (f : Dev → α → Dev) (h : ∀ d a, g (f d a) = g d) (d : Dev) :
    g (d.forEach l f) = g d :=
  forEach_keeps (fun e => g e = g d) l f (fun e a he => (h e a).trans he) d rfl

theorem iff_keeps (P : Dev → Prop) (b : Bool) (f : Dev → Dev) (d : Dev) (hd : P d) (h : P (f d)) : P (d.iff b f) := by
  cases b
  · exact hd
  · exact h

@[simp] theorem forEach_nil (f : Dev → α → Dev) (d : Dev) : d.forEach [] f = d := rfl
@[simp] theorem forEach_cons (a : α) (l : List α) (f : Dev → α → Dev) (d : Dev) :
    d.forEach (a :: l) f = (f d a).forEach l f := rfl
@[simp] theorem iff_true (f : Dev → Dev) (d : Dev) : d.iff true f = f d := rfl
@[simp] theorem iff_false (f : Dev → Dev) (d : Dev) : d.iff false f = d := rfl

end lists

end Sys2Proof.Machine
end

