-- ==== Sys2Proof/Laws/Access.lean ====
section
/-! SUPPORT. Admitted accesses: what a register command does once the gates admit it, and which page and which row an
address of register space names. -/

namespace Sys2Proof.Machine

open Sys2Proof

theorem regAddr_page {p off : Nat} (ho : off < 4096) : (regAddr p off - 0x2000000) / 4096 = p := by
  unfold regAddr; omega

theorem regAddr_off {p off : Nat} (ho : off < 4096) : regAddr p off % 4096 = off := by
  unfold regAddr; omega

theorem inRegs_regAddr {p off : Nat} (hp : p < 512) (ho : off < 4096) : inRegs (regAddr p off) = true := by
  unfold regAddr inRegs; simp only [Bool.and_eq_true, decide_eq_true_eq]; omega

theorem populated_lt {v : Variant} {p : Nat} (h : populated v p = true) : p < 512 := by
  have h1 : Variant.channels v ≤ 64 := by cases v <;> decide
  have h2 : Variant.hamlets v ≤ 8 := by cases v <;> decide
  unfold populated Variant.mills at h
  simp only [Bool.or_eq_true, Bool.and_eq_true, decide_eq_true_eq] at h
  omega

/-- The four pages of a channel that exists are populated. -/
theorem populated_chan {d : Dev} {c k : Nat} (h : d.hasChan c = true) (hk : k < 4) : populated d.part (0x100 + 4 * c + k) = true := by
  unfold Dev.hasChan at h
  have h1 : c < Variant.channels d.part := by simpa using h
  unfold populated
  have h2 : (0x100 ≤ 0x100 + 4 * c + k && decide (0x100 + 4 * c + k < 0x100 + 4 * Variant.channels d.part)) = true := by
    simp only [Bool.and_eq_true, decide_eq_true_eq]; omega
  rw [h2, Bool.or_true]

theorem populated_ham {d : Dev} {h : Nat} (hh : d.hasHam h = true) : populated d.part (pHAM h) = true := by
  unfold Dev.hasHam at hh
  have h1 : h < Variant.hamlets d.part := by simpa using hh
  unfold populated pHAM
  have h2 : (0x90 ≤ 0x90 + h && decide (0x90 + h < 0x90 + Variant.hamlets d.part)) = true := by
    simp only [Bool.and_eq_true, decide_eq_true_eq]; omega
  rw [h2, Bool.or_true, Bool.true_or]

theorem populated_mill {d : Dev} {m : Nat} (hm : d.hasMill m = true) : populated d.part (pMILL m) = true := by
  unfold Dev.hasMill at hm
  have h1 : m < Variant.mills d.part := by simpa using hm
  unfold populated pMILL
  have h2 : (0x80 ≤ 0x80 + m && decide (0x80 + m < 0x80 + Variant.mills d.part)) = true := by
    simp only [Bool.and_eq_true, decide_eq_true_eq]; omega
  rw [h2, Bool.or_true, Bool.true_or, Bool.true_or]

/-- An access that no commit holds finds the part as it is. -/
theorem settle_of_free {d : Dev} {a n : Nat} (h : heldByDrain d a n = false) : settle d a n = d := by
  unfold settle; rw [h]; rfl

/-- A register command that the gates admit has its effect. -/
theorem regCmd_admitted {s : State} {w : Who} {a v : Nat} (h : Admits s w 1 a [v]) (f : State → State) :
    regCmd s w a v f = .next (f s) := by
  obtain ⟨h1, h2, h3, h4, h6⟩ := h
  have h5 : settle s.dev a 4 = s.dev := settle_of_free h3
  simp only [regCmd, actAll, h1, if_true, if_neg h2, gatedWrite, List.length_cons, List.length_nil]
  norm_num
  rw [h5, h4]
  cases w with
  | session n =>
    have h7 := h6 n rfl
    simp only [List.zipIdx_cons, List.zipIdx_nil, List.map_cons, List.map_nil, Nat.mul_zero, Nat.add_zero] at h7
    have h8 : badPush s.dev n (a, v) = none := by
      cases h9 : badPush s.dev n (a, v) with
      | none => rfl
      | some x => simp [h9] at h7
    simp only [h8]
  | _ => rfl

/-- A word written to a register that exists, but for a device reset. -/
theorem writeWord_reg {s : State} {w : Who} {p off v : Nat} (hp : populated s.dev.part p = true) (ho : off < 4096)
    (hr : (regRow p off).isSome = true) (hn : ¬ (p = 0 ∧ off = 0x04C)) :
    writeWord s w (regAddr p off) v = s.put (writeReg s.otp s.dev w p off v) := by
  unfold writeWord
  rw [if_pos (inRegs_regAddr (populated_lt hp) ho)]
  dsimp only
  rw [regAddr_page ho, regAddr_off ho, if_neg, if_neg hn]
  · rfl
  · rw [hp]; simp [Option.isNone_iff_eq_none, Option.isSome_iff_ne_none.mp hr]

/-- An admitted register write is the effect of the register. -/
theorem regWrite_admitted {s : State} {w : Who} {p off v : Nat} (h : Admits s w 1 (regAddr p off) [v])
    (hp : populated s.dev.part p = true) (ho : off < 4096)
    (hr : (regRow p off).isSome = true) (hn : ¬ (p = 0 ∧ off = 0x04C)) :
    regWrite s w (regAddr p off) v = .next (s.put (writeReg s.otp s.dev w p off v)) := by
  unfold regWrite
  rw [regCmd_admitted h, writeWord_reg hp ho hr hn]

/-- The row of a header register. -/
theorem regRow_header (p off : Nat) (h : off < 0x40) : regRow p off = rows_hdr.find? (fun r => rowHolds r off) := by
  unfold regRow; rw [if_pos h]

/-- The row of a register of the four pages of a channel. -/
theorem regRow_chan (c k off : Nat) (hk : k < 4) (h : 0x40 ≤ off) :
    regRow (0x100 + 4 * c + k) off =
      (if k = 0 then rows_chc else if k = 1 then rows_cht else if k = 2 then rows_chx else rows_chs).find? (fun r => rowHolds r off) := by
  unfold regRow blockRows
  have : (0x100 + 4 * c + k) % 4 = k := by omega
  rw [if_neg (by omega), if_pos (by omega), this]

theorem regRow_ham (h off : Nat) (hh : h < 8) (ho : 0x40 ≤ off) : regRow (pHAM h) off = rows_ham.find? (fun r => rowHolds r off) := by
  unfold regRow blockRows pHAM
  rw [if_neg (by omega), if_neg (by omega), if_pos (by omega)]

theorem regRow_mill (m off : Nat) (hm : m < 16) (ho : 0x40 ≤ off) : regRow (pMILL m) off = rows_mill.find? (fun r => rowHolds r off) := by
  unfold regRow blockRows pMILL
  rw [if_neg (by omega), if_neg (by omega), if_neg (by omega), if_pos (by omega)]

theorem pageChan_chan (c k : Nat) (hk : k < 4) : pageChan (0x100 + 4 * c + k) = c := by unfold pageChan; omega

/-- A write to a channel page, past the header. -/
theorem writeReg_chan (o : Otp) (d : Dev) (w : Who) (c k off v : Nat) (h : 0x40 ≤ off) :
    writeReg o d w (0x100 + 4 * c + k) off v = writeChan d w (0x100 + 4 * c + k) off v := by
  unfold writeReg
  rw [if_neg (by omega), if_pos (by omega)]

/-- A write to the header of a page. -/
theorem writeReg_header (o : Otp) (d : Dev) (w : Who) (p off v : Nat) (h : off < 0x40) :
    writeReg o d w p off v = writeHeader o d p off v := by
  unfold writeReg
  rw [if_pos h]

end Sys2Proof.Machine
end

