-- ==== Sys2Proof/Laws/State.lean ====
section
/-! SUPPORT. The updates of the state: one lemma per field that an update leaves, so that no proof unfolds an update. -/

namespace Sys2Proof.Machine

open Sys2Proof

section
variable (d : Dev)

@[simp] theorem setW_part (k x : Nat) : (d.setW k x).part = d.part := rfl
@[simp] theorem setW_step (k x : Nat) : (d.setW k x).step = d.step := rfl
@[simp] theorem setW_straps (k x : Nat) : (d.setW k x).straps = d.straps := rfl
@[simp] theorem setW_cert (k x : Nat) : (d.setW k x).cert = d.cert := rfl
@[simp] theorem setW_certPend (k x : Nat) : (d.setW k x).certPend = d.certPend := rfl
@[simp] theorem setW_aon (k x : Nat) : (d.setW k x).aon = d.aon := rfl
@[simp] theorem setW_flash (k x : Nat) : (d.setW k x).flash = d.flash := rfl
@[simp] theorem setW_shadows (k x : Nat) : (d.setW k x).shadows = d.shadows := rfl
@[simp] theorem setW_shadowAt (k x : Nat) : (d.setW k x).shadowAt = d.shadowAt := rfl
@[simp] theorem setW_shadowOld (k x : Nat) : (d.setW k x).shadowOld = d.shadowOld := rfl
@[simp] theorem setW_frozen (k x : Nat) : (d.setW k x).frozen = d.frozen := rfl
@[simp] theorem setW_mem (k x : Nat) : (d.setW k x).mem = d.mem := rfl
@[simp] theorem setW_pages (k x : Nat) : (d.setW k x).pages = d.pages := rfl
@[simp] theorem setW_chans (k x : Nat) : (d.setW k x).chans = d.chans := rfl
@[simp] theorem setW_hams (k x : Nat) : (d.setW k x).hams = d.hams := rfl
@[simp] theorem setW_mills (k x : Nat) : (d.setW k x).mills = d.mills := rfl
@[simp] theorem setW_sess (k x : Nat) : (d.setW k x).sess = d.sess := rfl
@[simp] theorem setW_ups (k x : Nat) : (d.setW k x).ups = d.ups := rfl
@[simp] theorem setW_reasm (k x : Nat) : (d.setW k x).reasm = d.reasm := rfl
@[simp] theorem setW_seen (k x : Nat) : (d.setW k x).seen = d.seen := rfl
@[simp] theorem setW_prp (k x : Nat) : (d.setW k x).prp = d.prp := rfl
@[simp] theorem setW_sec (k x : Nat) : (d.setW k x).sec = d.sec := rfl
@[simp] theorem setW_cfg (k x : Nat) : (d.setW k x).cfg = d.cfg := rfl
@[simp] theorem setW_svc (k x : Nat) : (d.setW k x).svc = d.svc := rfl
@[simp] theorem setW_tim (k x : Nat) : (d.setW k x).tim = d.tim := rfl
@[simp] theorem setW_intc (k x : Nat) : (d.setW k x).intc = d.intc := rfl
@[simp] theorem setW_gate (k x : Nat) : (d.setW k x).gate = d.gate := rfl
@[simp] theorem setW_pwr (k x : Nat) : (d.setW k x).pwr = d.pwr := rfl
@[simp] theorem setW_twin (k x : Nat) : (d.setW k x).twin = d.twin := rfl
@[simp] theorem setW_vigHeld (k x : Nat) : (d.setW k x).vigHeld = d.vigHeld := rfl
@[simp] theorem setW_vigSaved (k x : Nat) : (d.setW k x).vigSaved = d.vigSaved := rfl
@[simp] theorem setW_lastMsg (k x : Nat) : (d.setW k x).lastMsg = d.lastMsg := rfl
@[simp] theorem setW_bell (k x : Nat) : (d.setW k x).bell = d.bell := rfl
@[simp] theorem setW_pins (k x : Nat) : (d.setW k x).pins = d.pins := rfl
@[simp] theorem setW_out (k x : Nat) : (d.setW k x).out = d.out := rfl
@[simp] theorem setW_fresh (k x : Nat) : (d.setW k x).fresh = d.fresh := rfl

@[simp] theorem set_part (f : Fld) (x : Nat) : (d.set f x).part = d.part := rfl
@[simp] theorem set_step (f : Fld) (x : Nat) : (d.set f x).step = d.step := rfl
@[simp] theorem set_straps (f : Fld) (x : Nat) : (d.set f x).straps = d.straps := rfl
@[simp] theorem set_cert (f : Fld) (x : Nat) : (d.set f x).cert = d.cert := rfl
@[simp] theorem set_certPend (f : Fld) (x : Nat) : (d.set f x).certPend = d.certPend := rfl
@[simp] theorem set_aon (f : Fld) (x : Nat) : (d.set f x).aon = d.aon := rfl
@[simp] theorem set_flash (f : Fld) (x : Nat) : (d.set f x).flash = d.flash := rfl
@[simp] theorem set_shadows (f : Fld) (x : Nat) : (d.set f x).shadows = d.shadows := rfl
@[simp] theorem set_shadowAt (f : Fld) (x : Nat) : (d.set f x).shadowAt = d.shadowAt := rfl
@[simp] theorem set_shadowOld (f : Fld) (x : Nat) : (d.set f x).shadowOld = d.shadowOld := rfl
@[simp] theorem set_frozen (f : Fld) (x : Nat) : (d.set f x).frozen = d.frozen := rfl
@[simp] theorem set_mem (f : Fld) (x : Nat) : (d.set f x).mem = d.mem := rfl
@[simp] theorem set_pages (f : Fld) (x : Nat) : (d.set f x).pages = d.pages := rfl
@[simp] theorem set_chans (f : Fld) (x : Nat) : (d.set f x).chans = d.chans := rfl
@[simp] theorem set_hams (f : Fld) (x : Nat) : (d.set f x).hams = d.hams := rfl
@[simp] theorem set_mills (f : Fld) (x : Nat) : (d.set f x).mills = d.mills := rfl
@[simp] theorem set_sess (f : Fld) (x : Nat) : (d.set f x).sess = d.sess := rfl
@[simp] theorem set_ups (f : Fld) (x : Nat) : (d.set f x).ups = d.ups := rfl
@[simp] theorem set_reasm (f : Fld) (x : Nat) : (d.set f x).reasm = d.reasm := rfl
@[simp] theorem set_seen (f : Fld) (x : Nat) : (d.set f x).seen = d.seen := rfl
@[simp] theorem set_prp (f : Fld) (x : Nat) : (d.set f x).prp = d.prp := rfl
@[simp] theorem set_sec (f : Fld) (x : Nat) : (d.set f x).sec = d.sec := rfl
@[simp] theorem set_cfg (f : Fld) (x : Nat) : (d.set f x).cfg = d.cfg := rfl
@[simp] theorem set_svc (f : Fld) (x : Nat) : (d.set f x).svc = d.svc := rfl
@[simp] theorem set_tim (f : Fld) (x : Nat) : (d.set f x).tim = d.tim := rfl
@[simp] theorem set_intc (f : Fld) (x : Nat) : (d.set f x).intc = d.intc := rfl
@[simp] theorem set_gate (f : Fld) (x : Nat) : (d.set f x).gate = d.gate := rfl
@[simp] theorem set_pwr (f : Fld) (x : Nat) : (d.set f x).pwr = d.pwr := rfl
@[simp] theorem set_twin (f : Fld) (x : Nat) : (d.set f x).twin = d.twin := rfl
@[simp] theorem set_vigHeld (f : Fld) (x : Nat) : (d.set f x).vigHeld = d.vigHeld := rfl
@[simp] theorem set_vigSaved (f : Fld) (x : Nat) : (d.set f x).vigSaved = d.vigSaved := rfl
@[simp] theorem set_lastMsg (f : Fld) (x : Nat) : (d.set f x).lastMsg = d.lastMsg := rfl
@[simp] theorem set_bell (f : Fld) (x : Nat) : (d.set f x).bell = d.bell := rfl
@[simp] theorem set_pins (f : Fld) (x : Nat) : (d.set f x).pins = d.pins := rfl
@[simp] theorem set_out (f : Fld) (x : Nat) : (d.set f x).out = d.out := rfl
@[simp] theorem set_fresh (f : Fld) (x : Nat) : (d.set f x).fresh = d.fresh := rfl

@[simp] theorem setB_part (f : Fld) (b : Bool) : (d.setB f b).part = d.part := rfl
@[simp] theorem setB_step (f : Fld) (b : Bool) : (d.setB f b).step = d.step := rfl
@[simp] theorem setB_straps (f : Fld) (b : Bool) : (d.setB f b).straps = d.straps := rfl
@[simp] theorem setB_cert (f : Fld) (b : Bool) : (d.setB f b).cert = d.cert := rfl
@[simp] theorem setB_certPend (f : Fld) (b : Bool) : (d.setB f b).certPend = d.certPend := rfl
@[simp] theorem setB_aon (f : Fld) (b : Bool) : (d.setB f b).aon = d.aon := rfl
@[simp] theorem setB_flash (f : Fld) (b : Bool) : (d.setB f b).flash = d.flash := rfl
@[simp] theorem setB_shadows (f : Fld) (b : Bool) : (d.setB f b).shadows = d.shadows := rfl
@[simp] theorem setB_shadowAt (f : Fld) (b : Bool) : (d.setB f b).shadowAt = d.shadowAt := rfl
@[simp] theorem setB_shadowOld (f : Fld) (b : Bool) : (d.setB f b).shadowOld = d.shadowOld := rfl
@[simp] theorem setB_frozen (f : Fld) (b : Bool) : (d.setB f b).frozen = d.frozen := rfl
@[simp] theorem setB_mem (f : Fld) (b : Bool) : (d.setB f b).mem = d.mem := rfl
@[simp] theorem setB_pages (f : Fld) (b : Bool) : (d.setB f b).pages = d.pages := rfl
@[simp] theorem setB_chans (f : Fld) (b : Bool) : (d.setB f b).chans = d.chans := rfl
@[simp] theorem setB_hams (f : Fld) (b : Bool) : (d.setB f b).hams = d.hams := rfl
@[simp] theorem setB_mills (f : Fld) (b : Bool) : (d.setB f b).mills = d.mills := rfl
@[simp] theorem setB_sess (f : Fld) (b : Bool) : (d.setB f b).sess = d.sess := rfl
@[simp] theorem setB_ups (f : Fld) (b : Bool) : (d.setB f b).ups = d.ups := rfl
@[simp] theorem setB_reasm (f : Fld) (b : Bool) : (d.setB f b).reasm = d.reasm := rfl
@[simp] theorem setB_seen (f : Fld) (b : Bool) : (d.setB f b).seen = d.seen := rfl
@[simp] theorem setB_prp (f : Fld) (b : Bool) : (d.setB f b).prp = d.prp := rfl
@[simp] theorem setB_sec (f : Fld) (b : Bool) : (d.setB f b).sec = d.sec := rfl
@[simp] theorem setB_cfg (f : Fld) (b : Bool) : (d.setB f b).cfg = d.cfg := rfl
@[simp] theorem setB_svc (f : Fld) (b : Bool) : (d.setB f b).svc = d.svc := rfl
@[simp] theorem setB_tim (f : Fld) (b : Bool) : (d.setB f b).tim = d.tim := rfl
@[simp] theorem setB_intc (f : Fld) (b : Bool) : (d.setB f b).intc = d.intc := rfl
@[simp] theorem setB_gate (f : Fld) (b : Bool) : (d.setB f b).gate = d.gate := rfl
@[simp] theorem setB_pwr (f : Fld) (b : Bool) : (d.setB f b).pwr = d.pwr := rfl
@[simp] theorem setB_twin (f : Fld) (b : Bool) : (d.setB f b).twin = d.twin := rfl
@[simp] theorem setB_vigHeld (f : Fld) (b : Bool) : (d.setB f b).vigHeld = d.vigHeld := rfl
@[simp] theorem setB_vigSaved (f : Fld) (b : Bool) : (d.setB f b).vigSaved = d.vigSaved := rfl
@[simp] theorem setB_lastMsg (f : Fld) (b : Bool) : (d.setB f b).lastMsg = d.lastMsg := rfl
@[simp] theorem setB_bell (f : Fld) (b : Bool) : (d.setB f b).bell = d.bell := rfl
@[simp] theorem setB_pins (f : Fld) (b : Bool) : (d.setB f b).pins = d.pins := rfl
@[simp] theorem setB_out (f : Fld) (b : Bool) : (d.setB f b).out = d.out := rfl
@[simp] theorem setB_fresh (f : Fld) (b : Bool) : (d.setB f b).fresh = d.fresh := rfl

@[simp] theorem setBit_part (k i : Nat) (b : Bool) : (d.setBit k i b).part = d.part := rfl
@[simp] theorem setBit_step (k i : Nat) (b : Bool) : (d.setBit k i b).step = d.step := rfl
@[simp] theorem setBit_straps (k i : Nat) (b : Bool) : (d.setBit k i b).straps = d.straps := rfl
@[simp] theorem setBit_cert (k i : Nat) (b : Bool) : (d.setBit k i b).cert = d.cert := rfl
@[simp] theorem setBit_certPend (k i : Nat) (b : Bool) : (d.setBit k i b).certPend = d.certPend := rfl
@[simp] theorem setBit_aon (k i : Nat) (b : Bool) : (d.setBit k i b).aon = d.aon := rfl
@[simp] theorem setBit_flash (k i : Nat) (b : Bool) : (d.setBit k i b).flash = d.flash := rfl
@[simp] theorem setBit_shadows (k i : Nat) (b : Bool) : (d.setBit k i b).shadows = d.shadows := rfl
@[simp] theorem setBit_shadowAt (k i : Nat) (b : Bool) : (d.setBit k i b).shadowAt = d.shadowAt := rfl
@[simp] theorem setBit_shadowOld (k i : Nat) (b : Bool) : (d.setBit k i b).shadowOld = d.shadowOld := rfl
@[simp] theorem setBit_frozen (k i : Nat) (b : Bool) : (d.setBit k i b).frozen = d.frozen := rfl
@[simp] theorem setBit_mem (k i : Nat) (b : Bool) : (d.setBit k i b).mem = d.mem := rfl
@[simp] theorem setBit_pages (k i : Nat) (b : Bool) : (d.setBit k i b).pages = d.pages := rfl
@[simp] theorem setBit_chans (k i : Nat) (b : Bool) : (d.setBit k i b).chans = d.chans := rfl
@[simp] theorem setBit_hams (k i : Nat) (b : Bool) : (d.setBit k i b).hams = d.hams := rfl
@[simp] theorem setBit_mills (k i : Nat) (b : Bool) : (d.setBit k i b).mills = d.mills := rfl
@[simp] theorem setBit_sess (k i : Nat) (b : Bool) : (d.setBit k i b).sess = d.sess := rfl
@[simp] theorem setBit_ups (k i : Nat) (b : Bool) : (d.setBit k i b).ups = d.ups := rfl
@[simp] theorem setBit_reasm (k i : Nat) (b : Bool) : (d.setBit k i b).reasm = d.reasm := rfl
@[simp] theorem setBit_seen (k i : Nat) (b : Bool) : (d.setBit k i b).seen = d.seen := rfl
@[simp] theorem setBit_prp (k i : Nat) (b : Bool) : (d.setBit k i b).prp = d.prp := rfl
@[simp] theorem setBit_sec (k i : Nat) (b : Bool) : (d.setBit k i b).sec = d.sec := rfl
@[simp] theorem setBit_cfg (k i : Nat) (b : Bool) : (d.setBit k i b).cfg = d.cfg := rfl
@[simp] theorem setBit_svc (k i : Nat) (b : Bool) : (d.setBit k i b).svc = d.svc := rfl
@[simp] theorem setBit_tim (k i : Nat) (b : Bool) : (d.setBit k i b).tim = d.tim := rfl
@[simp] theorem setBit_intc (k i : Nat) (b : Bool) : (d.setBit k i b).intc = d.intc := rfl
@[simp] theorem setBit_gate (k i : Nat) (b : Bool) : (d.setBit k i b).gate = d.gate := rfl
@[simp] theorem setBit_pwr (k i : Nat) (b : Bool) : (d.setBit k i b).pwr = d.pwr := rfl
@[simp] theorem setBit_twin (k i : Nat) (b : Bool) : (d.setBit k i b).twin = d.twin := rfl
@[simp] theorem setBit_vigHeld (k i : Nat) (b : Bool) : (d.setBit k i b).vigHeld = d.vigHeld := rfl
@[simp] theorem setBit_vigSaved (k i : Nat) (b : Bool) : (d.setBit k i b).vigSaved = d.vigSaved := rfl
@[simp] theorem setBit_lastMsg (k i : Nat) (b : Bool) : (d.setBit k i b).lastMsg = d.lastMsg := rfl
@[simp] theorem setBit_bell (k i : Nat) (b : Bool) : (d.setBit k i b).bell = d.bell := rfl
@[simp] theorem setBit_pins (k i : Nat) (b : Bool) : (d.setBit k i b).pins = d.pins := rfl
@[simp] theorem setBit_out (k i : Nat) (b : Bool) : (d.setBit k i b).out = d.out := rfl
@[simp] theorem setBit_fresh (k i : Nat) (b : Bool) : (d.setBit k i b).fresh = d.fresh := rfl

@[simp] theorem ist_part (p i : Nat) : (d.ist p i).part = d.part := rfl
@[simp] theorem ist_step (p i : Nat) : (d.ist p i).step = d.step := rfl
@[simp] theorem ist_straps (p i : Nat) : (d.ist p i).straps = d.straps := rfl
@[simp] theorem ist_cert (p i : Nat) : (d.ist p i).cert = d.cert := rfl
@[simp] theorem ist_certPend (p i : Nat) : (d.ist p i).certPend = d.certPend := rfl
@[simp] theorem ist_aon (p i : Nat) : (d.ist p i).aon = d.aon := rfl
@[simp] theorem ist_flash (p i : Nat) : (d.ist p i).flash = d.flash := rfl
@[simp] theorem ist_shadows (p i : Nat) : (d.ist p i).shadows = d.shadows := rfl
@[simp] theorem ist_shadowAt (p i : Nat) : (d.ist p i).shadowAt = d.shadowAt := rfl
@[simp] theorem ist_shadowOld (p i : Nat) : (d.ist p i).shadowOld = d.shadowOld := rfl
@[simp] theorem ist_frozen (p i : Nat) : (d.ist p i).frozen = d.frozen := rfl
@[simp] theorem ist_mem (p i : Nat) : (d.ist p i).mem = d.mem := rfl
@[simp] theorem ist_pages (p i : Nat) : (d.ist p i).pages = d.pages := rfl
@[simp] theorem ist_chans (p i : Nat) : (d.ist p i).chans = d.chans := rfl
@[simp] theorem ist_hams (p i : Nat) : (d.ist p i).hams = d.hams := rfl
@[simp] theorem ist_mills (p i : Nat) : (d.ist p i).mills = d.mills := rfl
@[simp] theorem ist_sess (p i : Nat) : (d.ist p i).sess = d.sess := rfl
@[simp] theorem ist_ups (p i : Nat) : (d.ist p i).ups = d.ups := rfl
@[simp] theorem ist_reasm (p i : Nat) : (d.ist p i).reasm = d.reasm := rfl
@[simp] theorem ist_seen (p i : Nat) : (d.ist p i).seen = d.seen := rfl
@[simp] theorem ist_prp (p i : Nat) : (d.ist p i).prp = d.prp := rfl
@[simp] theorem ist_sec (p i : Nat) : (d.ist p i).sec = d.sec := rfl
@[simp] theorem ist_cfg (p i : Nat) : (d.ist p i).cfg = d.cfg := rfl
@[simp] theorem ist_svc (p i : Nat) : (d.ist p i).svc = d.svc := rfl
@[simp] theorem ist_tim (p i : Nat) : (d.ist p i).tim = d.tim := rfl
@[simp] theorem ist_intc (p i : Nat) : (d.ist p i).intc = d.intc := rfl
@[simp] theorem ist_gate (p i : Nat) : (d.ist p i).gate = d.gate := rfl
@[simp] theorem ist_pwr (p i : Nat) : (d.ist p i).pwr = d.pwr := rfl
@[simp] theorem ist_twin (p i : Nat) : (d.ist p i).twin = d.twin := rfl
@[simp] theorem ist_vigHeld (p i : Nat) : (d.ist p i).vigHeld = d.vigHeld := rfl
@[simp] theorem ist_vigSaved (p i : Nat) : (d.ist p i).vigSaved = d.vigSaved := rfl
@[simp] theorem ist_lastMsg (p i : Nat) : (d.ist p i).lastMsg = d.lastMsg := rfl
@[simp] theorem ist_bell (p i : Nat) : (d.ist p i).bell = d.bell := rfl
@[simp] theorem ist_pins (p i : Nat) : (d.ist p i).pins = d.pins := rfl
@[simp] theorem ist_out (p i : Nat) : (d.ist p i).out = d.out := rfl
@[simp] theorem ist_fresh (p i : Nat) : (d.ist p i).fresh = d.fresh := rfl

@[simp] theorem inc_part (f : Fld) : (d.inc f).part = d.part := rfl
@[simp] theorem inc_step (f : Fld) : (d.inc f).step = d.step := rfl
@[simp] theorem inc_straps (f : Fld) : (d.inc f).straps = d.straps := rfl
@[simp] theorem inc_cert (f : Fld) : (d.inc f).cert = d.cert := rfl
@[simp] theorem inc_certPend (f : Fld) : (d.inc f).certPend = d.certPend := rfl
@[simp] theorem inc_aon (f : Fld) : (d.inc f).aon = d.aon := rfl
@[simp] theorem inc_flash (f : Fld) : (d.inc f).flash = d.flash := rfl
@[simp] theorem inc_shadows (f : Fld) : (d.inc f).shadows = d.shadows := rfl
@[simp] theorem inc_shadowAt (f : Fld) : (d.inc f).shadowAt = d.shadowAt := rfl
@[simp] theorem inc_shadowOld (f : Fld) : (d.inc f).shadowOld = d.shadowOld := rfl
@[simp] theorem inc_frozen (f : Fld) : (d.inc f).frozen = d.frozen := rfl
@[simp] theorem inc_mem (f : Fld) : (d.inc f).mem = d.mem := rfl
@[simp] theorem inc_pages (f : Fld) : (d.inc f).pages = d.pages := rfl
@[simp] theorem inc_chans (f : Fld) : (d.inc f).chans = d.chans := rfl
@[simp] theorem inc_hams (f : Fld) : (d.inc f).hams = d.hams := rfl
@[simp] theorem inc_mills (f : Fld) : (d.inc f).mills = d.mills := rfl
@[simp] theorem inc_sess (f : Fld) : (d.inc f).sess = d.sess := rfl
@[simp] theorem inc_ups (f : Fld) : (d.inc f).ups = d.ups := rfl
@[simp] theorem inc_reasm (f : Fld) : (d.inc f).reasm = d.reasm := rfl
@[simp] theorem inc_seen (f : Fld) : (d.inc f).seen = d.seen := rfl
@[simp] theorem inc_prp (f : Fld) : (d.inc f).prp = d.prp := rfl
@[simp] theorem inc_sec (f : Fld) : (d.inc f).sec = d.sec := rfl
@[simp] theorem inc_cfg (f : Fld) : (d.inc f).cfg = d.cfg := rfl
@[simp] theorem inc_svc (f : Fld) : (d.inc f).svc = d.svc := rfl
@[simp] theorem inc_tim (f : Fld) : (d.inc f).tim = d.tim := rfl
@[simp] theorem inc_intc (f : Fld) : (d.inc f).intc = d.intc := rfl
@[simp] theorem inc_gate (f : Fld) : (d.inc f).gate = d.gate := rfl
@[simp] theorem inc_pwr (f : Fld) : (d.inc f).pwr = d.pwr := rfl
@[simp] theorem inc_twin (f : Fld) : (d.inc f).twin = d.twin := rfl
@[simp] theorem inc_vigHeld (f : Fld) : (d.inc f).vigHeld = d.vigHeld := rfl
@[simp] theorem inc_vigSaved (f : Fld) : (d.inc f).vigSaved = d.vigSaved := rfl
@[simp] theorem inc_lastMsg (f : Fld) : (d.inc f).lastMsg = d.lastMsg := rfl
@[simp] theorem inc_bell (f : Fld) : (d.inc f).bell = d.bell := rfl
@[simp] theorem inc_pins (f : Fld) : (d.inc f).pins = d.pins := rfl
@[simp] theorem inc_out (f : Fld) : (d.inc f).out = d.out := rfl
@[simp] theorem inc_fresh (f : Fld) : (d.inc f).fresh = d.fresh := rfl

@[simp] theorem add_part (f : Fld) (n : Nat) : (d.add f n).part = d.part := rfl
@[simp] theorem add_step (f : Fld) (n : Nat) : (d.add f n).step = d.step := rfl
@[simp] theorem add_straps (f : Fld) (n : Nat) : (d.add f n).straps = d.straps := rfl
@[simp] theorem add_cert (f : Fld) (n : Nat) : (d.add f n).cert = d.cert := rfl
@[simp] theorem add_certPend (f : Fld) (n : Nat) : (d.add f n).certPend = d.certPend := rfl
@[simp] theorem add_aon (f : Fld) (n : Nat) : (d.add f n).aon = d.aon := rfl
@[simp] theorem add_flash (f : Fld) (n : Nat) : (d.add f n).flash = d.flash := rfl
@[simp] theorem add_shadows (f : Fld) (n : Nat) : (d.add f n).shadows = d.shadows := rfl
@[simp] theorem add_shadowAt (f : Fld) (n : Nat) : (d.add f n).shadowAt = d.shadowAt := rfl
@[simp] theorem add_shadowOld (f : Fld) (n : Nat) : (d.add f n).shadowOld = d.shadowOld := rfl
@[simp] theorem add_frozen (f : Fld) (n : Nat) : (d.add f n).frozen = d.frozen := rfl
@[simp] theorem add_mem (f : Fld) (n : Nat) : (d.add f n).mem = d.mem := rfl
@[simp] theorem add_pages (f : Fld) (n : Nat) : (d.add f n).pages = d.pages := rfl
@[simp] theorem add_chans (f : Fld) (n : Nat) : (d.add f n).chans = d.chans := rfl
@[simp] theorem add_hams (f : Fld) (n : Nat) : (d.add f n).hams = d.hams := rfl
@[simp] theorem add_mills (f : Fld) (n : Nat) : (d.add f n).mills = d.mills := rfl
@[simp] theorem add_sess (f : Fld) (n : Nat) : (d.add f n).sess = d.sess := rfl
@[simp] theorem add_ups (f : Fld) (n : Nat) : (d.add f n).ups = d.ups := rfl
@[simp] theorem add_reasm (f : Fld) (n : Nat) : (d.add f n).reasm = d.reasm := rfl
@[simp] theorem add_seen (f : Fld) (n : Nat) : (d.add f n).seen = d.seen := rfl
@[simp] theorem add_prp (f : Fld) (n : Nat) : (d.add f n).prp = d.prp := rfl
@[simp] theorem add_sec (f : Fld) (n : Nat) : (d.add f n).sec = d.sec := rfl
@[simp] theorem add_cfg (f : Fld) (n : Nat) : (d.add f n).cfg = d.cfg := rfl
@[simp] theorem add_svc (f : Fld) (n : Nat) : (d.add f n).svc = d.svc := rfl
@[simp] theorem add_tim (f : Fld) (n : Nat) : (d.add f n).tim = d.tim := rfl
@[simp] theorem add_intc (f : Fld) (n : Nat) : (d.add f n).intc = d.intc := rfl
@[simp] theorem add_gate (f : Fld) (n : Nat) : (d.add f n).gate = d.gate := rfl
@[simp] theorem add_pwr (f : Fld) (n : Nat) : (d.add f n).pwr = d.pwr := rfl
@[simp] theorem add_twin (f : Fld) (n : Nat) : (d.add f n).twin = d.twin := rfl
@[simp] theorem add_vigHeld (f : Fld) (n : Nat) : (d.add f n).vigHeld = d.vigHeld := rfl
@[simp] theorem add_vigSaved (f : Fld) (n : Nat) : (d.add f n).vigSaved = d.vigSaved := rfl
@[simp] theorem add_lastMsg (f : Fld) (n : Nat) : (d.add f n).lastMsg = d.lastMsg := rfl
@[simp] theorem add_bell (f : Fld) (n : Nat) : (d.add f n).bell = d.bell := rfl
@[simp] theorem add_pins (f : Fld) (n : Nat) : (d.add f n).pins = d.pins := rfl
@[simp] theorem add_out (f : Fld) (n : Nat) : (d.add f n).out = d.out := rfl
@[simp] theorem add_fresh (f : Fld) (n : Nat) : (d.add f n).fresh = d.fresh := rfl

@[simp] theorem incWrap_part (f : Fld) : (d.incWrap f).part = d.part := rfl
@[simp] theorem incWrap_step (f : Fld) : (d.incWrap f).step = d.step := rfl
@[simp] theorem incWrap_straps (f : Fld) : (d.incWrap f).straps = d.straps := rfl
@[simp] theorem incWrap_cert (f : Fld) : (d.incWrap f).cert = d.cert := rfl
@[simp] theorem incWrap_certPend (f : Fld) : (d.incWrap f).certPend = d.certPend := rfl
@[simp] theorem incWrap_aon (f : Fld) : (d.incWrap f).aon = d.aon := rfl
@[simp] theorem incWrap_flash (f : Fld) : (d.incWrap f).flash = d.flash := rfl
@[simp] theorem incWrap_shadows (f : Fld) : (d.incWrap f).shadows = d.shadows := rfl
@[simp] theorem incWrap_shadowAt (f : Fld) : (d.incWrap f).shadowAt = d.shadowAt := rfl
@[simp] theorem incWrap_shadowOld (f : Fld) : (d.incWrap f).shadowOld = d.shadowOld := rfl
@[simp] theorem incWrap_frozen (f : Fld) : (d.incWrap f).frozen = d.frozen := rfl
@[simp] theorem incWrap_mem (f : Fld) : (d.incWrap f).mem = d.mem := rfl
@[simp] theorem incWrap_pages (f : Fld) : (d.incWrap f).pages = d.pages := rfl
@[simp] theorem incWrap_chans (f : Fld) : (d.incWrap f).chans = d.chans := rfl
@[simp] theorem incWrap_hams (f : Fld) : (d.incWrap f).hams = d.hams := rfl
@[simp] theorem incWrap_mills (f : Fld) : (d.incWrap f).mills = d.mills := rfl
@[simp] theorem incWrap_sess (f : Fld) : (d.incWrap f).sess = d.sess := rfl
@[simp] theorem incWrap_ups (f : Fld) : (d.incWrap f).ups = d.ups := rfl
@[simp] theorem incWrap_reasm (f : Fld) : (d.incWrap f).reasm = d.reasm := rfl
@[simp] theorem incWrap_seen (f : Fld) : (d.incWrap f).seen = d.seen := rfl
@[simp] theorem incWrap_prp (f : Fld) : (d.incWrap f).prp = d.prp := rfl
@[simp] theorem incWrap_sec (f : Fld) : (d.incWrap f).sec = d.sec := rfl
@[simp] theorem incWrap_cfg (f : Fld) : (d.incWrap f).cfg = d.cfg := rfl
@[simp] theorem incWrap_svc (f : Fld) : (d.incWrap f).svc = d.svc := rfl
@[simp] theorem incWrap_tim (f : Fld) : (d.incWrap f).tim = d.tim := rfl
@[simp] theorem incWrap_intc (f : Fld) : (d.incWrap f).intc = d.intc := rfl
@[simp] theorem incWrap_gate (f : Fld) : (d.incWrap f).gate = d.gate := rfl
@[simp] theorem incWrap_pwr (f : Fld) : (d.incWrap f).pwr = d.pwr := rfl
@[simp] theorem incWrap_twin (f : Fld) : (d.incWrap f).twin = d.twin := rfl
@[simp] theorem incWrap_vigHeld (f : Fld) : (d.incWrap f).vigHeld = d.vigHeld := rfl
@[simp] theorem incWrap_vigSaved (f : Fld) : (d.incWrap f).vigSaved = d.vigSaved := rfl
@[simp] theorem incWrap_lastMsg (f : Fld) : (d.incWrap f).lastMsg = d.lastMsg := rfl
@[simp] theorem incWrap_bell (f : Fld) : (d.incWrap f).bell = d.bell := rfl
@[simp] theorem incWrap_pins (f : Fld) : (d.incWrap f).pins = d.pins := rfl
@[simp] theorem incWrap_out (f : Fld) : (d.incWrap f).out = d.out := rfl
@[simp] theorem incWrap_fresh (f : Fld) : (d.incWrap f).fresh = d.fresh := rfl

@[simp] theorem setPage_part (p : Nat) (x : PageX) : (d.setPage p x).part = d.part := rfl
@[simp] theorem setPage_step (p : Nat) (x : PageX) : (d.setPage p x).step = d.step := rfl
@[simp] theorem setPage_straps (p : Nat) (x : PageX) : (d.setPage p x).straps = d.straps := rfl
@[simp] theorem setPage_cert (p : Nat) (x : PageX) : (d.setPage p x).cert = d.cert := rfl
@[simp] theorem setPage_certPend (p : Nat) (x : PageX) : (d.setPage p x).certPend = d.certPend := rfl
@[simp] theorem setPage_aon (p : Nat) (x : PageX) : (d.setPage p x).aon = d.aon := rfl
@[simp] theorem setPage_flash (p : Nat) (x : PageX) : (d.setPage p x).flash = d.flash := rfl
@[simp] theorem setPage_regs (p : Nat) (x : PageX) : (d.setPage p x).regs = d.regs := rfl
@[simp] theorem setPage_shadows (p : Nat) (x : PageX) : (d.setPage p x).shadows = d.shadows := rfl
@[simp] theorem setPage_shadowAt (p : Nat) (x : PageX) : (d.setPage p x).shadowAt = d.shadowAt := rfl
@[simp] theorem setPage_shadowOld (p : Nat) (x : PageX) : (d.setPage p x).shadowOld = d.shadowOld := rfl
@[simp] theorem setPage_frozen (p : Nat) (x : PageX) : (d.setPage p x).frozen = d.frozen := rfl
@[simp] theorem setPage_mem (p : Nat) (x : PageX) : (d.setPage p x).mem = d.mem := rfl
@[simp] theorem setPage_chans (p : Nat) (x : PageX) : (d.setPage p x).chans = d.chans := rfl
@[simp] theorem setPage_hams (p : Nat) (x : PageX) : (d.setPage p x).hams = d.hams := rfl
@[simp] theorem setPage_mills (p : Nat) (x : PageX) : (d.setPage p x).mills = d.mills := rfl
@[simp] theorem setPage_sess (p : Nat) (x : PageX) : (d.setPage p x).sess = d.sess := rfl
@[simp] theorem setPage_ups (p : Nat) (x : PageX) : (d.setPage p x).ups = d.ups := rfl
@[simp] theorem setPage_reasm (p : Nat) (x : PageX) : (d.setPage p x).reasm = d.reasm := rfl
@[simp] theorem setPage_seen (p : Nat) (x : PageX) : (d.setPage p x).seen = d.seen := rfl
@[simp] theorem setPage_prp (p : Nat) (x : PageX) : (d.setPage p x).prp = d.prp := rfl
@[simp] theorem setPage_sec (p : Nat) (x : PageX) : (d.setPage p x).sec = d.sec := rfl
@[simp] theorem setPage_cfg (p : Nat) (x : PageX) : (d.setPage p x).cfg = d.cfg := rfl
@[simp] theorem setPage_svc (p : Nat) (x : PageX) : (d.setPage p x).svc = d.svc := rfl
@[simp] theorem setPage_tim (p : Nat) (x : PageX) : (d.setPage p x).tim = d.tim := rfl
@[simp] theorem setPage_intc (p : Nat) (x : PageX) : (d.setPage p x).intc = d.intc := rfl
@[simp] theorem setPage_gate (p : Nat) (x : PageX) : (d.setPage p x).gate = d.gate := rfl
@[simp] theorem setPage_pwr (p : Nat) (x : PageX) : (d.setPage p x).pwr = d.pwr := rfl
@[simp] theorem setPage_twin (p : Nat) (x : PageX) : (d.setPage p x).twin = d.twin := rfl
@[simp] theorem setPage_vigHeld (p : Nat) (x : PageX) : (d.setPage p x).vigHeld = d.vigHeld := rfl
@[simp] theorem setPage_vigSaved (p : Nat) (x : PageX) : (d.setPage p x).vigSaved = d.vigSaved := rfl
@[simp] theorem setPage_lastMsg (p : Nat) (x : PageX) : (d.setPage p x).lastMsg = d.lastMsg := rfl
@[simp] theorem setPage_bell (p : Nat) (x : PageX) : (d.setPage p x).bell = d.bell := rfl
@[simp] theorem setPage_pins (p : Nat) (x : PageX) : (d.setPage p x).pins = d.pins := rfl
@[simp] theorem setPage_out (p : Nat) (x : PageX) : (d.setPage p x).out = d.out := rfl
@[simp] theorem setPage_fresh (p : Nat) (x : PageX) : (d.setPage p x).fresh = d.fresh := rfl

@[simp] theorem modPage_part (p : Nat) (f : PageX → PageX) : (d.modPage p f).part = d.part := rfl
@[simp] theorem modPage_step (p : Nat) (f : PageX → PageX) : (d.modPage p f).step = d.step := rfl
@[simp] theorem modPage_straps (p : Nat) (f : PageX → PageX) : (d.modPage p f).straps = d.straps := rfl
@[simp] theorem modPage_cert (p : Nat) (f : PageX → PageX) : (d.modPage p f).cert = d.cert := rfl
@[simp] theorem modPage_certPend (p : Nat) (f : PageX → PageX) : (d.modPage p f).certPend = d.certPend := rfl
@[simp] theorem modPage_aon (p : Nat) (f : PageX → PageX) : (d.modPage p f).aon = d.aon := rfl
@[simp] theorem modPage_flash (p : Nat) (f : PageX → PageX) : (d.modPage p f).flash = d.flash := rfl
@[simp] theorem modPage_regs (p : Nat) (f : PageX → PageX) : (d.modPage p f).regs = d.regs := rfl
@[simp] theorem modPage_shadows (p : Nat) (f : PageX → PageX) : (d.modPage p f).shadows = d.shadows := rfl
@[simp] theorem modPage_shadowAt (p : Nat) (f : PageX → PageX) : (d.modPage p f).shadowAt = d.shadowAt := rfl
@[simp] theorem modPage_shadowOld (p : Nat) (f : PageX → PageX) : (d.modPage p f).shadowOld = d.shadowOld := rfl
@[simp] theorem modPage_frozen (p : Nat) (f : PageX → PageX) : (d.modPage p f).frozen = d.frozen := rfl
@[simp] theorem modPage_mem (p : Nat) (f : PageX → PageX) : (d.modPage p f).mem = d.mem := rfl
@[simp] theorem modPage_chans (p : Nat) (f : PageX → PageX) : (d.modPage p f).chans = d.chans := rfl
@[simp] theorem modPage_hams (p : Nat) (f : PageX → PageX) : (d.modPage p f).hams = d.hams := rfl
@[simp] theorem modPage_mills (p : Nat) (f : PageX → PageX) : (d.modPage p f).mills = d.mills := rfl
@[simp] theorem modPage_sess (p : Nat) (f : PageX → PageX) : (d.modPage p f).sess = d.sess := rfl
@[simp] theorem modPage_ups (p : Nat) (f : PageX → PageX) : (d.modPage p f).ups = d.ups := rfl
@[simp] theorem modPage_reasm (p : Nat) (f : PageX → PageX) : (d.modPage p f).reasm = d.reasm := rfl
@[simp] theorem modPage_seen (p : Nat) (f : PageX → PageX) : (d.modPage p f).seen = d.seen := rfl
@[simp] theorem modPage_prp (p : Nat) (f : PageX → PageX) : (d.modPage p f).prp = d.prp := rfl
@[simp] theorem modPage_sec (p : Nat) (f : PageX → PageX) : (d.modPage p f).sec = d.sec := rfl
@[simp] theorem modPage_cfg (p : Nat) (f : PageX → PageX) : (d.modPage p f).cfg = d.cfg := rfl
@[simp] theorem modPage_svc (p : Nat) (f : PageX → PageX) : (d.modPage p f).svc = d.svc := rfl
@[simp] theorem modPage_tim (p : Nat) (f : PageX → PageX) : (d.modPage p f).tim = d.tim := rfl
@[simp] theorem modPage_intc (p : Nat) (f : PageX → PageX) : (d.modPage p f).intc = d.intc := rfl
@[simp] theorem modPage_gate (p : Nat) (f : PageX → PageX) : (d.modPage p f).gate = d.gate := rfl
@[simp] theorem modPage_pwr (p : Nat) (f : PageX → PageX) : (d.modPage p f).pwr = d.pwr := rfl
@[simp] theorem modPage_twin (p : Nat) (f : PageX → PageX) : (d.modPage p f).twin = d.twin := rfl
@[simp] theorem modPage_vigHeld (p : Nat) (f : PageX → PageX) : (d.modPage p f).vigHeld = d.vigHeld := rfl
@[simp] theorem modPage_vigSaved (p : Nat) (f : PageX → PageX) : (d.modPage p f).vigSaved = d.vigSaved := rfl
@[simp] theorem modPage_lastMsg (p : Nat) (f : PageX → PageX) : (d.modPage p f).lastMsg = d.lastMsg := rfl
@[simp] theorem modPage_bell (p : Nat) (f : PageX → PageX) : (d.modPage p f).bell = d.bell := rfl
@[simp] theorem modPage_pins (p : Nat) (f : PageX → PageX) : (d.modPage p f).pins = d.pins := rfl
@[simp] theorem modPage_out (p : Nat) (f : PageX → PageX) : (d.modPage p f).out = d.out := rfl
@[simp] theorem modPage_fresh (p : Nat) (f : PageX → PageX) : (d.modPage p f).fresh = d.fresh := rfl

@[simp] theorem setChan_part (c : Nat) (x : Chan) : (d.setChan c x).part = d.part := rfl
@[simp] theorem setChan_step (c : Nat) (x : Chan) : (d.setChan c x).step = d.step := rfl
@[simp] theorem setChan_straps (c : Nat) (x : Chan) : (d.setChan c x).straps = d.straps := rfl
@[simp] theorem setChan_cert (c : Nat) (x : Chan) : (d.setChan c x).cert = d.cert := rfl
@[simp] theorem setChan_certPend (c : Nat) (x : Chan) : (d.setChan c x).certPend = d.certPend := rfl
@[simp] theorem setChan_aon (c : Nat) (x : Chan) : (d.setChan c x).aon = d.aon := rfl
@[simp] theorem setChan_flash (c : Nat) (x : Chan) : (d.setChan c x).flash = d.flash := rfl
@[simp] theorem setChan_regs (c : Nat) (x : Chan) : (d.setChan c x).regs = d.regs := rfl
@[simp] theorem setChan_shadows (c : Nat) (x : Chan) : (d.setChan c x).shadows = d.shadows := rfl
@[simp] theorem setChan_shadowAt (c : Nat) (x : Chan) : (d.setChan c x).shadowAt = d.shadowAt := rfl
@[simp] theorem setChan_shadowOld (c : Nat) (x : Chan) : (d.setChan c x).shadowOld = d.shadowOld := rfl
@[simp] theorem setChan_frozen (c : Nat) (x : Chan) : (d.setChan c x).frozen = d.frozen := rfl
@[simp] theorem setChan_mem (c : Nat) (x : Chan) : (d.setChan c x).mem = d.mem := rfl
@[simp] theorem setChan_pages (c : Nat) (x : Chan) : (d.setChan c x).pages = d.pages := rfl
@[simp] theorem setChan_hams (c : Nat) (x : Chan) : (d.setChan c x).hams = d.hams := rfl
@[simp] theorem setChan_mills (c : Nat) (x : Chan) : (d.setChan c x).mills = d.mills := rfl
@[simp] theorem setChan_sess (c : Nat) (x : Chan) : (d.setChan c x).sess = d.sess := rfl
@[simp] theorem setChan_ups (c : Nat) (x : Chan) : (d.setChan c x).ups = d.ups := rfl
@[simp] theorem setChan_reasm (c : Nat) (x : Chan) : (d.setChan c x).reasm = d.reasm := rfl
@[simp] theorem setChan_seen (c : Nat) (x : Chan) : (d.setChan c x).seen = d.seen := rfl
@[simp] theorem setChan_prp (c : Nat) (x : Chan) : (d.setChan c x).prp = d.prp := rfl
@[simp] theorem setChan_sec (c : Nat) (x : Chan) : (d.setChan c x).sec = d.sec := rfl
@[simp] theorem setChan_cfg (c : Nat) (x : Chan) : (d.setChan c x).cfg = d.cfg := rfl
@[simp] theorem setChan_svc (c : Nat) (x : Chan) : (d.setChan c x).svc = d.svc := rfl
@[simp] theorem setChan_tim (c : Nat) (x : Chan) : (d.setChan c x).tim = d.tim := rfl
@[simp] theorem setChan_intc (c : Nat) (x : Chan) : (d.setChan c x).intc = d.intc := rfl
@[simp] theorem setChan_gate (c : Nat) (x : Chan) : (d.setChan c x).gate = d.gate := rfl
@[simp] theorem setChan_pwr (c : Nat) (x : Chan) : (d.setChan c x).pwr = d.pwr := rfl
@[simp] theorem setChan_twin (c : Nat) (x : Chan) : (d.setChan c x).twin = d.twin := rfl
@[simp] theorem setChan_vigHeld (c : Nat) (x : Chan) : (d.setChan c x).vigHeld = d.vigHeld := rfl
@[simp] theorem setChan_vigSaved (c : Nat) (x : Chan) : (d.setChan c x).vigSaved = d.vigSaved := rfl
@[simp] theorem setChan_lastMsg (c : Nat) (x : Chan) : (d.setChan c x).lastMsg = d.lastMsg := rfl
@[simp] theorem setChan_bell (c : Nat) (x : Chan) : (d.setChan c x).bell = d.bell := rfl
@[simp] theorem setChan_pins (c : Nat) (x : Chan) : (d.setChan c x).pins = d.pins := rfl
@[simp] theorem setChan_out (c : Nat) (x : Chan) : (d.setChan c x).out = d.out := rfl
@[simp] theorem setChan_fresh (c : Nat) (x : Chan) : (d.setChan c x).fresh = d.fresh := rfl

@[simp] theorem modChan_part (c : Nat) (f : Chan → Chan) : (d.modChan c f).part = d.part := rfl
@[simp] theorem modChan_step (c : Nat) (f : Chan → Chan) : (d.modChan c f).step = d.step := rfl
@[simp] theorem modChan_straps (c : Nat) (f : Chan → Chan) : (d.modChan c f).straps = d.straps := rfl
@[simp] theorem modChan_cert (c : Nat) (f : Chan → Chan) : (d.modChan c f).cert = d.cert := rfl
@[simp] theorem modChan_certPend (c : Nat) (f : Chan → Chan) : (d.modChan c f).certPend = d.certPend := rfl
@[simp] theorem modChan_aon (c : Nat) (f : Chan → Chan) : (d.modChan c f).aon = d.aon := rfl
@[simp] theorem modChan_flash (c : Nat) (f : Chan → Chan) : (d.modChan c f).flash = d.flash := rfl
@[simp] theorem modChan_regs (c : Nat) (f : Chan → Chan) : (d.modChan c f).regs = d.regs := rfl
@[simp] theorem modChan_shadows (c : Nat) (f : Chan → Chan) : (d.modChan c f).shadows = d.shadows := rfl
@[simp] theorem modChan_shadowAt (c : Nat) (f : Chan → Chan) : (d.modChan c f).shadowAt = d.shadowAt := rfl
@[simp] theorem modChan_shadowOld (c : Nat) (f : Chan → Chan) : (d.modChan c f).shadowOld = d.shadowOld := rfl
@[simp] theorem modChan_frozen (c : Nat) (f : Chan → Chan) : (d.modChan c f).frozen = d.frozen := rfl
@[simp] theorem modChan_mem (c : Nat) (f : Chan → Chan) : (d.modChan c f).mem = d.mem := rfl
@[simp] theorem modChan_pages (c : Nat) (f : Chan → Chan) : (d.modChan c f).pages = d.pages := rfl
@[simp] theorem modChan_hams (c : Nat) (f : Chan → Chan) : (d.modChan c f).hams = d.hams := rfl
@[simp] theorem modChan_mills (c : Nat) (f : Chan → Chan) : (d.modChan c f).mills = d.mills := rfl
@[simp] theorem modChan_sess (c : Nat) (f : Chan → Chan) : (d.modChan c f).sess = d.sess := rfl
@[simp] theorem modChan_ups (c : Nat) (f : Chan → Chan) : (d.modChan c f).ups = d.ups := rfl
@[simp] theorem modChan_reasm (c : Nat) (f : Chan → Chan) : (d.modChan c f).reasm = d.reasm := rfl
@[simp] theorem modChan_seen (c : Nat) (f : Chan → Chan) : (d.modChan c f).seen = d.seen := rfl
@[simp] theorem modChan_prp (c : Nat) (f : Chan → Chan) : (d.modChan c f).prp = d.prp := rfl
@[simp] theorem modChan_sec (c : Nat) (f : Chan → Chan) : (d.modChan c f).sec = d.sec := rfl
@[simp] theorem modChan_cfg (c : Nat) (f : Chan → Chan) : (d.modChan c f).cfg = d.cfg := rfl
@[simp] theorem modChan_svc (c : Nat) (f : Chan → Chan) : (d.modChan c f).svc = d.svc := rfl
@[simp] theorem modChan_tim (c : Nat) (f : Chan → Chan) : (d.modChan c f).tim = d.tim := rfl
@[simp] theorem modChan_intc (c : Nat) (f : Chan → Chan) : (d.modChan c f).intc = d.intc := rfl
@[simp] theorem modChan_gate (c : Nat) (f : Chan → Chan) : (d.modChan c f).gate = d.gate := rfl
@[simp] theorem modChan_pwr (c : Nat) (f : Chan → Chan) : (d.modChan c f).pwr = d.pwr := rfl
@[simp] theorem modChan_twin (c : Nat) (f : Chan → Chan) : (d.modChan c f).twin = d.twin := rfl
@[simp] theorem modChan_vigHeld (c : Nat) (f : Chan → Chan) : (d.modChan c f).vigHeld = d.vigHeld := rfl
@[simp] theorem modChan_vigSaved (c : Nat) (f : Chan → Chan) : (d.modChan c f).vigSaved = d.vigSaved := rfl
@[simp] theorem modChan_lastMsg (c : Nat) (f : Chan → Chan) : (d.modChan c f).lastMsg = d.lastMsg := rfl
@[simp] theorem modChan_bell (c : Nat) (f : Chan → Chan) : (d.modChan c f).bell = d.bell := rfl
@[simp] theorem modChan_pins (c : Nat) (f : Chan → Chan) : (d.modChan c f).pins = d.pins := rfl
@[simp] theorem modChan_out (c : Nat) (f : Chan → Chan) : (d.modChan c f).out = d.out := rfl
@[simp] theorem modChan_fresh (c : Nat) (f : Chan → Chan) : (d.modChan c f).fresh = d.fresh := rfl

@[simp] theorem setHam_part (h : Nat) (x : Ham) : (d.setHam h x).part = d.part := rfl
@[simp] theorem setHam_step (h : Nat) (x : Ham) : (d.setHam h x).step = d.step := rfl
@[simp] theorem setHam_straps (h : Nat) (x : Ham) : (d.setHam h x).straps = d.straps := rfl
@[simp] theorem setHam_cert (h : Nat) (x : Ham) : (d.setHam h x).cert = d.cert := rfl
@[simp] theorem setHam_certPend (h : Nat) (x : Ham) : (d.setHam h x).certPend = d.certPend := rfl
@[simp] theorem setHam_aon (h : Nat) (x : Ham) : (d.setHam h x).aon = d.aon := rfl
@[simp] theorem setHam_flash (h : Nat) (x : Ham) : (d.setHam h x).flash = d.flash := rfl
@[simp] theorem setHam_regs (h : Nat) (x : Ham) : (d.setHam h x).regs = d.regs := rfl
@[simp] theorem setHam_shadows (h : Nat) (x : Ham) : (d.setHam h x).shadows = d.shadows := rfl
@[simp] theorem setHam_shadowAt (h : Nat) (x : Ham) : (d.setHam h x).shadowAt = d.shadowAt := rfl
@[simp] theorem setHam_shadowOld (h : Nat) (x : Ham) : (d.setHam h x).shadowOld = d.shadowOld := rfl
@[simp] theorem setHam_frozen (h : Nat) (x : Ham) : (d.setHam h x).frozen = d.frozen := rfl
@[simp] theorem setHam_mem (h : Nat) (x : Ham) : (d.setHam h x).mem = d.mem := rfl
@[simp] theorem setHam_pages (h : Nat) (x : Ham) : (d.setHam h x).pages = d.pages := rfl
@[simp] theorem setHam_chans (h : Nat) (x : Ham) : (d.setHam h x).chans = d.chans := rfl
@[simp] theorem setHam_mills (h : Nat) (x : Ham) : (d.setHam h x).mills = d.mills := rfl
@[simp] theorem setHam_sess (h : Nat) (x : Ham) : (d.setHam h x).sess = d.sess := rfl
@[simp] theorem setHam_ups (h : Nat) (x : Ham) : (d.setHam h x).ups = d.ups := rfl
@[simp] theorem setHam_reasm (h : Nat) (x : Ham) : (d.setHam h x).reasm = d.reasm := rfl
@[simp] theorem setHam_seen (h : Nat) (x : Ham) : (d.setHam h x).seen = d.seen := rfl
@[simp] theorem setHam_prp (h : Nat) (x : Ham) : (d.setHam h x).prp = d.prp := rfl
@[simp] theorem setHam_sec (h : Nat) (x : Ham) : (d.setHam h x).sec = d.sec := rfl
@[simp] theorem setHam_cfg (h : Nat) (x : Ham) : (d.setHam h x).cfg = d.cfg := rfl
@[simp] theorem setHam_svc (h : Nat) (x : Ham) : (d.setHam h x).svc = d.svc := rfl
@[simp] theorem setHam_tim (h : Nat) (x : Ham) : (d.setHam h x).tim = d.tim := rfl
@[simp] theorem setHam_intc (h : Nat) (x : Ham) : (d.setHam h x).intc = d.intc := rfl
@[simp] theorem setHam_gate (h : Nat) (x : Ham) : (d.setHam h x).gate = d.gate := rfl
@[simp] theorem setHam_pwr (h : Nat) (x : Ham) : (d.setHam h x).pwr = d.pwr := rfl
@[simp] theorem setHam_twin (h : Nat) (x : Ham) : (d.setHam h x).twin = d.twin := rfl
@[simp] theorem setHam_vigHeld (h : Nat) (x : Ham) : (d.setHam h x).vigHeld = d.vigHeld := rfl
@[simp] theorem setHam_vigSaved (h : Nat) (x : Ham) : (d.setHam h x).vigSaved = d.vigSaved := rfl
@[simp] theorem setHam_lastMsg (h : Nat) (x : Ham) : (d.setHam h x).lastMsg = d.lastMsg := rfl
@[simp] theorem setHam_bell (h : Nat) (x : Ham) : (d.setHam h x).bell = d.bell := rfl
@[simp] theorem setHam_pins (h : Nat) (x : Ham) : (d.setHam h x).pins = d.pins := rfl
@[simp] theorem setHam_out (h : Nat) (x : Ham) : (d.setHam h x).out = d.out := rfl
@[simp] theorem setHam_fresh (h : Nat) (x : Ham) : (d.setHam h x).fresh = d.fresh := rfl

@[simp] theorem setMill_part (m : Nat) (x : Mill) : (d.setMill m x).part = d.part := rfl
@[simp] theorem setMill_step (m : Nat) (x : Mill) : (d.setMill m x).step = d.step := rfl
@[simp] theorem setMill_straps (m : Nat) (x : Mill) : (d.setMill m x).straps = d.straps := rfl
@[simp] theorem setMill_cert (m : Nat) (x : Mill) : (d.setMill m x).cert = d.cert := rfl
@[simp] theorem setMill_certPend (m : Nat) (x : Mill) : (d.setMill m x).certPend = d.certPend := rfl
@[simp] theorem setMill_aon (m : Nat) (x : Mill) : (d.setMill m x).aon = d.aon := rfl
@[simp] theorem setMill_flash (m : Nat) (x : Mill) : (d.setMill m x).flash = d.flash := rfl
@[simp] theorem setMill_regs (m : Nat) (x : Mill) : (d.setMill m x).regs = d.regs := rfl
@[simp] theorem setMill_shadows (m : Nat) (x : Mill) : (d.setMill m x).shadows = d.shadows := rfl
@[simp] theorem setMill_shadowAt (m : Nat) (x : Mill) : (d.setMill m x).shadowAt = d.shadowAt := rfl
@[simp] theorem setMill_shadowOld (m : Nat) (x : Mill) : (d.setMill m x).shadowOld = d.shadowOld := rfl
@[simp] theorem setMill_frozen (m : Nat) (x : Mill) : (d.setMill m x).frozen = d.frozen := rfl
@[simp] theorem setMill_mem (m : Nat) (x : Mill) : (d.setMill m x).mem = d.mem := rfl
@[simp] theorem setMill_pages (m : Nat) (x : Mill) : (d.setMill m x).pages = d.pages := rfl
@[simp] theorem setMill_chans (m : Nat) (x : Mill) : (d.setMill m x).chans = d.chans := rfl
@[simp] theorem setMill_hams (m : Nat) (x : Mill) : (d.setMill m x).hams = d.hams := rfl
@[simp] theorem setMill_sess (m : Nat) (x : Mill) : (d.setMill m x).sess = d.sess := rfl
@[simp] theorem setMill_ups (m : Nat) (x : Mill) : (d.setMill m x).ups = d.ups := rfl
@[simp] theorem setMill_reasm (m : Nat) (x : Mill) : (d.setMill m x).reasm = d.reasm := rfl
@[simp] theorem setMill_seen (m : Nat) (x : Mill) : (d.setMill m x).seen = d.seen := rfl
@[simp] theorem setMill_prp (m : Nat) (x : Mill) : (d.setMill m x).prp = d.prp := rfl
@[simp] theorem setMill_sec (m : Nat) (x : Mill) : (d.setMill m x).sec = d.sec := rfl
@[simp] theorem setMill_cfg (m : Nat) (x : Mill) : (d.setMill m x).cfg = d.cfg := rfl
@[simp] theorem setMill_svc (m : Nat) (x : Mill) : (d.setMill m x).svc = d.svc := rfl
@[simp] theorem setMill_tim (m : Nat) (x : Mill) : (d.setMill m x).tim = d.tim := rfl
@[simp] theorem setMill_intc (m : Nat) (x : Mill) : (d.setMill m x).intc = d.intc := rfl
@[simp] theorem setMill_gate (m : Nat) (x : Mill) : (d.setMill m x).gate = d.gate := rfl
@[simp] theorem setMill_pwr (m : Nat) (x : Mill) : (d.setMill m x).pwr = d.pwr := rfl
@[simp] theorem setMill_twin (m : Nat) (x : Mill) : (d.setMill m x).twin = d.twin := rfl
@[simp] theorem setMill_vigHeld (m : Nat) (x : Mill) : (d.setMill m x).vigHeld = d.vigHeld := rfl
@[simp] theorem setMill_vigSaved (m : Nat) (x : Mill) : (d.setMill m x).vigSaved = d.vigSaved := rfl
@[simp] theorem setMill_lastMsg (m : Nat) (x : Mill) : (d.setMill m x).lastMsg = d.lastMsg := rfl
@[simp] theorem setMill_bell (m : Nat) (x : Mill) : (d.setMill m x).bell = d.bell := rfl
@[simp] theorem setMill_pins (m : Nat) (x : Mill) : (d.setMill m x).pins = d.pins := rfl
@[simp] theorem setMill_out (m : Nat) (x : Mill) : (d.setMill m x).out = d.out := rfl
@[simp] theorem setMill_fresh (m : Nat) (x : Mill) : (d.setMill m x).fresh = d.fresh := rfl

@[simp] theorem setSes_part (n : Nat) (x : Sess) : (d.setSes n x).part = d.part := rfl
@[simp] theorem setSes_step (n : Nat) (x : Sess) : (d.setSes n x).step = d.step := rfl
@[simp] theorem setSes_straps (n : Nat) (x : Sess) : (d.setSes n x).straps = d.straps := rfl
@[simp] theorem setSes_cert (n : Nat) (x : Sess) : (d.setSes n x).cert = d.cert := rfl
@[simp] theorem setSes_certPend (n : Nat) (x : Sess) : (d.setSes n x).certPend = d.certPend := rfl
@[simp] theorem setSes_aon (n : Nat) (x : Sess) : (d.setSes n x).aon = d.aon := rfl
@[simp] theorem setSes_flash (n : Nat) (x : Sess) : (d.setSes n x).flash = d.flash := rfl
@[simp] theorem setSes_regs (n : Nat) (x : Sess) : (d.setSes n x).regs = d.regs := rfl
@[simp] theorem setSes_shadows (n : Nat) (x : Sess) : (d.setSes n x).shadows = d.shadows := rfl
@[simp] theorem setSes_shadowAt (n : Nat) (x : Sess) : (d.setSes n x).shadowAt = d.shadowAt := rfl
@[simp] theorem setSes_shadowOld (n : Nat) (x : Sess) : (d.setSes n x).shadowOld = d.shadowOld := rfl
@[simp] theorem setSes_frozen (n : Nat) (x : Sess) : (d.setSes n x).frozen = d.frozen := rfl
@[simp] theorem setSes_mem (n : Nat) (x : Sess) : (d.setSes n x).mem = d.mem := rfl
@[simp] theorem setSes_pages (n : Nat) (x : Sess) : (d.setSes n x).pages = d.pages := rfl
@[simp] theorem setSes_chans (n : Nat) (x : Sess) : (d.setSes n x).chans = d.chans := rfl
@[simp] theorem setSes_hams (n : Nat) (x : Sess) : (d.setSes n x).hams = d.hams := rfl
@[simp] theorem setSes_mills (n : Nat) (x : Sess) : (d.setSes n x).mills = d.mills := rfl
@[simp] theorem setSes_ups (n : Nat) (x : Sess) : (d.setSes n x).ups = d.ups := rfl
@[simp] theorem setSes_reasm (n : Nat) (x : Sess) : (d.setSes n x).reasm = d.reasm := rfl
@[simp] theorem setSes_seen (n : Nat) (x : Sess) : (d.setSes n x).seen = d.seen := rfl
@[simp] theorem setSes_prp (n : Nat) (x : Sess) : (d.setSes n x).prp = d.prp := rfl
@[simp] theorem setSes_sec (n : Nat) (x : Sess) : (d.setSes n x).sec = d.sec := rfl
@[simp] theorem setSes_cfg (n : Nat) (x : Sess) : (d.setSes n x).cfg = d.cfg := rfl
@[simp] theorem setSes_svc (n : Nat) (x : Sess) : (d.setSes n x).svc = d.svc := rfl
@[simp] theorem setSes_tim (n : Nat) (x : Sess) : (d.setSes n x).tim = d.tim := rfl
@[simp] theorem setSes_intc (n : Nat) (x : Sess) : (d.setSes n x).intc = d.intc := rfl
@[simp] theorem setSes_gate (n : Nat) (x : Sess) : (d.setSes n x).gate = d.gate := rfl
@[simp] theorem setSes_pwr (n : Nat) (x : Sess) : (d.setSes n x).pwr = d.pwr := rfl
@[simp] theorem setSes_twin (n : Nat) (x : Sess) : (d.setSes n x).twin = d.twin := rfl
@[simp] theorem setSes_vigHeld (n : Nat) (x : Sess) : (d.setSes n x).vigHeld = d.vigHeld := rfl
@[simp] theorem setSes_vigSaved (n : Nat) (x : Sess) : (d.setSes n x).vigSaved = d.vigSaved := rfl
@[simp] theorem setSes_lastMsg (n : Nat) (x : Sess) : (d.setSes n x).lastMsg = d.lastMsg := rfl
@[simp] theorem setSes_bell (n : Nat) (x : Sess) : (d.setSes n x).bell = d.bell := rfl
@[simp] theorem setSes_pins (n : Nat) (x : Sess) : (d.setSes n x).pins = d.pins := rfl
@[simp] theorem setSes_out (n : Nat) (x : Sess) : (d.setSes n x).out = d.out := rfl
@[simp] theorem setSes_fresh (n : Nat) (x : Sess) : (d.setSes n x).fresh = d.fresh := rfl

@[simp] theorem modSes_part (n : Nat) (f : Sess → Sess) : (d.modSes n f).part = d.part := rfl
@[simp] theorem modSes_step (n : Nat) (f : Sess → Sess) : (d.modSes n f).step = d.step := rfl
@[simp] theorem modSes_straps (n : Nat) (f : Sess → Sess) : (d.modSes n f).straps = d.straps := rfl
@[simp] theorem modSes_cert (n : Nat) (f : Sess → Sess) : (d.modSes n f).cert = d.cert := rfl
@[simp] theorem modSes_certPend (n : Nat) (f : Sess → Sess) : (d.modSes n f).certPend = d.certPend := rfl
@[simp] theorem modSes_aon (n : Nat) (f : Sess → Sess) : (d.modSes n f).aon = d.aon := rfl
@[simp] theorem modSes_flash (n : Nat) (f : Sess → Sess) : (d.modSes n f).flash = d.flash := rfl
@[simp] theorem modSes_regs (n : Nat) (f : Sess → Sess) : (d.modSes n f).regs = d.regs := rfl
@[simp] theorem modSes_shadows (n : Nat) (f : Sess → Sess) : (d.modSes n f).shadows = d.shadows := rfl
@[simp] theorem modSes_shadowAt (n : Nat) (f : Sess → Sess) : (d.modSes n f).shadowAt = d.shadowAt := rfl
@[simp] theorem modSes_shadowOld (n : Nat) (f : Sess → Sess) : (d.modSes n f).shadowOld = d.shadowOld := rfl
@[simp] theorem modSes_frozen (n : Nat) (f : Sess → Sess) : (d.modSes n f).frozen = d.frozen := rfl
@[simp] theorem modSes_mem (n : Nat) (f : Sess → Sess) : (d.modSes n f).mem = d.mem := rfl
@[simp] theorem modSes_pages (n : Nat) (f : Sess → Sess) : (d.modSes n f).pages = d.pages := rfl
@[simp] theorem modSes_chans (n : Nat) (f : Sess → Sess) : (d.modSes n f).chans = d.chans := rfl
@[simp] theorem modSes_hams (n : Nat) (f : Sess → Sess) : (d.modSes n f).hams = d.hams := rfl
@[simp] theorem modSes_mills (n : Nat) (f : Sess → Sess) : (d.modSes n f).mills = d.mills := rfl
@[simp] theorem modSes_ups (n : Nat) (f : Sess → Sess) : (d.modSes n f).ups = d.ups := rfl
@[simp] theorem modSes_reasm (n : Nat) (f : Sess → Sess) : (d.modSes n f).reasm = d.reasm := rfl
@[simp] theorem modSes_seen (n : Nat) (f : Sess → Sess) : (d.modSes n f).seen = d.seen := rfl
@[simp] theorem modSes_prp (n : Nat) (f : Sess → Sess) : (d.modSes n f).prp = d.prp := rfl
@[simp] theorem modSes_sec (n : Nat) (f : Sess → Sess) : (d.modSes n f).sec = d.sec := rfl
@[simp] theorem modSes_cfg (n : Nat) (f : Sess → Sess) : (d.modSes n f).cfg = d.cfg := rfl
@[simp] theorem modSes_svc (n : Nat) (f : Sess → Sess) : (d.modSes n f).svc = d.svc := rfl
@[simp] theorem modSes_tim (n : Nat) (f : Sess → Sess) : (d.modSes n f).tim = d.tim := rfl
@[simp] theorem modSes_intc (n : Nat) (f : Sess → Sess) : (d.modSes n f).intc = d.intc := rfl
@[simp] theorem modSes_gate (n : Nat) (f : Sess → Sess) : (d.modSes n f).gate = d.gate := rfl
@[simp] theorem modSes_pwr (n : Nat) (f : Sess → Sess) : (d.modSes n f).pwr = d.pwr := rfl
@[simp] theorem modSes_twin (n : Nat) (f : Sess → Sess) : (d.modSes n f).twin = d.twin := rfl
@[simp] theorem modSes_vigHeld (n : Nat) (f : Sess → Sess) : (d.modSes n f).vigHeld = d.vigHeld := rfl
@[simp] theorem modSes_vigSaved (n : Nat) (f : Sess → Sess) : (d.modSes n f).vigSaved = d.vigSaved := rfl
@[simp] theorem modSes_lastMsg (n : Nat) (f : Sess → Sess) : (d.modSes n f).lastMsg = d.lastMsg := rfl
@[simp] theorem modSes_bell (n : Nat) (f : Sess → Sess) : (d.modSes n f).bell = d.bell := rfl
@[simp] theorem modSes_pins (n : Nat) (f : Sess → Sess) : (d.modSes n f).pins = d.pins := rfl
@[simp] theorem modSes_out (n : Nat) (f : Sess → Sess) : (d.modSes n f).out = d.out := rfl
@[simp] theorem modSes_fresh (n : Nat) (f : Sess → Sess) : (d.modSes n f).fresh = d.fresh := rfl

@[simp] theorem setDom_part (n : Nat) (x : Dom) : (d.setDom n x).part = d.part := rfl
@[simp] theorem setDom_step (n : Nat) (x : Dom) : (d.setDom n x).step = d.step := rfl
@[simp] theorem setDom_straps (n : Nat) (x : Dom) : (d.setDom n x).straps = d.straps := rfl
@[simp] theorem setDom_cert (n : Nat) (x : Dom) : (d.setDom n x).cert = d.cert := rfl
@[simp] theorem setDom_certPend (n : Nat) (x : Dom) : (d.setDom n x).certPend = d.certPend := rfl
@[simp] theorem setDom_aon (n : Nat) (x : Dom) : (d.setDom n x).aon = d.aon := rfl
@[simp] theorem setDom_flash (n : Nat) (x : Dom) : (d.setDom n x).flash = d.flash := rfl
@[simp] theorem setDom_regs (n : Nat) (x : Dom) : (d.setDom n x).regs = d.regs := rfl
@[simp] theorem setDom_shadows (n : Nat) (x : Dom) : (d.setDom n x).shadows = d.shadows := rfl
@[simp] theorem setDom_shadowAt (n : Nat) (x : Dom) : (d.setDom n x).shadowAt = d.shadowAt := rfl
@[simp] theorem setDom_shadowOld (n : Nat) (x : Dom) : (d.setDom n x).shadowOld = d.shadowOld := rfl
@[simp] theorem setDom_frozen (n : Nat) (x : Dom) : (d.setDom n x).frozen = d.frozen := rfl
@[simp] theorem setDom_mem (n : Nat) (x : Dom) : (d.setDom n x).mem = d.mem := rfl
@[simp] theorem setDom_pages (n : Nat) (x : Dom) : (d.setDom n x).pages = d.pages := rfl
@[simp] theorem setDom_chans (n : Nat) (x : Dom) : (d.setDom n x).chans = d.chans := rfl
@[simp] theorem setDom_hams (n : Nat) (x : Dom) : (d.setDom n x).hams = d.hams := rfl
@[simp] theorem setDom_mills (n : Nat) (x : Dom) : (d.setDom n x).mills = d.mills := rfl
@[simp] theorem setDom_sess (n : Nat) (x : Dom) : (d.setDom n x).sess = d.sess := rfl
@[simp] theorem setDom_ups (n : Nat) (x : Dom) : (d.setDom n x).ups = d.ups := rfl
@[simp] theorem setDom_reasm (n : Nat) (x : Dom) : (d.setDom n x).reasm = d.reasm := rfl
@[simp] theorem setDom_seen (n : Nat) (x : Dom) : (d.setDom n x).seen = d.seen := rfl
@[simp] theorem setDom_prp (n : Nat) (x : Dom) : (d.setDom n x).prp = d.prp := rfl
@[simp] theorem setDom_sec (n : Nat) (x : Dom) : (d.setDom n x).sec = d.sec := rfl
@[simp] theorem setDom_cfg (n : Nat) (x : Dom) : (d.setDom n x).cfg = d.cfg := rfl
@[simp] theorem setDom_svc (n : Nat) (x : Dom) : (d.setDom n x).svc = d.svc := rfl
@[simp] theorem setDom_intc (n : Nat) (x : Dom) : (d.setDom n x).intc = d.intc := rfl
@[simp] theorem setDom_gate (n : Nat) (x : Dom) : (d.setDom n x).gate = d.gate := rfl
@[simp] theorem setDom_pwr (n : Nat) (x : Dom) : (d.setDom n x).pwr = d.pwr := rfl
@[simp] theorem setDom_twin (n : Nat) (x : Dom) : (d.setDom n x).twin = d.twin := rfl
@[simp] theorem setDom_vigHeld (n : Nat) (x : Dom) : (d.setDom n x).vigHeld = d.vigHeld := rfl
@[simp] theorem setDom_vigSaved (n : Nat) (x : Dom) : (d.setDom n x).vigSaved = d.vigSaved := rfl
@[simp] theorem setDom_lastMsg (n : Nat) (x : Dom) : (d.setDom n x).lastMsg = d.lastMsg := rfl
@[simp] theorem setDom_bell (n : Nat) (x : Dom) : (d.setDom n x).bell = d.bell := rfl
@[simp] theorem setDom_pins (n : Nat) (x : Dom) : (d.setDom n x).pins = d.pins := rfl
@[simp] theorem setDom_out (n : Nat) (x : Dom) : (d.setDom n x).out = d.out := rfl
@[simp] theorem setDom_fresh (n : Nat) (x : Dom) : (d.setDom n x).fresh = d.fresh := rfl

@[simp] theorem setMemW_part (a x : Nat) : (d.setMemW a x).part = d.part := rfl
@[simp] theorem setMemW_step (a x : Nat) : (d.setMemW a x).step = d.step := rfl
@[simp] theorem setMemW_straps (a x : Nat) : (d.setMemW a x).straps = d.straps := rfl
@[simp] theorem setMemW_cert (a x : Nat) : (d.setMemW a x).cert = d.cert := rfl
@[simp] theorem setMemW_certPend (a x : Nat) : (d.setMemW a x).certPend = d.certPend := rfl
@[simp] theorem setMemW_aon (a x : Nat) : (d.setMemW a x).aon = d.aon := rfl
@[simp] theorem setMemW_flash (a x : Nat) : (d.setMemW a x).flash = d.flash := rfl
@[simp] theorem setMemW_regs (a x : Nat) : (d.setMemW a x).regs = d.regs := rfl
@[simp] theorem setMemW_shadows (a x : Nat) : (d.setMemW a x).shadows = d.shadows := rfl
@[simp] theorem setMemW_shadowAt (a x : Nat) : (d.setMemW a x).shadowAt = d.shadowAt := rfl
@[simp] theorem setMemW_shadowOld (a x : Nat) : (d.setMemW a x).shadowOld = d.shadowOld := rfl
@[simp] theorem setMemW_frozen (a x : Nat) : (d.setMemW a x).frozen = d.frozen := rfl
@[simp] theorem setMemW_pages (a x : Nat) : (d.setMemW a x).pages = d.pages := rfl
@[simp] theorem setMemW_chans (a x : Nat) : (d.setMemW a x).chans = d.chans := rfl
@[simp] theorem setMemW_hams (a x : Nat) : (d.setMemW a x).hams = d.hams := rfl
@[simp] theorem setMemW_mills (a x : Nat) : (d.setMemW a x).mills = d.mills := rfl
@[simp] theorem setMemW_sess (a x : Nat) : (d.setMemW a x).sess = d.sess := rfl
@[simp] theorem setMemW_ups (a x : Nat) : (d.setMemW a x).ups = d.ups := rfl
@[simp] theorem setMemW_reasm (a x : Nat) : (d.setMemW a x).reasm = d.reasm := rfl
@[simp] theorem setMemW_seen (a x : Nat) : (d.setMemW a x).seen = d.seen := rfl
@[simp] theorem setMemW_prp (a x : Nat) : (d.setMemW a x).prp = d.prp := rfl
@[simp] theorem setMemW_sec (a x : Nat) : (d.setMemW a x).sec = d.sec := rfl
@[simp] theorem setMemW_cfg (a x : Nat) : (d.setMemW a x).cfg = d.cfg := rfl
@[simp] theorem setMemW_svc (a x : Nat) : (d.setMemW a x).svc = d.svc := rfl
@[simp] theorem setMemW_tim (a x : Nat) : (d.setMemW a x).tim = d.tim := rfl
@[simp] theorem setMemW_intc (a x : Nat) : (d.setMemW a x).intc = d.intc := rfl
@[simp] theorem setMemW_gate (a x : Nat) : (d.setMemW a x).gate = d.gate := rfl
@[simp] theorem setMemW_pwr (a x : Nat) : (d.setMemW a x).pwr = d.pwr := rfl
@[simp] theorem setMemW_twin (a x : Nat) : (d.setMemW a x).twin = d.twin := rfl
@[simp] theorem setMemW_vigHeld (a x : Nat) : (d.setMemW a x).vigHeld = d.vigHeld := rfl
@[simp] theorem setMemW_vigSaved (a x : Nat) : (d.setMemW a x).vigSaved = d.vigSaved := rfl
@[simp] theorem setMemW_lastMsg (a x : Nat) : (d.setMemW a x).lastMsg = d.lastMsg := rfl
@[simp] theorem setMemW_bell (a x : Nat) : (d.setMemW a x).bell = d.bell := rfl
@[simp] theorem setMemW_pins (a x : Nat) : (d.setMemW a x).pins = d.pins := rfl
@[simp] theorem setMemW_out (a x : Nat) : (d.setMemW a x).out = d.out := rfl
@[simp] theorem setMemW_fresh (a x : Nat) : (d.setMemW a x).fresh = d.fresh := rfl

@[simp] theorem setMemB_part (a : Nat) (l : List Byte) : (d.setMemB a l).part = d.part := rfl
@[simp] theorem setMemB_step (a : Nat) (l : List Byte) : (d.setMemB a l).step = d.step := rfl
@[simp] theorem setMemB_straps (a : Nat) (l : List Byte) : (d.setMemB a l).straps = d.straps := rfl
@[simp] theorem setMemB_cert (a : Nat) (l : List Byte) : (d.setMemB a l).cert = d.cert := rfl
@[simp] theorem setMemB_certPend (a : Nat) (l : List Byte) : (d.setMemB a l).certPend = d.certPend := rfl
@[simp] theorem setMemB_aon (a : Nat) (l : List Byte) : (d.setMemB a l).aon = d.aon := rfl
@[simp] theorem setMemB_flash (a : Nat) (l : List Byte) : (d.setMemB a l).flash = d.flash := rfl
@[simp] theorem setMemB_regs (a : Nat) (l : List Byte) : (d.setMemB a l).regs = d.regs := rfl
@[simp] theorem setMemB_shadows (a : Nat) (l : List Byte) : (d.setMemB a l).shadows = d.shadows := rfl
@[simp] theorem setMemB_shadowAt (a : Nat) (l : List Byte) : (d.setMemB a l).shadowAt = d.shadowAt := rfl
@[simp] theorem setMemB_shadowOld (a : Nat) (l : List Byte) : (d.setMemB a l).shadowOld = d.shadowOld := rfl
@[simp] theorem setMemB_frozen (a : Nat) (l : List Byte) : (d.setMemB a l).frozen = d.frozen := rfl
@[simp] theorem setMemB_pages (a : Nat) (l : List Byte) : (d.setMemB a l).pages = d.pages := rfl
@[simp] theorem setMemB_chans (a : Nat) (l : List Byte) : (d.setMemB a l).chans = d.chans := rfl
@[simp] theorem setMemB_hams (a : Nat) (l : List Byte) : (d.setMemB a l).hams = d.hams := rfl
@[simp] theorem setMemB_mills (a : Nat) (l : List Byte) : (d.setMemB a l).mills = d.mills := rfl
@[simp] theorem setMemB_sess (a : Nat) (l : List Byte) : (d.setMemB a l).sess = d.sess := rfl
@[simp] theorem setMemB_ups (a : Nat) (l : List Byte) : (d.setMemB a l).ups = d.ups := rfl
@[simp] theorem setMemB_reasm (a : Nat) (l : List Byte) : (d.setMemB a l).reasm = d.reasm := rfl
@[simp] theorem setMemB_seen (a : Nat) (l : List Byte) : (d.setMemB a l).seen = d.seen := rfl
@[simp] theorem setMemB_prp (a : Nat) (l : List Byte) : (d.setMemB a l).prp = d.prp := rfl
@[simp] theorem setMemB_sec (a : Nat) (l : List Byte) : (d.setMemB a l).sec = d.sec := rfl
@[simp] theorem setMemB_cfg (a : Nat) (l : List Byte) : (d.setMemB a l).cfg = d.cfg := rfl
@[simp] theorem setMemB_svc (a : Nat) (l : List Byte) : (d.setMemB a l).svc = d.svc := rfl
@[simp] theorem setMemB_tim (a : Nat) (l : List Byte) : (d.setMemB a l).tim = d.tim := rfl
@[simp] theorem setMemB_intc (a : Nat) (l : List Byte) : (d.setMemB a l).intc = d.intc := rfl
@[simp] theorem setMemB_gate (a : Nat) (l : List Byte) : (d.setMemB a l).gate = d.gate := rfl
@[simp] theorem setMemB_pwr (a : Nat) (l : List Byte) : (d.setMemB a l).pwr = d.pwr := rfl
@[simp] theorem setMemB_twin (a : Nat) (l : List Byte) : (d.setMemB a l).twin = d.twin := rfl
@[simp] theorem setMemB_vigHeld (a : Nat) (l : List Byte) : (d.setMemB a l).vigHeld = d.vigHeld := rfl
@[simp] theorem setMemB_vigSaved (a : Nat) (l : List Byte) : (d.setMemB a l).vigSaved = d.vigSaved := rfl
@[simp] theorem setMemB_lastMsg (a : Nat) (l : List Byte) : (d.setMemB a l).lastMsg = d.lastMsg := rfl
@[simp] theorem setMemB_bell (a : Nat) (l : List Byte) : (d.setMemB a l).bell = d.bell := rfl
@[simp] theorem setMemB_pins (a : Nat) (l : List Byte) : (d.setMemB a l).pins = d.pins := rfl
@[simp] theorem setMemB_out (a : Nat) (l : List Byte) : (d.setMemB a l).out = d.out := rfl
@[simp] theorem setMemB_fresh (a : Nat) (l : List Byte) : (d.setMemB a l).fresh = d.fresh := rfl

@[simp] theorem setDesc_part (i j x : Nat) : (d.setDesc i j x).part = d.part := rfl
@[simp] theorem setDesc_step (i j x : Nat) : (d.setDesc i j x).step = d.step := rfl
@[simp] theorem setDesc_straps (i j x : Nat) : (d.setDesc i j x).straps = d.straps := rfl
@[simp] theorem setDesc_cert (i j x : Nat) : (d.setDesc i j x).cert = d.cert := rfl
@[simp] theorem setDesc_certPend (i j x : Nat) : (d.setDesc i j x).certPend = d.certPend := rfl
@[simp] theorem setDesc_aon (i j x : Nat) : (d.setDesc i j x).aon = d.aon := rfl
@[simp] theorem setDesc_flash (i j x : Nat) : (d.setDesc i j x).flash = d.flash := rfl
@[simp] theorem setDesc_regs (i j x : Nat) : (d.setDesc i j x).regs = d.regs := rfl
@[simp] theorem setDesc_shadows (i j x : Nat) : (d.setDesc i j x).shadows = d.shadows := rfl
@[simp] theorem setDesc_shadowAt (i j x : Nat) : (d.setDesc i j x).shadowAt = d.shadowAt := rfl
@[simp] theorem setDesc_shadowOld (i j x : Nat) : (d.setDesc i j x).shadowOld = d.shadowOld := rfl
@[simp] theorem setDesc_frozen (i j x : Nat) : (d.setDesc i j x).frozen = d.frozen := rfl
@[simp] theorem setDesc_pages (i j x : Nat) : (d.setDesc i j x).pages = d.pages := rfl
@[simp] theorem setDesc_chans (i j x : Nat) : (d.setDesc i j x).chans = d.chans := rfl
@[simp] theorem setDesc_hams (i j x : Nat) : (d.setDesc i j x).hams = d.hams := rfl
@[simp] theorem setDesc_mills (i j x : Nat) : (d.setDesc i j x).mills = d.mills := rfl
@[simp] theorem setDesc_sess (i j x : Nat) : (d.setDesc i j x).sess = d.sess := rfl
@[simp] theorem setDesc_ups (i j x : Nat) : (d.setDesc i j x).ups = d.ups := rfl
@[simp] theorem setDesc_reasm (i j x : Nat) : (d.setDesc i j x).reasm = d.reasm := rfl
@[simp] theorem setDesc_seen (i j x : Nat) : (d.setDesc i j x).seen = d.seen := rfl
@[simp] theorem setDesc_prp (i j x : Nat) : (d.setDesc i j x).prp = d.prp := rfl
@[simp] theorem setDesc_sec (i j x : Nat) : (d.setDesc i j x).sec = d.sec := rfl
@[simp] theorem setDesc_cfg (i j x : Nat) : (d.setDesc i j x).cfg = d.cfg := rfl
@[simp] theorem setDesc_svc (i j x : Nat) : (d.setDesc i j x).svc = d.svc := rfl
@[simp] theorem setDesc_tim (i j x : Nat) : (d.setDesc i j x).tim = d.tim := rfl
@[simp] theorem setDesc_intc (i j x : Nat) : (d.setDesc i j x).intc = d.intc := rfl
@[simp] theorem setDesc_gate (i j x : Nat) : (d.setDesc i j x).gate = d.gate := rfl
@[simp] theorem setDesc_pwr (i j x : Nat) : (d.setDesc i j x).pwr = d.pwr := rfl
@[simp] theorem setDesc_twin (i j x : Nat) : (d.setDesc i j x).twin = d.twin := rfl
@[simp] theorem setDesc_vigHeld (i j x : Nat) : (d.setDesc i j x).vigHeld = d.vigHeld := rfl
@[simp] theorem setDesc_vigSaved (i j x : Nat) : (d.setDesc i j x).vigSaved = d.vigSaved := rfl
@[simp] theorem setDesc_lastMsg (i j x : Nat) : (d.setDesc i j x).lastMsg = d.lastMsg := rfl
@[simp] theorem setDesc_bell (i j x : Nat) : (d.setDesc i j x).bell = d.bell := rfl
@[simp] theorem setDesc_pins (i j x : Nat) : (d.setDesc i j x).pins = d.pins := rfl
@[simp] theorem setDesc_out (i j x : Nat) : (d.setDesc i j x).out = d.out := rfl
@[simp] theorem setDesc_fresh (i j x : Nat) : (d.setDesc i j x).fresh = d.fresh := rfl

@[simp] theorem emit_part (o : Out) : (d.emit o).part = d.part := rfl
@[simp] theorem emit_step (o : Out) : (d.emit o).step = d.step := rfl
@[simp] theorem emit_straps (o : Out) : (d.emit o).straps = d.straps := rfl
@[simp] theorem emit_cert (o : Out) : (d.emit o).cert = d.cert := rfl
@[simp] theorem emit_certPend (o : Out) : (d.emit o).certPend = d.certPend := rfl
@[simp] theorem emit_aon (o : Out) : (d.emit o).aon = d.aon := rfl
@[simp] theorem emit_flash (o : Out) : (d.emit o).flash = d.flash := rfl
@[simp] theorem emit_regs (o : Out) : (d.emit o).regs = d.regs := rfl
@[simp] theorem emit_shadows (o : Out) : (d.emit o).shadows = d.shadows := rfl
@[simp] theorem emit_shadowAt (o : Out) : (d.emit o).shadowAt = d.shadowAt := rfl
@[simp] theorem emit_shadowOld (o : Out) : (d.emit o).shadowOld = d.shadowOld := rfl
@[simp] theorem emit_frozen (o : Out) : (d.emit o).frozen = d.frozen := rfl
@[simp] theorem emit_mem (o : Out) : (d.emit o).mem = d.mem := rfl
@[simp] theorem emit_pages (o : Out) : (d.emit o).pages = d.pages := rfl
@[simp] theorem emit_chans (o : Out) : (d.emit o).chans = d.chans := rfl
@[simp] theorem emit_hams (o : Out) : (d.emit o).hams = d.hams := rfl
@[simp] theorem emit_mills (o : Out) : (d.emit o).mills = d.mills := rfl
@[simp] theorem emit_sess (o : Out) : (d.emit o).sess = d.sess := rfl
@[simp] theorem emit_ups (o : Out) : (d.emit o).ups = d.ups := rfl
@[simp] theorem emit_reasm (o : Out) : (d.emit o).reasm = d.reasm := rfl
@[simp] theorem emit_seen (o : Out) : (d.emit o).seen = d.seen := rfl
@[simp] theorem emit_prp (o : Out) : (d.emit o).prp = d.prp := rfl
@[simp] theorem emit_sec (o : Out) : (d.emit o).sec = d.sec := rfl
@[simp] theorem emit_cfg (o : Out) : (d.emit o).cfg = d.cfg := rfl
@[simp] theorem emit_svc (o : Out) : (d.emit o).svc = d.svc := rfl
@[simp] theorem emit_tim (o : Out) : (d.emit o).tim = d.tim := rfl
@[simp] theorem emit_intc (o : Out) : (d.emit o).intc = d.intc := rfl
@[simp] theorem emit_gate (o : Out) : (d.emit o).gate = d.gate := rfl
@[simp] theorem emit_pwr (o : Out) : (d.emit o).pwr = d.pwr := rfl
@[simp] theorem emit_twin (o : Out) : (d.emit o).twin = d.twin := rfl
@[simp] theorem emit_vigHeld (o : Out) : (d.emit o).vigHeld = d.vigHeld := rfl
@[simp] theorem emit_vigSaved (o : Out) : (d.emit o).vigSaved = d.vigSaved := rfl
@[simp] theorem emit_lastMsg (o : Out) : (d.emit o).lastMsg = d.lastMsg := rfl
@[simp] theorem emit_bell (o : Out) : (d.emit o).bell = d.bell := rfl
@[simp] theorem emit_pins (o : Out) : (d.emit o).pins = d.pins := rfl
@[simp] theorem emit_fresh (o : Out) : (d.emit o).fresh = d.fresh := rfl

@[simp] theorem next_part : (d.next).part = d.part := rfl
@[simp] theorem next_step : (d.next).step = d.step := rfl
@[simp] theorem next_straps : (d.next).straps = d.straps := rfl
@[simp] theorem next_cert : (d.next).cert = d.cert := rfl
@[simp] theorem next_certPend : (d.next).certPend = d.certPend := rfl
@[simp] theorem next_aon : (d.next).aon = d.aon := rfl
@[simp] theorem next_flash : (d.next).flash = d.flash := rfl
@[simp] theorem next_regs : (d.next).regs = d.regs := rfl
@[simp] theorem next_shadows : (d.next).shadows = d.shadows := rfl
@[simp] theorem next_shadowAt : (d.next).shadowAt = d.shadowAt := rfl
@[simp] theorem next_shadowOld : (d.next).shadowOld = d.shadowOld := rfl
@[simp] theorem next_frozen : (d.next).frozen = d.frozen := rfl
@[simp] theorem next_mem : (d.next).mem = d.mem := rfl
@[simp] theorem next_pages : (d.next).pages = d.pages := rfl
@[simp] theorem next_chans : (d.next).chans = d.chans := rfl
@[simp] theorem next_hams : (d.next).hams = d.hams := rfl
@[simp] theorem next_mills : (d.next).mills = d.mills := rfl
@[simp] theorem next_sess : (d.next).sess = d.sess := rfl
@[simp] theorem next_ups : (d.next).ups = d.ups := rfl
@[simp] theorem next_reasm : (d.next).reasm = d.reasm := rfl
@[simp] theorem next_seen : (d.next).seen = d.seen := rfl
@[simp] theorem next_prp : (d.next).prp = d.prp := rfl
@[simp] theorem next_sec : (d.next).sec = d.sec := rfl
@[simp] theorem next_cfg : (d.next).cfg = d.cfg := rfl
@[simp] theorem next_svc : (d.next).svc = d.svc := rfl
@[simp] theorem next_tim : (d.next).tim = d.tim := rfl
@[simp] theorem next_intc : (d.next).intc = d.intc := rfl
@[simp] theorem next_gate : (d.next).gate = d.gate := rfl
@[simp] theorem next_pwr : (d.next).pwr = d.pwr := rfl
@[simp] theorem next_twin : (d.next).twin = d.twin := rfl
@[simp] theorem next_vigHeld : (d.next).vigHeld = d.vigHeld := rfl
@[simp] theorem next_vigSaved : (d.next).vigSaved = d.vigSaved := rfl
@[simp] theorem next_lastMsg : (d.next).lastMsg = d.lastMsg := rfl
@[simp] theorem next_bell : (d.next).bell = d.bell := rfl
@[simp] theorem next_pins : (d.next).pins = d.pins := rfl
@[simp] theorem next_out : (d.next).out = d.out := rfl

@[simp] theorem modPwr_part (f : PwrSt → PwrSt) : (d.modPwr f).part = d.part := rfl
@[simp] theorem modPwr_step (f : PwrSt → PwrSt) : (d.modPwr f).step = d.step := rfl
@[simp] theorem modPwr_straps (f : PwrSt → PwrSt) : (d.modPwr f).straps = d.straps := rfl
@[simp] theorem modPwr_cert (f : PwrSt → PwrSt) : (d.modPwr f).cert = d.cert := rfl
@[simp] theorem modPwr_certPend (f : PwrSt → PwrSt) : (d.modPwr f).certPend = d.certPend := rfl
@[simp] theorem modPwr_aon (f : PwrSt → PwrSt) : (d.modPwr f).aon = d.aon := rfl
@[simp] theorem modPwr_flash (f : PwrSt → PwrSt) : (d.modPwr f).flash = d.flash := rfl
@[simp] theorem modPwr_regs (f : PwrSt → PwrSt) : (d.modPwr f).regs = d.regs := rfl
@[simp] theorem modPwr_shadows (f : PwrSt → PwrSt) : (d.modPwr f).shadows = d.shadows := rfl
@[simp] theorem modPwr_shadowAt (f : PwrSt → PwrSt) : (d.modPwr f).shadowAt = d.shadowAt := rfl
@[simp] theorem modPwr_shadowOld (f : PwrSt → PwrSt) : (d.modPwr f).shadowOld = d.shadowOld := rfl
@[simp] theorem modPwr_frozen (f : PwrSt → PwrSt) : (d.modPwr f).frozen = d.frozen := rfl
@[simp] theorem modPwr_mem (f : PwrSt → PwrSt) : (d.modPwr f).mem = d.mem := rfl
@[simp] theorem modPwr_pages (f : PwrSt → PwrSt) : (d.modPwr f).pages = d.pages := rfl
@[simp] theorem modPwr_chans (f : PwrSt → PwrSt) : (d.modPwr f).chans = d.chans := rfl
@[simp] theorem modPwr_hams (f : PwrSt → PwrSt) : (d.modPwr f).hams = d.hams := rfl
@[simp] theorem modPwr_mills (f : PwrSt → PwrSt) : (d.modPwr f).mills = d.mills := rfl
@[simp] theorem modPwr_sess (f : PwrSt → PwrSt) : (d.modPwr f).sess = d.sess := rfl
@[simp] theorem modPwr_ups (f : PwrSt → PwrSt) : (d.modPwr f).ups = d.ups := rfl
@[simp] theorem modPwr_reasm (f : PwrSt → PwrSt) : (d.modPwr f).reasm = d.reasm := rfl
@[simp] theorem modPwr_seen (f : PwrSt → PwrSt) : (d.modPwr f).seen = d.seen := rfl
@[simp] theorem modPwr_prp (f : PwrSt → PwrSt) : (d.modPwr f).prp = d.prp := rfl
@[simp] theorem modPwr_sec (f : PwrSt → PwrSt) : (d.modPwr f).sec = d.sec := rfl
@[simp] theorem modPwr_cfg (f : PwrSt → PwrSt) : (d.modPwr f).cfg = d.cfg := rfl
@[simp] theorem modPwr_svc (f : PwrSt → PwrSt) : (d.modPwr f).svc = d.svc := rfl
@[simp] theorem modPwr_tim (f : PwrSt → PwrSt) : (d.modPwr f).tim = d.tim := rfl
@[simp] theorem modPwr_intc (f : PwrSt → PwrSt) : (d.modPwr f).intc = d.intc := rfl
@[simp] theorem modPwr_gate (f : PwrSt → PwrSt) : (d.modPwr f).gate = d.gate := rfl
@[simp] theorem modPwr_twin (f : PwrSt → PwrSt) : (d.modPwr f).twin = d.twin := rfl
@[simp] theorem modPwr_vigHeld (f : PwrSt → PwrSt) : (d.modPwr f).vigHeld = d.vigHeld := rfl
@[simp] theorem modPwr_vigSaved (f : PwrSt → PwrSt) : (d.modPwr f).vigSaved = d.vigSaved := rfl
@[simp] theorem modPwr_lastMsg (f : PwrSt → PwrSt) : (d.modPwr f).lastMsg = d.lastMsg := rfl
@[simp] theorem modPwr_bell (f : PwrSt → PwrSt) : (d.modPwr f).bell = d.bell := rfl
@[simp] theorem modPwr_pins (f : PwrSt → PwrSt) : (d.modPwr f).pins = d.pins := rfl
@[simp] theorem modPwr_out (f : PwrSt → PwrSt) : (d.modPwr f).out = d.out := rfl
@[simp] theorem modPwr_fresh (f : PwrSt → PwrSt) : (d.modPwr f).fresh = d.fresh := rfl

@[simp] theorem modFlash_part (f : Flash → Flash) : (d.modFlash f).part = d.part := rfl
@[simp] theorem modFlash_step (f : Flash → Flash) : (d.modFlash f).step = d.step := rfl
@[simp] theorem modFlash_straps (f : Flash → Flash) : (d.modFlash f).straps = d.straps := rfl
@[simp] theorem modFlash_cert (f : Flash → Flash) : (d.modFlash f).cert = d.cert := rfl
@[simp] theorem modFlash_certPend (f : Flash → Flash) : (d.modFlash f).certPend = d.certPend := rfl
@[simp] theorem modFlash_aon (f : Flash → Flash) : (d.modFlash f).aon = d.aon := rfl
@[simp] theorem modFlash_regs (f : Flash → Flash) : (d.modFlash f).regs = d.regs := rfl
@[simp] theorem modFlash_shadows (f : Flash → Flash) : (d.modFlash f).shadows = d.shadows := rfl
@[simp] theorem modFlash_shadowAt (f : Flash → Flash) : (d.modFlash f).shadowAt = d.shadowAt := rfl
@[simp] theorem modFlash_shadowOld (f : Flash → Flash) : (d.modFlash f).shadowOld = d.shadowOld := rfl
@[simp] theorem modFlash_frozen (f : Flash → Flash) : (d.modFlash f).frozen = d.frozen := rfl
@[simp] theorem modFlash_mem (f : Flash → Flash) : (d.modFlash f).mem = d.mem := rfl
@[simp] theorem modFlash_pages (f : Flash → Flash) : (d.modFlash f).pages = d.pages := rfl
@[simp] theorem modFlash_chans (f : Flash → Flash) : (d.modFlash f).chans = d.chans := rfl
@[simp] theorem modFlash_hams (f : Flash → Flash) : (d.modFlash f).hams = d.hams := rfl
@[simp] theorem modFlash_mills (f : Flash → Flash) : (d.modFlash f).mills = d.mills := rfl
@[simp] theorem modFlash_sess (f : Flash → Flash) : (d.modFlash f).sess = d.sess := rfl
@[simp] theorem modFlash_ups (f : Flash → Flash) : (d.modFlash f).ups = d.ups := rfl
@[simp] theorem modFlash_reasm (f : Flash → Flash) : (d.modFlash f).reasm = d.reasm := rfl
@[simp] theorem modFlash_seen (f : Flash → Flash) : (d.modFlash f).seen = d.seen := rfl
@[simp] theorem modFlash_prp (f : Flash → Flash) : (d.modFlash f).prp = d.prp := rfl
@[simp] theorem modFlash_sec (f : Flash → Flash) : (d.modFlash f).sec = d.sec := rfl
@[simp] theorem modFlash_cfg (f : Flash → Flash) : (d.modFlash f).cfg = d.cfg := rfl
@[simp] theorem modFlash_svc (f : Flash → Flash) : (d.modFlash f).svc = d.svc := rfl
@[simp] theorem modFlash_tim (f : Flash → Flash) : (d.modFlash f).tim = d.tim := rfl
@[simp] theorem modFlash_intc (f : Flash → Flash) : (d.modFlash f).intc = d.intc := rfl
@[simp] theorem modFlash_gate (f : Flash → Flash) : (d.modFlash f).gate = d.gate := rfl
@[simp] theorem modFlash_pwr (f : Flash → Flash) : (d.modFlash f).pwr = d.pwr := rfl
@[simp] theorem modFlash_twin (f : Flash → Flash) : (d.modFlash f).twin = d.twin := rfl
@[simp] theorem modFlash_vigHeld (f : Flash → Flash) : (d.modFlash f).vigHeld = d.vigHeld := rfl
@[simp] theorem modFlash_vigSaved (f : Flash → Flash) : (d.modFlash f).vigSaved = d.vigSaved := rfl
@[simp] theorem modFlash_lastMsg (f : Flash → Flash) : (d.modFlash f).lastMsg = d.lastMsg := rfl
@[simp] theorem modFlash_bell (f : Flash → Flash) : (d.modFlash f).bell = d.bell := rfl
@[simp] theorem modFlash_pins (f : Flash → Flash) : (d.modFlash f).pins = d.pins := rfl
@[simp] theorem modFlash_out (f : Flash → Flash) : (d.modFlash f).out = d.out := rfl
@[simp] theorem modFlash_fresh (f : Flash → Flash) : (d.modFlash f).fresh = d.fresh := rfl

@[simp] theorem modCfg_part (f : CfgSt → CfgSt) : (d.modCfg f).part = d.part := rfl
@[simp] theorem modCfg_step (f : CfgSt → CfgSt) : (d.modCfg f).step = d.step := rfl
@[simp] theorem modCfg_straps (f : CfgSt → CfgSt) : (d.modCfg f).straps = d.straps := rfl
@[simp] theorem modCfg_cert (f : CfgSt → CfgSt) : (d.modCfg f).cert = d.cert := rfl
@[simp] theorem modCfg_certPend (f : CfgSt → CfgSt) : (d.modCfg f).certPend = d.certPend := rfl
@[simp] theorem modCfg_aon (f : CfgSt → CfgSt) : (d.modCfg f).aon = d.aon := rfl
@[simp] theorem modCfg_flash (f : CfgSt → CfgSt) : (d.modCfg f).flash = d.flash := rfl
@[simp] theorem modCfg_regs (f : CfgSt → CfgSt) : (d.modCfg f).regs = d.regs := rfl
@[simp] theorem modCfg_shadows (f : CfgSt → CfgSt) : (d.modCfg f).shadows = d.shadows := rfl
@[simp] theorem modCfg_shadowAt (f : CfgSt → CfgSt) : (d.modCfg f).shadowAt = d.shadowAt := rfl
@[simp] theorem modCfg_shadowOld (f : CfgSt → CfgSt) : (d.modCfg f).shadowOld = d.shadowOld := rfl
@[simp] theorem modCfg_frozen (f : CfgSt → CfgSt) : (d.modCfg f).frozen = d.frozen := rfl
@[simp] theorem modCfg_mem (f : CfgSt → CfgSt) : (d.modCfg f).mem = d.mem := rfl
@[simp] theorem modCfg_pages (f : CfgSt → CfgSt) : (d.modCfg f).pages = d.pages := rfl
@[simp] theorem modCfg_chans (f : CfgSt → CfgSt) : (d.modCfg f).chans = d.chans := rfl
@[simp] theorem modCfg_hams (f : CfgSt → CfgSt) : (d.modCfg f).hams = d.hams := rfl
@[simp] theorem modCfg_mills (f : CfgSt → CfgSt) : (d.modCfg f).mills = d.mills := rfl
@[simp] theorem modCfg_sess (f : CfgSt → CfgSt) : (d.modCfg f).sess = d.sess := rfl
@[simp] theorem modCfg_ups (f : CfgSt → CfgSt) : (d.modCfg f).ups = d.ups := rfl
@[simp] theorem modCfg_reasm (f : CfgSt → CfgSt) : (d.modCfg f).reasm = d.reasm := rfl
@[simp] theorem modCfg_seen (f : CfgSt → CfgSt) : (d.modCfg f).seen = d.seen := rfl
@[simp] theorem modCfg_prp (f : CfgSt → CfgSt) : (d.modCfg f).prp = d.prp := rfl
@[simp] theorem modCfg_sec (f : CfgSt → CfgSt) : (d.modCfg f).sec = d.sec := rfl
@[simp] theorem modCfg_svc (f : CfgSt → CfgSt) : (d.modCfg f).svc = d.svc := rfl
@[simp] theorem modCfg_tim (f : CfgSt → CfgSt) : (d.modCfg f).tim = d.tim := rfl
@[simp] theorem modCfg_intc (f : CfgSt → CfgSt) : (d.modCfg f).intc = d.intc := rfl
@[simp] theorem modCfg_gate (f : CfgSt → CfgSt) : (d.modCfg f).gate = d.gate := rfl
@[simp] theorem modCfg_pwr (f : CfgSt → CfgSt) : (d.modCfg f).pwr = d.pwr := rfl
@[simp] theorem modCfg_twin (f : CfgSt → CfgSt) : (d.modCfg f).twin = d.twin := rfl
@[simp] theorem modCfg_vigHeld (f : CfgSt → CfgSt) : (d.modCfg f).vigHeld = d.vigHeld := rfl
@[simp] theorem modCfg_vigSaved (f : CfgSt → CfgSt) : (d.modCfg f).vigSaved = d.vigSaved := rfl
@[simp] theorem modCfg_lastMsg (f : CfgSt → CfgSt) : (d.modCfg f).lastMsg = d.lastMsg := rfl
@[simp] theorem modCfg_bell (f : CfgSt → CfgSt) : (d.modCfg f).bell = d.bell := rfl
@[simp] theorem modCfg_pins (f : CfgSt → CfgSt) : (d.modCfg f).pins = d.pins := rfl
@[simp] theorem modCfg_out (f : CfgSt → CfgSt) : (d.modCfg f).out = d.out := rfl
@[simp] theorem modCfg_fresh (f : CfgSt → CfgSt) : (d.modCfg f).fresh = d.fresh := rfl

@[simp] theorem modTwin_part (f : TwinSt → TwinSt) : (d.modTwin f).part = d.part := rfl
@[simp] theorem modTwin_step (f : TwinSt → TwinSt) : (d.modTwin f).step = d.step := rfl
@[simp] theorem modTwin_straps (f : TwinSt → TwinSt) : (d.modTwin f).straps = d.straps := rfl
@[simp] theorem modTwin_cert (f : TwinSt → TwinSt) : (d.modTwin f).cert = d.cert := rfl
@[simp] theorem modTwin_certPend (f : TwinSt → TwinSt) : (d.modTwin f).certPend = d.certPend := rfl
@[simp] theorem modTwin_aon (f : TwinSt → TwinSt) : (d.modTwin f).aon = d.aon := rfl
@[simp] theorem modTwin_flash (f : TwinSt → TwinSt) : (d.modTwin f).flash = d.flash := rfl
@[simp] theorem modTwin_regs (f : TwinSt → TwinSt) : (d.modTwin f).regs = d.regs := rfl
@[simp] theorem modTwin_shadows (f : TwinSt → TwinSt) : (d.modTwin f).shadows = d.shadows := rfl
@[simp] theorem modTwin_shadowAt (f : TwinSt → TwinSt) : (d.modTwin f).shadowAt = d.shadowAt := rfl
@[simp] theorem modTwin_shadowOld (f : TwinSt → TwinSt) : (d.modTwin f).shadowOld = d.shadowOld := rfl
@[simp] theorem modTwin_frozen (f : TwinSt → TwinSt) : (d.modTwin f).frozen = d.frozen := rfl
@[simp] theorem modTwin_mem (f : TwinSt → TwinSt) : (d.modTwin f).mem = d.mem := rfl
@[simp] theorem modTwin_pages (f : TwinSt → TwinSt) : (d.modTwin f).pages = d.pages := rfl
@[simp] theorem modTwin_chans (f : TwinSt → TwinSt) : (d.modTwin f).chans = d.chans := rfl
@[simp] theorem modTwin_hams (f : TwinSt → TwinSt) : (d.modTwin f).hams = d.hams := rfl
@[simp] theorem modTwin_mills (f : TwinSt → TwinSt) : (d.modTwin f).mills = d.mills := rfl
@[simp] theorem modTwin_sess (f : TwinSt → TwinSt) : (d.modTwin f).sess = d.sess := rfl
@[simp] theorem modTwin_ups (f : TwinSt → TwinSt) : (d.modTwin f).ups = d.ups := rfl
@[simp] theorem modTwin_reasm (f : TwinSt → TwinSt) : (d.modTwin f).reasm = d.reasm := rfl
@[simp] theorem modTwin_seen (f : TwinSt → TwinSt) : (d.modTwin f).seen = d.seen := rfl
@[simp] theorem modTwin_prp (f : TwinSt → TwinSt) : (d.modTwin f).prp = d.prp := rfl
@[simp] theorem modTwin_sec (f : TwinSt → TwinSt) : (d.modTwin f).sec = d.sec := rfl
@[simp] theorem modTwin_cfg (f : TwinSt → TwinSt) : (d.modTwin f).cfg = d.cfg := rfl
@[simp] theorem modTwin_svc (f : TwinSt → TwinSt) : (d.modTwin f).svc = d.svc := rfl
@[simp] theorem modTwin_tim (f : TwinSt → TwinSt) : (d.modTwin f).tim = d.tim := rfl
@[simp] theorem modTwin_intc (f : TwinSt → TwinSt) : (d.modTwin f).intc = d.intc := rfl
@[simp] theorem modTwin_gate (f : TwinSt → TwinSt) : (d.modTwin f).gate = d.gate := rfl
@[simp] theorem modTwin_pwr (f : TwinSt → TwinSt) : (d.modTwin f).pwr = d.pwr := rfl
@[simp] theorem modTwin_vigHeld (f : TwinSt → TwinSt) : (d.modTwin f).vigHeld = d.vigHeld := rfl
@[simp] theorem modTwin_vigSaved (f : TwinSt → TwinSt) : (d.modTwin f).vigSaved = d.vigSaved := rfl
@[simp] theorem modTwin_lastMsg (f : TwinSt → TwinSt) : (d.modTwin f).lastMsg = d.lastMsg := rfl
@[simp] theorem modTwin_bell (f : TwinSt → TwinSt) : (d.modTwin f).bell = d.bell := rfl
@[simp] theorem modTwin_pins (f : TwinSt → TwinSt) : (d.modTwin f).pins = d.pins := rfl
@[simp] theorem modTwin_out (f : TwinSt → TwinSt) : (d.modTwin f).out = d.out := rfl
@[simp] theorem modTwin_fresh (f : TwinSt → TwinSt) : (d.modTwin f).fresh = d.fresh := rfl

@[simp] theorem setW_page (k x : Nat) (q : Nat) : (d.setW k x).page q = d.page q := rfl
@[simp] theorem setW_chan (k x : Nat) (b : Nat) : (d.setW k x).chan b = d.chan b := rfl
@[simp] theorem setW_ses (k x : Nat) (j : Nat) : (d.setW k x).ses j = d.ses j := rfl
@[simp] theorem setW_ham (k x : Nat) (j : Nat) : (d.setW k x).ham j = d.ham j := rfl
@[simp] theorem setW_mill (k x : Nat) (j : Nat) : (d.setW k x).mill j = d.mill j := rfl
@[simp] theorem setW_dom (k x : Nat) (j : Nat) : (d.setW k x).dom j = d.dom j := rfl
@[simp] theorem setW_powered (k x : Nat) : (d.setW k x).powered = d.powered := rfl
@[simp] theorem setW_tick (k x : Nat) : (d.setW k x).tick = d.tick := rfl

@[simp] theorem set_page (f : Fld) (x : Nat) (q : Nat) : (d.set f x).page q = d.page q := rfl
@[simp] theorem set_chan (f : Fld) (x : Nat) (b : Nat) : (d.set f x).chan b = d.chan b := rfl
@[simp] theorem set_ses (f : Fld) (x : Nat) (j : Nat) : (d.set f x).ses j = d.ses j := rfl
@[simp] theorem set_ham (f : Fld) (x : Nat) (j : Nat) : (d.set f x).ham j = d.ham j := rfl
@[simp] theorem set_mill (f : Fld) (x : Nat) (j : Nat) : (d.set f x).mill j = d.mill j := rfl
@[simp] theorem set_dom (f : Fld) (x : Nat) (j : Nat) : (d.set f x).dom j = d.dom j := rfl
@[simp] theorem set_powered (f : Fld) (x : Nat) : (d.set f x).powered = d.powered := rfl
@[simp] theorem set_tick (f : Fld) (x : Nat) : (d.set f x).tick = d.tick := rfl

@[simp] theorem setB_page (f : Fld) (b : Bool) (q : Nat) : (d.setB f b).page q = d.page q := rfl
@[simp] theorem setB_chan (f : Fld) (b : Bool) (b0 : Nat) : (d.setB f b).chan b0 = d.chan b0 := rfl
@[simp] theorem setB_ses (f : Fld) (b : Bool) (j : Nat) : (d.setB f b).ses j = d.ses j := rfl
@[simp] theorem setB_ham (f : Fld) (b : Bool) (j : Nat) : (d.setB f b).ham j = d.ham j := rfl
@[simp] theorem setB_mill (f : Fld) (b : Bool) (j : Nat) : (d.setB f b).mill j = d.mill j := rfl
@[simp] theorem setB_dom (f : Fld) (b : Bool) (j : Nat) : (d.setB f b).dom j = d.dom j := rfl
@[simp] theorem setB_powered (f : Fld) (b : Bool) : (d.setB f b).powered = d.powered := rfl
@[simp] theorem setB_tick (f : Fld) (b : Bool) : (d.setB f b).tick = d.tick := rfl

@[simp] theorem setBit_page (k i : Nat) (b : Bool) (q : Nat) : (d.setBit k i b).page q = d.page q := rfl
@[simp] theorem setBit_chan (k i : Nat) (b : Bool) (b0 : Nat) : (d.setBit k i b).chan b0 = d.chan b0 := rfl
@[simp] theorem setBit_ses (k i : Nat) (b : Bool) (j : Nat) : (d.setBit k i b).ses j = d.ses j := rfl
@[simp] theorem setBit_ham (k i : Nat) (b : Bool) (j : Nat) : (d.setBit k i b).ham j = d.ham j := rfl
@[simp] theorem setBit_mill (k i : Nat) (b : Bool) (j : Nat) : (d.setBit k i b).mill j = d.mill j := rfl
@[simp] theorem setBit_dom (k i : Nat) (b : Bool) (j : Nat) : (d.setBit k i b).dom j = d.dom j := rfl
@[simp] theorem setBit_powered (k i : Nat) (b : Bool) : (d.setBit k i b).powered = d.powered := rfl
@[simp] theorem setBit_tick (k i : Nat) (b : Bool) : (d.setBit k i b).tick = d.tick := rfl

@[simp] theorem ist_page (p i : Nat) (q : Nat) : (d.ist p i).page q = d.page q := rfl
@[simp] theorem ist_chan (p i : Nat) (b : Nat) : (d.ist p i).chan b = d.chan b := rfl
@[simp] theorem ist_ses (p i : Nat) (j : Nat) : (d.ist p i).ses j = d.ses j := rfl
@[simp] theorem ist_ham (p i : Nat) (j : Nat) : (d.ist p i).ham j = d.ham j := rfl
@[simp] theorem ist_mill (p i : Nat) (j : Nat) : (d.ist p i).mill j = d.mill j := rfl
@[simp] theorem ist_dom (p i : Nat) (j : Nat) : (d.ist p i).dom j = d.dom j := rfl
@[simp] theorem ist_powered (p i : Nat) : (d.ist p i).powered = d.powered := rfl
@[simp] theorem ist_tick (p i : Nat) : (d.ist p i).tick = d.tick := rfl

@[simp] theorem inc_page (f : Fld) (q : Nat) : (d.inc f).page q = d.page q := rfl
@[simp] theorem inc_chan (f : Fld) (b : Nat) : (d.inc f).chan b = d.chan b := rfl
@[simp] theorem inc_ses (f : Fld) (j : Nat) : (d.inc f).ses j = d.ses j := rfl
@[simp] theorem inc_ham (f : Fld) (j : Nat) : (d.inc f).ham j = d.ham j := rfl
@[simp] theorem inc_mill (f : Fld) (j : Nat) : (d.inc f).mill j = d.mill j := rfl
@[simp] theorem inc_dom (f : Fld) (j : Nat) : (d.inc f).dom j = d.dom j := rfl
@[simp] theorem inc_powered (f : Fld) : (d.inc f).powered = d.powered := rfl
@[simp] theorem inc_tick (f : Fld) : (d.inc f).tick = d.tick := rfl

@[simp] theorem add_page (f : Fld) (n : Nat) (q : Nat) : (d.add f n).page q = d.page q := rfl
@[simp] theorem add_chan (f : Fld) (n : Nat) (b : Nat) : (d.add f n).chan b = d.chan b := rfl
@[simp] theorem add_ses (f : Fld) (n : Nat) (j : Nat) : (d.add f n).ses j = d.ses j := rfl
@[simp] theorem add_ham (f : Fld) (n : Nat) (j : Nat) : (d.add f n).ham j = d.ham j := rfl
@[simp] theorem add_mill (f : Fld) (n : Nat) (j : Nat) : (d.add f n).mill j = d.mill j := rfl
@[simp] theorem add_dom (f : Fld) (n : Nat) (j : Nat) : (d.add f n).dom j = d.dom j := rfl
@[simp] theorem add_powered (f : Fld) (n : Nat) : (d.add f n).powered = d.powered := rfl
@[simp] theorem add_tick (f : Fld) (n : Nat) : (d.add f n).tick = d.tick := rfl

@[simp] theorem incWrap_page (f : Fld) (q : Nat) : (d.incWrap f).page q = d.page q := rfl
@[simp] theorem incWrap_chan (f : Fld) (b : Nat) : (d.incWrap f).chan b = d.chan b := rfl
@[simp] theorem incWrap_ses (f : Fld) (j : Nat) : (d.incWrap f).ses j = d.ses j := rfl
@[simp] theorem incWrap_ham (f : Fld) (j : Nat) : (d.incWrap f).ham j = d.ham j := rfl
@[simp] theorem incWrap_mill (f : Fld) (j : Nat) : (d.incWrap f).mill j = d.mill j := rfl
@[simp] theorem incWrap_dom (f : Fld) (j : Nat) : (d.incWrap f).dom j = d.dom j := rfl
@[simp] theorem incWrap_powered (f : Fld) : (d.incWrap f).powered = d.powered := rfl
@[simp] theorem incWrap_tick (f : Fld) : (d.incWrap f).tick = d.tick := rfl

@[simp] theorem setPage_getW (p : Nat) (x : PageX) (j : Nat) : (d.setPage p x).getW j = d.getW j := rfl
@[simp] theorem setPage_get (p : Nat) (x : PageX) (g : Fld) : (d.setPage p x).get g = d.get g := rfl
@[simp] theorem setPage_chan (p : Nat) (x : PageX) (b : Nat) : (d.setPage p x).chan b = d.chan b := rfl
@[simp] theorem setPage_ses (p : Nat) (x : PageX) (j : Nat) : (d.setPage p x).ses j = d.ses j := rfl
@[simp] theorem setPage_ham (p : Nat) (x : PageX) (j : Nat) : (d.setPage p x).ham j = d.ham j := rfl
@[simp] theorem setPage_mill (p : Nat) (x : PageX) (j : Nat) : (d.setPage p x).mill j = d.mill j := rfl
@[simp] theorem setPage_dom (p : Nat) (x : PageX) (j : Nat) : (d.setPage p x).dom j = d.dom j := rfl
@[simp] theorem setPage_powered (p : Nat) (x : PageX) : (d.setPage p x).powered = d.powered := rfl
@[simp] theorem setPage_tick (p : Nat) (x : PageX) : (d.setPage p x).tick = d.tick := rfl

@[simp] theorem modPage_getW (p : Nat) (f : PageX → PageX) (j : Nat) : (d.modPage p f).getW j = d.getW j := rfl
@[simp] theorem modPage_get (p : Nat) (f : PageX → PageX) (g : Fld) : (d.modPage p f).get g = d.get g := rfl
@[simp] theorem modPage_chan (p : Nat) (f : PageX → PageX) (b : Nat) : (d.modPage p f).chan b = d.chan b := rfl
@[simp] theorem modPage_ses (p : Nat) (f : PageX → PageX) (j : Nat) : (d.modPage p f).ses j = d.ses j := rfl
@[simp] theorem modPage_ham (p : Nat) (f : PageX → PageX) (j : Nat) : (d.modPage p f).ham j = d.ham j := rfl
@[simp] theorem modPage_mill (p : Nat) (f : PageX → PageX) (j : Nat) : (d.modPage p f).mill j = d.mill j := rfl
@[simp] theorem modPage_dom (p : Nat) (f : PageX → PageX) (j : Nat) : (d.modPage p f).dom j = d.dom j := rfl
@[simp] theorem modPage_powered (p : Nat) (f : PageX → PageX) : (d.modPage p f).powered = d.powered := rfl
@[simp] theorem modPage_tick (p : Nat) (f : PageX → PageX) : (d.modPage p f).tick = d.tick := rfl

@[simp] theorem setChan_getW (c : Nat) (x : Chan) (j : Nat) : (d.setChan c x).getW j = d.getW j := rfl
@[simp] theorem setChan_get (c : Nat) (x : Chan) (g : Fld) : (d.setChan c x).get g = d.get g := rfl
@[simp] theorem setChan_page (c : Nat) (x : Chan) (q : Nat) : (d.setChan c x).page q = d.page q := rfl
@[simp] theorem setChan_ses (c : Nat) (x : Chan) (j : Nat) : (d.setChan c x).ses j = d.ses j := rfl
@[simp] theorem setChan_ham (c : Nat) (x : Chan) (j : Nat) : (d.setChan c x).ham j = d.ham j := rfl
@[simp] theorem setChan_mill (c : Nat) (x : Chan) (j : Nat) : (d.setChan c x).mill j = d.mill j := rfl
@[simp] theorem setChan_dom (c : Nat) (x : Chan) (j : Nat) : (d.setChan c x).dom j = d.dom j := rfl
@[simp] theorem setChan_powered (c : Nat) (x : Chan) : (d.setChan c x).powered = d.powered := rfl
@[simp] theorem setChan_tick (c : Nat) (x : Chan) : (d.setChan c x).tick = d.tick := rfl

@[simp] theorem modChan_getW (c : Nat) (f : Chan → Chan) (j : Nat) : (d.modChan c f).getW j = d.getW j := rfl
@[simp] theorem modChan_get (c : Nat) (f : Chan → Chan) (g : Fld) : (d.modChan c f).get g = d.get g := rfl
@[simp] theorem modChan_page (c : Nat) (f : Chan → Chan) (q : Nat) : (d.modChan c f).page q = d.page q := rfl
@[simp] theorem modChan_ses (c : Nat) (f : Chan → Chan) (j : Nat) : (d.modChan c f).ses j = d.ses j := rfl
@[simp] theorem modChan_ham (c : Nat) (f : Chan → Chan) (j : Nat) : (d.modChan c f).ham j = d.ham j := rfl
@[simp] theorem modChan_mill (c : Nat) (f : Chan → Chan) (j : Nat) : (d.modChan c f).mill j = d.mill j := rfl
@[simp] theorem modChan_dom (c : Nat) (f : Chan → Chan) (j : Nat) : (d.modChan c f).dom j = d.dom j := rfl
@[simp] theorem modChan_powered (c : Nat) (f : Chan → Chan) : (d.modChan c f).powered = d.powered := rfl
@[simp] theorem modChan_tick (c : Nat) (f : Chan → Chan) : (d.modChan c f).tick = d.tick := rfl

@[simp] theorem setHam_getW (h : Nat) (x : Ham) (j : Nat) : (d.setHam h x).getW j = d.getW j := rfl
@[simp] theorem setHam_get (h : Nat) (x : Ham) (g : Fld) : (d.setHam h x).get g = d.get g := rfl
@[simp] theorem setHam_page (h : Nat) (x : Ham) (q : Nat) : (d.setHam h x).page q = d.page q := rfl
@[simp] theorem setHam_chan (h : Nat) (x : Ham) (b : Nat) : (d.setHam h x).chan b = d.chan b := rfl
@[simp] theorem setHam_ses (h : Nat) (x : Ham) (j : Nat) : (d.setHam h x).ses j = d.ses j := rfl
@[simp] theorem setHam_mill (h : Nat) (x : Ham) (j : Nat) : (d.setHam h x).mill j = d.mill j := rfl
@[simp] theorem setHam_dom (h : Nat) (x : Ham) (j : Nat) : (d.setHam h x).dom j = d.dom j := rfl
@[simp] theorem setHam_powered (h : Nat) (x : Ham) : (d.setHam h x).powered = d.powered := rfl
@[simp] theorem setHam_tick (h : Nat) (x : Ham) : (d.setHam h x).tick = d.tick := rfl

@[simp] theorem setMill_getW (m : Nat) (x : Mill) (j : Nat) : (d.setMill m x).getW j = d.getW j := rfl
@[simp] theorem setMill_get (m : Nat) (x : Mill) (g : Fld) : (d.setMill m x).get g = d.get g := rfl
@[simp] theorem setMill_page (m : Nat) (x : Mill) (q : Nat) : (d.setMill m x).page q = d.page q := rfl
@[simp] theorem setMill_chan (m : Nat) (x : Mill) (b : Nat) : (d.setMill m x).chan b = d.chan b := rfl
@[simp] theorem setMill_ses (m : Nat) (x : Mill) (j : Nat) : (d.setMill m x).ses j = d.ses j := rfl
@[simp] theorem setMill_ham (m : Nat) (x : Mill) (j : Nat) : (d.setMill m x).ham j = d.ham j := rfl
@[simp] theorem setMill_dom (m : Nat) (x : Mill) (j : Nat) : (d.setMill m x).dom j = d.dom j := rfl
@[simp] theorem setMill_powered (m : Nat) (x : Mill) : (d.setMill m x).powered = d.powered := rfl
@[simp] theorem setMill_tick (m : Nat) (x : Mill) : (d.setMill m x).tick = d.tick := rfl

@[simp] theorem setSes_getW (n : Nat) (x : Sess) (j : Nat) : (d.setSes n x).getW j = d.getW j := rfl
@[simp] theorem setSes_get (n : Nat) (x : Sess) (g : Fld) : (d.setSes n x).get g = d.get g := rfl
@[simp] theorem setSes_page (n : Nat) (x : Sess) (q : Nat) : (d.setSes n x).page q = d.page q := rfl
@[simp] theorem setSes_chan (n : Nat) (x : Sess) (b : Nat) : (d.setSes n x).chan b = d.chan b := rfl
@[simp] theorem setSes_ham (n : Nat) (x : Sess) (j : Nat) : (d.setSes n x).ham j = d.ham j := rfl
@[simp] theorem setSes_mill (n : Nat) (x : Sess) (j : Nat) : (d.setSes n x).mill j = d.mill j := rfl
@[simp] theorem setSes_dom (n : Nat) (x : Sess) (j : Nat) : (d.setSes n x).dom j = d.dom j := rfl
@[simp] theorem setSes_powered (n : Nat) (x : Sess) : (d.setSes n x).powered = d.powered := rfl
@[simp] theorem setSes_tick (n : Nat) (x : Sess) : (d.setSes n x).tick = d.tick := rfl

@[simp] theorem modSes_getW (n : Nat) (f : Sess → Sess) (j : Nat) : (d.modSes n f).getW j = d.getW j := rfl
@[simp] theorem modSes_get (n : Nat) (f : Sess → Sess) (g : Fld) : (d.modSes n f).get g = d.get g := rfl
@[simp] theorem modSes_page (n : Nat) (f : Sess → Sess) (q : Nat) : (d.modSes n f).page q = d.page q := rfl
@[simp] theorem modSes_chan (n : Nat) (f : Sess → Sess) (b : Nat) : (d.modSes n f).chan b = d.chan b := rfl
@[simp] theorem modSes_ham (n : Nat) (f : Sess → Sess) (j : Nat) : (d.modSes n f).ham j = d.ham j := rfl
@[simp] theorem modSes_mill (n : Nat) (f : Sess → Sess) (j : Nat) : (d.modSes n f).mill j = d.mill j := rfl
@[simp] theorem modSes_dom (n : Nat) (f : Sess → Sess) (j : Nat) : (d.modSes n f).dom j = d.dom j := rfl
@[simp] theorem modSes_powered (n : Nat) (f : Sess → Sess) : (d.modSes n f).powered = d.powered := rfl
@[simp] theorem modSes_tick (n : Nat) (f : Sess → Sess) : (d.modSes n f).tick = d.tick := rfl

@[simp] theorem setDom_getW (n : Nat) (x : Dom) (j : Nat) : (d.setDom n x).getW j = d.getW j := rfl
@[simp] theorem setDom_get (n : Nat) (x : Dom) (g : Fld) : (d.setDom n x).get g = d.get g := rfl
@[simp] theorem setDom_page (n : Nat) (x : Dom) (q : Nat) : (d.setDom n x).page q = d.page q := rfl
@[simp] theorem setDom_chan (n : Nat) (x : Dom) (b : Nat) : (d.setDom n x).chan b = d.chan b := rfl
@[simp] theorem setDom_ses (n : Nat) (x : Dom) (j : Nat) : (d.setDom n x).ses j = d.ses j := rfl
@[simp] theorem setDom_ham (n : Nat) (x : Dom) (j : Nat) : (d.setDom n x).ham j = d.ham j := rfl
@[simp] theorem setDom_mill (n : Nat) (x : Dom) (j : Nat) : (d.setDom n x).mill j = d.mill j := rfl
@[simp] theorem setDom_powered (n : Nat) (x : Dom) : (d.setDom n x).powered = d.powered := rfl
@[simp] theorem setDom_tick (n : Nat) (x : Dom) : (d.setDom n x).tick = d.tick := rfl

@[simp] theorem setMemW_getW (a x : Nat) (j : Nat) : (d.setMemW a x).getW j = d.getW j := rfl
@[simp] theorem setMemW_get (a x : Nat) (g : Fld) : (d.setMemW a x).get g = d.get g := rfl
@[simp] theorem setMemW_page (a x : Nat) (q : Nat) : (d.setMemW a x).page q = d.page q := rfl
@[simp] theorem setMemW_chan (a x : Nat) (b : Nat) : (d.setMemW a x).chan b = d.chan b := rfl
@[simp] theorem setMemW_ses (a x : Nat) (j : Nat) : (d.setMemW a x).ses j = d.ses j := rfl
@[simp] theorem setMemW_ham (a x : Nat) (j : Nat) : (d.setMemW a x).ham j = d.ham j := rfl
@[simp] theorem setMemW_mill (a x : Nat) (j : Nat) : (d.setMemW a x).mill j = d.mill j := rfl
@[simp] theorem setMemW_dom (a x : Nat) (j : Nat) : (d.setMemW a x).dom j = d.dom j := rfl
@[simp] theorem setMemW_powered (a x : Nat) : (d.setMemW a x).powered = d.powered := rfl
@[simp] theorem setMemW_tick (a x : Nat) : (d.setMemW a x).tick = d.tick := rfl

@[simp] theorem setMemB_getW (a : Nat) (l : List Byte) (j : Nat) : (d.setMemB a l).getW j = d.getW j := rfl
@[simp] theorem setMemB_get (a : Nat) (l : List Byte) (g : Fld) : (d.setMemB a l).get g = d.get g := rfl
@[simp] theorem setMemB_page (a : Nat) (l : List Byte) (q : Nat) : (d.setMemB a l).page q = d.page q := rfl
@[simp] theorem setMemB_chan (a : Nat) (l : List Byte) (b : Nat) : (d.setMemB a l).chan b = d.chan b := rfl
@[simp] theorem setMemB_ses (a : Nat) (l : List Byte) (j : Nat) : (d.setMemB a l).ses j = d.ses j := rfl
@[simp] theorem setMemB_ham (a : Nat) (l : List Byte) (j : Nat) : (d.setMemB a l).ham j = d.ham j := rfl
@[simp] theorem setMemB_mill (a : Nat) (l : List Byte) (j : Nat) : (d.setMemB a l).mill j = d.mill j := rfl
@[simp] theorem setMemB_dom (a : Nat) (l : List Byte) (j : Nat) : (d.setMemB a l).dom j = d.dom j := rfl
@[simp] theorem setMemB_powered (a : Nat) (l : List Byte) : (d.setMemB a l).powered = d.powered := rfl
@[simp] theorem setMemB_tick (a : Nat) (l : List Byte) : (d.setMemB a l).tick = d.tick := rfl

@[simp] theorem setDesc_getW (i j x : Nat) (q0 : Nat) : (d.setDesc i j x).getW q0 = d.getW q0 := rfl
@[simp] theorem setDesc_get (i j x : Nat) (g : Fld) : (d.setDesc i j x).get g = d.get g := rfl
@[simp] theorem setDesc_page (i j x : Nat) (q : Nat) : (d.setDesc i j x).page q = d.page q := rfl
@[simp] theorem setDesc_chan (i j x : Nat) (b : Nat) : (d.setDesc i j x).chan b = d.chan b := rfl
@[simp] theorem setDesc_ses (i j x : Nat) (q0 : Nat) : (d.setDesc i j x).ses q0 = d.ses q0 := rfl
@[simp] theorem setDesc_ham (i j x : Nat) (q0 : Nat) : (d.setDesc i j x).ham q0 = d.ham q0 := rfl
@[simp] theorem setDesc_mill (i j x : Nat) (q0 : Nat) : (d.setDesc i j x).mill q0 = d.mill q0 := rfl
@[simp] theorem setDesc_dom (i j x : Nat) (q0 : Nat) : (d.setDesc i j x).dom q0 = d.dom q0 := rfl
@[simp] theorem setDesc_powered (i j x : Nat) : (d.setDesc i j x).powered = d.powered := rfl
@[simp] theorem setDesc_tick (i j x : Nat) : (d.setDesc i j x).tick = d.tick := rfl

@[simp] theorem emit_getW (o : Out) (j : Nat) : (d.emit o).getW j = d.getW j := rfl
@[simp] theorem emit_get (o : Out) (g : Fld) : (d.emit o).get g = d.get g := rfl
@[simp] theorem emit_page (o : Out) (q : Nat) : (d.emit o).page q = d.page q := rfl
@[simp] theorem emit_chan (o : Out) (b : Nat) : (d.emit o).chan b = d.chan b := rfl
@[simp] theorem emit_ses (o : Out) (j : Nat) : (d.emit o).ses j = d.ses j := rfl
@[simp] theorem emit_ham (o : Out) (j : Nat) : (d.emit o).ham j = d.ham j := rfl
@[simp] theorem emit_mill (o : Out) (j : Nat) : (d.emit o).mill j = d.mill j := rfl
@[simp] theorem emit_dom (o : Out) (j : Nat) : (d.emit o).dom j = d.dom j := rfl
@[simp] theorem emit_powered (o : Out) : (d.emit o).powered = d.powered := rfl
@[simp] theorem emit_tick (o : Out) : (d.emit o).tick = d.tick := rfl

@[simp] theorem next_getW (j : Nat) : (d.next).getW j = d.getW j := rfl
@[simp] theorem next_get (g : Fld) : (d.next).get g = d.get g := rfl
@[simp] theorem next_page (q : Nat) : (d.next).page q = d.page q := rfl
@[simp] theorem next_chan (b : Nat) : (d.next).chan b = d.chan b := rfl
@[simp] theorem next_ses (j : Nat) : (d.next).ses j = d.ses j := rfl
@[simp] theorem next_ham (j : Nat) : (d.next).ham j = d.ham j := rfl
@[simp] theorem next_mill (j : Nat) : (d.next).mill j = d.mill j := rfl
@[simp] theorem next_dom (j : Nat) : (d.next).dom j = d.dom j := rfl
@[simp] theorem next_powered : (d.next).powered = d.powered := rfl
@[simp] theorem next_tick : (d.next).tick = d.tick := rfl

@[simp] theorem modPwr_getW (f : PwrSt → PwrSt) (j : Nat) : (d.modPwr f).getW j = d.getW j := rfl
@[simp] theorem modPwr_get (f : PwrSt → PwrSt) (g : Fld) : (d.modPwr f).get g = d.get g := rfl
@[simp] theorem modPwr_page (f : PwrSt → PwrSt) (q : Nat) : (d.modPwr f).page q = d.page q := rfl
@[simp] theorem modPwr_chan (f : PwrSt → PwrSt) (b : Nat) : (d.modPwr f).chan b = d.chan b := rfl
@[simp] theorem modPwr_ses (f : PwrSt → PwrSt) (j : Nat) : (d.modPwr f).ses j = d.ses j := rfl
@[simp] theorem modPwr_ham (f : PwrSt → PwrSt) (j : Nat) : (d.modPwr f).ham j = d.ham j := rfl
@[simp] theorem modPwr_mill (f : PwrSt → PwrSt) (j : Nat) : (d.modPwr f).mill j = d.mill j := rfl
@[simp] theorem modPwr_dom (f : PwrSt → PwrSt) (j : Nat) : (d.modPwr f).dom j = d.dom j := rfl
@[simp] theorem modPwr_tick (f : PwrSt → PwrSt) : (d.modPwr f).tick = d.tick := rfl

@[simp] theorem modFlash_getW (f : Flash → Flash) (j : Nat) : (d.modFlash f).getW j = d.getW j := rfl
@[simp] theorem modFlash_get (f : Flash → Flash) (g : Fld) : (d.modFlash f).get g = d.get g := rfl
@[simp] theorem modFlash_page (f : Flash → Flash) (q : Nat) : (d.modFlash f).page q = d.page q := rfl
@[simp] theorem modFlash_chan (f : Flash → Flash) (b : Nat) : (d.modFlash f).chan b = d.chan b := rfl
@[simp] theorem modFlash_ses (f : Flash → Flash) (j : Nat) : (d.modFlash f).ses j = d.ses j := rfl
@[simp] theorem modFlash_ham (f : Flash → Flash) (j : Nat) : (d.modFlash f).ham j = d.ham j := rfl
@[simp] theorem modFlash_mill (f : Flash → Flash) (j : Nat) : (d.modFlash f).mill j = d.mill j := rfl
@[simp] theorem modFlash_dom (f : Flash → Flash) (j : Nat) : (d.modFlash f).dom j = d.dom j := rfl
@[simp] theorem modFlash_powered (f : Flash → Flash) : (d.modFlash f).powered = d.powered := rfl
@[simp] theorem modFlash_tick (f : Flash → Flash) : (d.modFlash f).tick = d.tick := rfl

@[simp] theorem modCfg_getW (f : CfgSt → CfgSt) (j : Nat) : (d.modCfg f).getW j = d.getW j := rfl
@[simp] theorem modCfg_get (f : CfgSt → CfgSt) (g : Fld) : (d.modCfg f).get g = d.get g := rfl
@[simp] theorem modCfg_page (f : CfgSt → CfgSt) (q : Nat) : (d.modCfg f).page q = d.page q := rfl
@[simp] theorem modCfg_chan (f : CfgSt → CfgSt) (b : Nat) : (d.modCfg f).chan b = d.chan b := rfl
@[simp] theorem modCfg_ses (f : CfgSt → CfgSt) (j : Nat) : (d.modCfg f).ses j = d.ses j := rfl
@[simp] theorem modCfg_ham (f : CfgSt → CfgSt) (j : Nat) : (d.modCfg f).ham j = d.ham j := rfl
@[simp] theorem modCfg_mill (f : CfgSt → CfgSt) (j : Nat) : (d.modCfg f).mill j = d.mill j := rfl
@[simp] theorem modCfg_dom (f : CfgSt → CfgSt) (j : Nat) : (d.modCfg f).dom j = d.dom j := rfl
@[simp] theorem modCfg_powered (f : CfgSt → CfgSt) : (d.modCfg f).powered = d.powered := rfl
@[simp] theorem modCfg_tick (f : CfgSt → CfgSt) : (d.modCfg f).tick = d.tick := rfl

@[simp] theorem modTwin_getW (f : TwinSt → TwinSt) (j : Nat) : (d.modTwin f).getW j = d.getW j := rfl
@[simp] theorem modTwin_get (f : TwinSt → TwinSt) (g : Fld) : (d.modTwin f).get g = d.get g := rfl
@[simp] theorem modTwin_page (f : TwinSt → TwinSt) (q : Nat) : (d.modTwin f).page q = d.page q := rfl
@[simp] theorem modTwin_chan (f : TwinSt → TwinSt) (b : Nat) : (d.modTwin f).chan b = d.chan b := rfl
@[simp] theorem modTwin_ses (f : TwinSt → TwinSt) (j : Nat) : (d.modTwin f).ses j = d.ses j := rfl
@[simp] theorem modTwin_ham (f : TwinSt → TwinSt) (j : Nat) : (d.modTwin f).ham j = d.ham j := rfl
@[simp] theorem modTwin_mill (f : TwinSt → TwinSt) (j : Nat) : (d.modTwin f).mill j = d.mill j := rfl
@[simp] theorem modTwin_dom (f : TwinSt → TwinSt) (j : Nat) : (d.modTwin f).dom j = d.dom j := rfl
@[simp] theorem modTwin_powered (f : TwinSt → TwinSt) : (d.modTwin f).powered = d.powered := rfl
@[simp] theorem modTwin_tick (f : TwinSt → TwinSt) : (d.modTwin f).tick = d.tick := rfl

end

end Sys2Proof.Machine
end

