-- ==== Sys2Proof/Laws/Faults.lean ====
section
/-! SUPPORT. What the fault machinery leaves alone. An invariant that is closed under the changes that a detection or a
reaction makes (registers, pages, channels, hamlets, mills, event queues, descriptors in memory, the escalation mark and the
pins' pulses) is kept by every operation of it; and `Dev.core`, the part without these, stays the same. -/

namespace Sys2Proof.Machine

open Sys2Proof

/-- The invariant is closed under what a fault can change. -/
structure FaultStable (I : Dev → Prop) : Prop where
  regs : ∀ d l, I d → I { d with regs := l }
  pages : ∀ d l, I d → I { d with pages := l }
  chans : ∀ d l, I d → I { d with chans := l }
  hams : ∀ d l, I d → I { d with hams := l }
  mills : ∀ d l, I d → I { d with mills := l }
  sess : ∀ d l, I d → I { d with sess := l }
  desc : ∀ d i j x, I d → I (d.setDesc i j x)
  seen : ∀ d b, I d → I { d with cfg := { d.cfg with escSeen := b } }
  pulses : ∀ d l m, I d → I { d with pins := { d.pins with pulse := l, ends := m } }

namespace FaultStable

variable {I : Dev → Prop} (h : FaultStable I) {d : Dev}
include h

theorem setW (k x : Nat) (hd : I d) : I (d.setW k x) := h.regs d _ hd
theorem set (f : Fld) (x : Nat) (hd : I d) : I (d.set f x) := h.regs d _ hd
theorem setB (f : Fld) (b : Bool) (hd : I d) : I (d.setB f b) := h.regs d _ hd
theorem setBit (k i : Nat) (b : Bool) (hd : I d) : I (d.setBit k i b) := h.regs d _ hd
theorem ist (p i : Nat) (hd : I d) : I (d.ist p i) := h.regs d _ hd
theorem add (f : Fld) (n : Nat) (hd : I d) : I (d.add f n) := h.regs d _ hd
theorem inc (f : Fld) (hd : I d) : I (d.inc f) := h.regs d _ hd
theorem modPage (p : Nat) (f : PageX → PageX) (hd : I d) : I (d.modPage p f) := h.pages d _ hd
theorem modChan (c : Nat) (f : Chan → Chan) (hd : I d) : I (d.modChan c f) := h.chans d _ hd
theorem setHam (k : Nat) (x : Ham) (hd : I d) : I (d.setHam k x) := h.hams d _ hd
theorem setMill (m : Nat) (x : Mill) (hd : I d) : I (d.setMill m x) := h.mills d _ hd
theorem postAll (p : Sess → Bool) (r : EvRec) (hd : I d) : I (d.postAll p r) := h.sess d _ hd
theorem post (s : Nat) (r : EvRec) (hd : I d) : I (d.post s r) := by
  unfold Dev.post
  split
  · exact h.sess d _ hd
  · exact hd

theorem clearW (l : List Nat) (hd : I d) : I (d.clearW l) := by
  induction l generalizing d with
  | nil => exact hd
  | cons k l ih => exact ih (h.setW _ _ hd)

theorem zero (l : List Fld) (hd : I d) : I (d.zero l) := by
  induction l generalizing d with
  | nil => exact hd
  | cons f l ih => exact ih (h.set _ _ hd)

omit h in
theorem forEach {α : Type} (l : List α) (f : Dev → α → Dev) (hf : ∀ d a, I d → I (f d a)) (hd : I d) : I (d.forEach l f) :=
  forEach_keeps I l f hf d hd

omit h in
theorem iff (b : Bool) (f : Dev → Dev) (hd : I d) (hf : I (f d)) : I (d.iff b f) := iff_keeps I b f d hd hf

omit h in
theorem ite (p : Prop) [Decidable p] {e : Dev} (hd : I d) (he : I e) : I (if p then d else e) := by
  split
  · exact hd
  · exact he

theorem curfewCause (c cause : Nat) (hd : I d) : I (curfewCause d c cause) := by
  unfold Machine.curfewCause
  split
  · exact h.modChan _ _ (h.set _ _ (h.set _ _ (h.ist _ _ (h.inc _ hd))))
  · split
    · exact h.modChan _ _ (h.set _ _ (h.set _ _ hd))
    · exact hd

theorem putEntry (c : Nat) (e : TxEntry) (hd : I d) : I (putEntry d c e) := h.desc _ _ _ _ (h.modChan _ _ hd)
theorem qstat (c : Nat) (hd : I d) : I (qstat d c) := h.set _ _ (h.set _ _ (h.set _ _ hd))

theorem endEntry (c : Nat) (e : TxEntry) (st : Nat) (hd : I d) : I (endEntry d c e st) := by
  unfold Machine.endEntry
  extract_lets d1 d2
  have h2 : I d2 := h.qstat _ (h.modChan _ _ (h.desc _ _ _ _ hd))
  clear_value d2
  refine ite _ (iff _ _ h2 (h.ist _ _ h2)) (ite _ (h.inc _ (h.ist _ _ h2)) (ite _ (h.inc _ (h.ist _ _ h2))
    (ite _ (h.inc _ h2) h2)))

theorem abortEntry (c : Nat) (e : TxEntry) (hd : I d) : I (abortEntry d c e) :=
  ite _ (h.modChan _ _ hd) (h.endEntry _ _ _ hd)

theorem abortAllOf (c : Nat) (hd : I d) : I (abortAllOf d c) := forEach _ _ (fun _ e hx => h.abortEntry c e hx) hd

theorem enqueue (c i w0 w1 qt cls w3 : Nat) (src : PushSrc) (hd : I d) : I (pushOp.enqueue d c i w0 w1 qt cls w3 src) := by
  unfold pushOp.enqueue
  exact h.curfewCause _ _ (h.qstat _ (h.desc _ _ _ _ (h.modChan _ _ hd)))

theorem fltEvent (p action : Nat) (hd : I d) : I (fltEvent d p action) := by
  unfold Machine.fltEvent
  extract_lets d1
  have h1 : I d1 := h.postAll _ _ hd
  exact ite _ h1 (h.set _ _ (h.set _ _ (h.set _ _ h1)))

theorem pulse (b : Nat → Bool) (hd : I d) : I (pulse d b) := h.pulses d _ _ hd

theorem latchOff (p : Nat) (hd : I d) : I (latchOff d p) := by
  unfold Machine.latchOff
  extract_lets d1 d2
  have h2 : I d2 := h.fltEvent _ _ (h.inc _ (h.ist _ _ (h.modPage _ _ hd)))
  clear_value d2
  exact ite _ (h.modChan _ _ h2) (ite _ (h.set _ _ h2) h2)

theorem recover (p : Nat) (hd : I d) : I (recover d p) := by
  unfold Machine.recover
  extract_lets d1 d2
  have h1 : I d1 := h.modPage _ _ hd
  have h2 : I d2 := h.fltEvent _ _ (h.inc _ h1)
  clear_value d2
  exact ite _ h1 (ite _ (h.latchOff _ h2) h2)

theorem startQuiet (p : Nat) (hd : I d) : I (startQuiet d p) :=
  ite _ (h.recover _ (h.modPage _ _ hd)) (h.modPage _ _ hd)

theorem waitAfter (c ns : Nat) (hd : I d) : I (waitAfter d c ns) := h.modChan _ _ hd

theorem shadowDone (p : Nat) (hd : I d) : I (shadowDone d p) := by
  unfold Machine.shadowDone
  extract_lets due d1
  have h1 : I d1 := ite _ (h.waitAfter _ _ hd) hd
  clear_value d1
  exact ite _ (h.startQuiet _ (h.modPage _ _ h1)) (h.modPage _ _ h1)

theorem openShadow (p : Nat) (cov : Option Nat) (r : Bool) (hd : I d) : I (openShadow d p cov r) := by
  unfold Machine.openShadow
  exact ite _ (h.shadowDone _ (h.modPage _ _ hd)) (h.modPage _ _ hd)

theorem clearLive (p s : Nat) (hd : I d) : I (clearLive d p s) := by
  unfold Machine.clearLive
  exact ite _ (h.modPage _ _ (ite _ (h.set _ _ hd) hd)) hd

theorem condEnd (p s : Nat) (hd : I d) : I (condEnd d p s) := h.clearLive p s hd

theorem busOffEnd (c : Nat) (hd : I d) : I (busOffEnd d c) := by
  unfold Machine.busOffEnd
  exact h.clearLive _ _ (h.clearLive _ _ (h.modChan _ _ (h.set _ _ (h.ist _ _ (h.inc _ (h.set _ _ (h.set _ _
    (h.set _ _ (h.set _ _ hd)))))))))

theorem clearBlock (p : Nat) (hd : I d) : I (clearBlock d p) := by
  unfold Machine.clearBlock
  refine ite _ ?_ (ite _ (h.set _ _ hd) (ite _ (h.set _ _ hd) (ite _ (h.set _ _ (h.clearW _ hd))
    (ite _ (h.set _ _ (h.clearW _ hd)) (ite _ (h.set _ _ (h.clearW _ hd)) (ite _ (h.clearW _ hd) (ite _ (h.clearW _ hd)
    (ite _ (h.clearW _ hd) (ite _ (h.clearW _ hd) (ite _ (h.clearW _ hd) (ite _ (h.set _ _ (h.set _ _ hd)) (ite _ (h.set _ _ hd) hd))))))))))))
  refine ite _ (h.set _ _ (h.clearW _ hd)) (ite _ (h.clearW _ hd) (ite _ (h.clearW _ hd) ?_))
  have h1 := h.zero (CHS_BOSTAT_ENTRIES (pageChan p) :: (List.range 32).map (CHS_NODE_FENCES (pageChan p)))
    (h.clearW [CHS_FCNT (pageChan p), CHS_ECNT0 (pageChan p), CHS_ECNT1 (pageChan p), CHS_ECNT2 (pageChan p),
      CHS_ANOM (pageChan p), CHS_STUCK (pageChan p)] hd)
  exact ite _ (h.busOffEnd _ h1) (h.zero _ h1)

theorem softReset (p : Nat) (hd : I d) : I (softReset d p) := h.openShadow _ _ _ (h.clearBlock _ hd)

theorem releaseHead (hd : I d) : I (releaseHead d) := by
  unfold Machine.releaseHead
  exact ite _ (forEach _ _ (fun _ c hx => h.curfewCause c 2 hx) (h.set _ _ hd)) (h.set _ _ hd)

theorem quietAfter (l : List Nat) (hd : I d) : I (quietAfter d l) := by
  induction l generalizing d with
  | nil => exact hd
  | cons p l ih => exact ih (ite _ (h.startQuiet _ hd) hd)

section raising
variable {rz : Dev → Nat → Nat → Dev} (hr : ∀ d p s, I d → I (rz d p s))
include hr

theorem violate (w : Who) (ty addr byte reason : Nat) (hd : I d) : I (violate rz d w ty addr byte reason) := by
  unfold Machine.violate
  exact hr _ _ _ (h.ist _ _ (ite _ (h.setW _ _ (h.setW _ _ (h.setW _ _ (h.inc _ hd)))) (h.inc _ hd)))

theorem scopeRefused (c i s start : Nat) (hd : I d) : I (scopeRefused rz d c i s start) := by
  unfold Machine.scopeRefused
  exact h.sess _ _ (h.violate hr _ _ _ _ _ (h.ist _ _ hd))

theorem pushScoped (c i s start : Nat) (hd : I d) : I (pushScoped rz d c i s start) :=
  h.scopeRefused hr _ _ _ _ (h.inc _ (h.desc _ _ _ _ hd))

theorem pushOp (c i : Nat) (src : PushSrc) (hd : I d) : I (pushOp rz d c i src) := by
  unfold Machine.pushOp
  split
  · exact ite _ (h.desc _ _ _ _ hd) hd
  · exact hd
  · exact hr _ _ _ (h.ist _ _ hd)
  · exact hr _ _ _ (h.ist _ _ (h.desc _ _ _ _ hd))
  · exact h.pushScoped hr _ _ _ _ hd
  · exact h.enqueue _ _ _ _ _ _ _ _ hd

theorem safePush (c : Nat) (hd : I d) : I (safePush rz d c) := forEach _ _ (fun _ _ hx => h.pushOp hr c _ _ hx) hd

theorem isolateHam (k : Nat) (src : Option Nat) (hd : I d) : I (isolateHam rz d k src) := by
  unfold Machine.isolateHam
  extract_lets m x d1 d2 d3 d4 d5
  have h2 : I d2 := h.ist _ _ (h.set _ _ (h.setHam _ _ hd))
  have h3 : I d3 := ite _ h2 (h.set _ _ h2)
  have h5 : I d5 := h.quietAfter _ (iff _ _ h3 (h.releaseHead h3))
  clear_value d5
  split
  · exact hr _ _ _ h5
  · exact h5

theorem startMigration (k cause : Nat) (hd : I d) : I (startMigration rz d k cause) := by
  unfold Machine.startMigration
  extract_lets old d0 d1
  have h1 : I d1 := ite _ hd (h.setMill _ _ (h.set _ _ (ite _ hd (h.set _ _ hd))))
  clear_value d1
  split
  · exact h.isolateHam hr _ _ h1
  · extract_lets x d2 y d3
    have h3 : I d3 := h.setHam _ _ (h.ist _ _ (h.setMill _ _ (h.set _ _ h1)))
    clear_value d3
    exact ite _ h3 (h.openShadow _ _ _ h3)

theorem stranded (p : Nat) (hd : I d) : I (stranded rz d p) := by
  unfold Machine.stranded
  exact ite _ (h.isolateHam hr _ _ hd) hd

theorem enterSafe (p : Nat) (hd : I d) : I (enterSafe rz d p) := by
  unfold Machine.enterSafe
  split
  · exact hd
  · exact forEach _ _ (fun _ c hx => h.safePush hr c hx) (forEach _ _ (fun _ c hx => h.abortAllOf c hx)
      (h.inc _ (h.ist _ _ (h.setW _ _ hd))))

theorem react (p l cause : Nat) (hd : I d) : I (react rz d p l cause) := by
  unfold Machine.react
  extract_lets d1 d2 d3 x d4 d5 k
  have h4 : I d4 := h.seen _ _ (h.pulse _ (h.fltEvent _ _ (h.ist _ _ (h.modPage _ _ hd))))
  have h5 : I d5 := h.inc _ h4
  refine ite _ (h.softReset _ (h.modPage _ _ (h.inc _ h4))) (ite _ (ite _ (h.startQuiet _ (h.modChan _ _ h5))
    (ite _ (ite _ (h.startQuiet _ h5) (h.startMigration hr _ _ (h.modPage _ _ h5))) (h.latchOff _ h5)))
    (h.enterSafe hr _ h4))

end raising

theorem recordFault (p s code sev : Nat) (f : Bool) (hd : I d) : I (recordFault d p s code sev f).1 := by
  unfold Machine.recordFault
  extract_lets st cause cls first d1 d2 d3
  have h1 : I d1 := ite _ (h.ist _ _ (h.setW _ _ hd)) (h.set _ _ (h.inc _ hd))
  have h3 : I d3 := h.pulse _ (h.modPage _ _ h1)
  exact ite _ (h.fltEvent _ _ h3) h3

theorem raiseWith {rz : Dev → Nat → Nat → Dev} (hr : ∀ d p s, I d → I (rz d p s)) (p s : Nat) (f : Bool)
    (imm : Option (Nat × Nat)) (hd : I d) : I (raiseWith rz d p s f imm) := by
  rw [Machine.raiseWith]
  split
  · exact hd
  · next code sev _ =>
    split
    · exact hd
    · have h1 := h.recordFault p s code sev f hd
      dsimp only
      split
      · exact h.react hr _ _ _ h1
      · split
        · exact h1
        · split
          · exact h.react hr _ _ _ h1
          · split
            · exact h1
            · exact ite _ (ite _ (h.react hr _ _ _ h1) (h.stranded hr _ (h.latchOff _ h1))) (by unfold Machine.setTimer; exact h.modPage _ _ h1)

theorem raiseN (n : Nat) : ∀ d p s, I d → I (raiseN n d p s) := by
  induction n with
  | zero =>
    intro d p s hd
    unfold Machine.raiseN
    split
    · exact hd
    · exact h.recordFault _ _ _ _ _ hd
  | succ n ih => exact fun d p s hd => h.raiseWith ih p s false none hd

/-- Raising a fault keeps the invariant. -/
theorem raise (p s : Nat) (hd : I d) : I (raise d p s) := h.raiseWith (h.raiseN 4) p s false none hd

theorem raiseImm (p s l cause : Nat) (hd : I d) : I (raiseImm d p s l cause) := h.raiseWith (h.raiseN 4) p s false _ hd

theorem raiseForced (p s : Nat) (hd : I d) : I (raiseForced d p s) := by
  unfold Machine.raiseForced
  split
  · exact hd
  · exact h.raiseWith (h.raiseN 4) p s true _ (h.inc _ hd)

theorem ackPage (p : Nat) (hd : I d) : I (ackPage d p) := by
  unfold Machine.ackPage
  have h1 := h.modPage p (fun x => health
    { x with timer := none, held := x.live, firstSrc := none, ackS := true, ackI := true } p)
    (h.setW (PG_FLTX p) 0 (h.setW (PG_FLT p) 0 hd))
  exact ite _ (h.clearW _ h1) h1

theorem violation (w : Who) (ty addr byte reason : Nat) (hd : I d) : I (violation d w ty addr byte reason) :=
  h.violate (fun _ _ _ hx => h.raise _ _ hx) w ty addr byte reason hd

end FaultStable

/-- The part without what a fault can change. -/
def Dev.core (d : Dev) : Dev :=
  { d with regs := [], mem := [], pages := [], chans := [], hams := [], mills := [], sess := [],
           cfg := { d.cfg with escSeen := false }, pins := ⟨[], [], d.pins.released⟩ }

/-- A fault keeps the core. -/
theorem faultStable_core (c : Dev) : FaultStable (fun d => d.core = c) where
  regs d l hd := by rw [← hd]; simp only [Dev.core]
  pages d l hd := by rw [← hd]; simp only [Dev.core]
  chans d l hd := by rw [← hd]; simp only [Dev.core]
  hams d l hd := by rw [← hd]; simp only [Dev.core]
  mills d l hd := by rw [← hd]; simp only [Dev.core]
  sess d l hd := by rw [← hd]; simp only [Dev.core]
  desc d i j x hd := by rw [← hd]; simp [Dev.core]
  seen d b hd := by rw [← hd]; simp only [Dev.core]
  pulses d l m hd := by rw [← hd]; simp only [Dev.core]

theorem core_raise (d : Dev) (p s : Nat) : (raise d p s).core = d.core := (faultStable_core d.core).raise p s rfl
theorem core_condEnd (d : Dev) (p s : Nat) : (condEnd d p s).core = d.core := (faultStable_core d.core).condEnd p s rfl
theorem core_violation (d : Dev) (w : Who) (ty addr byte reason : Nat) : (violation d w ty addr byte reason).core = d.core :=
  (faultStable_core d.core).violation w ty addr byte reason rfl
theorem core_react (d : Dev) (p l cause : Nat) : (react raise d p l cause).core = d.core :=
  (faultStable_core d.core).react (fun _ _ _ hx => (faultStable_core d.core).raise _ _ hx) p l cause rfl

/-- What equal cores say, field by field. -/
theorem core_fields {d e : Dev} (h : d.core = e.core) :
    d.part = e.part ∧ d.step = e.step ∧ d.straps = e.straps ∧ d.cert = e.cert ∧ d.certPend = e.certPend ∧ d.aon = e.aon
      ∧ d.flash = e.flash ∧ d.shadows = e.shadows ∧ d.shadowAt = e.shadowAt ∧ d.shadowOld = e.shadowOld ∧ d.frozen = e.frozen ∧ d.ups = e.ups ∧ d.reasm = e.reasm
      ∧ d.seen = e.seen ∧ d.prp = e.prp ∧ d.sec = e.sec ∧ d.svc = e.svc ∧ d.tim = e.tim ∧ d.intc = e.intc
      ∧ d.gate = e.gate ∧ d.pwr = e.pwr ∧ d.twin = e.twin ∧ d.vigHeld = e.vigHeld ∧ d.vigSaved = e.vigSaved
      ∧ d.lastMsg = e.lastMsg ∧ d.bell = e.bell ∧ d.out = e.out ∧ d.fresh = e.fresh
      ∧ d.pins.released = e.pins.released := by
  simp only [Dev.core, Dev.mk.injEq, Pins.mk.injEq] at h
  simp [h]

theorem core_powered {d e : Dev} (h : d.core = e.core) : d.powered = e.powered := by simp [Dev.powered, core_fields h]
theorem core_tick {d e : Dev} (h : d.core = e.core) : d.tick = e.tick := by simp [Dev.tick, core_fields h]

@[simp] theorem raise_powered (d : Dev) (p s : Nat) : (raise d p s).powered = d.powered := core_powered (core_raise d p s)
@[simp] theorem raise_tick (d : Dev) (p s : Nat) : (raise d p s).tick = d.tick := core_tick (core_raise d p s)
@[simp] theorem condEnd_powered (d : Dev) (p s : Nat) : (condEnd d p s).powered = d.powered := core_powered (core_condEnd d p s)

end Sys2Proof.Machine
end

