-- ==== Sys2Proof/Laws/Memory.lean ====
section
/-! SUPPORT. Memory: its canonical form is kept by every operation on it, and reading after writing. -/

namespace Sys2Proof.Machine

open Sys2Proof

/-- The canonical form, cell by cell. -/
theorem wf_cons (c : Host.Cell) (l : List Host.Cell) :
    Memory.wf (c :: l) = true ↔ c.2 ≠ memDefault c.1 ∧ (∀ e ∈ l, c.1 < e.1) ∧ Memory.wf l = true := by
  induction l generalizing c with
  | nil => simp [Memory.wf]
  | cons e l ih =>
    have := ih e
    simp only [Memory.wf, Bool.and_eq_true, bne_iff_ne, decide_eq_true_eq, List.forall_mem_cons]
    constructor
    · rintro ⟨⟨h1, h2⟩, h3⟩
      exact ⟨h1, ⟨h2, fun x hx => Nat.lt_trans h2 ((this.mp h3).2.1 x hx)⟩, h3⟩
    · rintro ⟨h1, ⟨h2, _⟩, h3⟩
      exact ⟨⟨h1, h2⟩, h3⟩

theorem mem_delCell {a : Nat} {e : Host.Cell} {l : List Host.Cell} (h : e ∈ delCell a l) : e ∈ l ∧ e.1 ≠ a := by
  induction l with
  | nil => simp [delCell] at h
  | cons c l ih =>
    by_cases h1 : c.1 = a
    · rw [delCell, if_pos h1] at h
      exact ⟨List.mem_cons_of_mem _ (ih h).1, (ih h).2⟩
    · rw [delCell, if_neg h1, List.mem_cons] at h
      rcases h with rfl | h
      · exact ⟨List.mem_cons_self, h1⟩
      · exact ⟨List.mem_cons_of_mem _ (ih h).1, (ih h).2⟩

theorem wf_delCell (a : Nat) (l : List Host.Cell) (h : Memory.wf l = true) : Memory.wf (delCell a l) = true := by
  induction l with
  | nil => exact h
  | cons c l ih =>
    rw [wf_cons] at h
    by_cases h1 : c.1 = a
    · rw [delCell, if_pos h1]
      exact ih h.2.2
    · rw [delCell, if_neg h1, wf_cons]
      exact ⟨h.1, fun e he => h.2.1 e (mem_delCell he).1, ih h.2.2⟩

theorem mem_insCell {a : Nat} {b : Byte} {e : Host.Cell} {l : List Host.Cell} (h : e ∈ insCell a b l) :
    e = (a, b) ∨ e ∈ l := by
  induction l with
  | nil => simpa [insCell] using h
  | cons c l ih =>
    by_cases h1 : a < c.1
    · rw [insCell, if_pos h1, List.mem_cons] at h
      exact h
    · rw [insCell, if_neg h1, List.mem_cons] at h
      rcases h with rfl | h
      · exact Or.inr List.mem_cons_self
      · rcases ih h with h | h
        · exact Or.inl h
        · exact Or.inr (List.mem_cons_of_mem _ h)

theorem wf_insCell (a : Nat) (b : Byte) (l : List Host.Cell) (hb : b ≠ memDefault a) (hn : ∀ e ∈ l, e.1 ≠ a)
    (h : Memory.wf l = true) : Memory.wf (insCell a b l) = true := by
  induction l with
  | nil => simpa [insCell, Memory.wf] using hb
  | cons c l ih =>
    have h0 := (wf_cons c l).mp h
    have hc : c.1 ≠ a := hn c List.mem_cons_self
    by_cases h1 : a < c.1
    · rw [insCell, if_pos h1, wf_cons]
      refine ⟨hb, ?_, h⟩
      intro e he
      rcases List.mem_cons.mp he with rfl | he
      · exact h1
      · exact Nat.lt_trans h1 (h0.2.1 e he)
    · rw [insCell, if_neg h1, wf_cons]
      refine ⟨h0.1, ?_, ih (fun e he => hn e (List.mem_cons_of_mem _ he)) h0.2.2⟩
      intro e he
      rcases mem_insCell he with rfl | he
      · exact Nat.lt_of_le_of_ne (Nat.le_of_not_lt h1) hc
      · exact h0.2.1 e he

/-- A write in one equation: the cell goes, or it takes the byte. -/
theorem put_eq (m : List Host.Cell) (a : Nat) (b : Byte) :
    Memory.put m a b = if b = memDefault a then delCell a m else insCell a b (delCell a m) := by
  cases m <;> rfl

/-- Writing a byte keeps the canonical form. -/
theorem wf_put (m : List Host.Cell) (a : Nat) (b : Byte) (h : Memory.wf m = true) : Memory.wf (Memory.put m a b) = true := by
  rw [put_eq]
  split
  · exact wf_delCell a m h
  · next hb => exact wf_insCell a b _ hb (fun e he => (mem_delCell he).2) (wf_delCell a m h)

/-- Writing bytes keeps the canonical form. -/
theorem wf_putAll (m : List Host.Cell) (a : Nat) (l : List Byte) (h : Memory.wf m = true) :
    Memory.wf (Memory.putAll m a l) = true := by
  induction l generalizing m a with
  | nil => exact h
  | cons b l ih => exact ih _ _ (wf_put m a b h)

/-- Dropping cells keeps the canonical form. -/
theorem wf_filter (p : Host.Cell → Bool) (m : List Host.Cell) (h : Memory.wf m = true) : Memory.wf (m.filter p) = true := by
  induction m with
  | nil => exact h
  | cons c l ih =>
    rw [wf_cons] at h
    rw [List.filter_cons]
    split
    · rw [wf_cons]
      exact ⟨h.1, fun e he => h.2.1 e (List.mem_filter.mp he).1, ih h.2.2⟩
    · exact ih h.2.2

theorem findKey_delCell (a : Nat) (m : List Host.Cell) : findKey a (delCell a m) = none := by
  induction m with
  | nil => rfl
  | cons c l ih =>
    by_cases h1 : c.1 = a
    · rw [delCell, if_pos h1, ih]
    · rw [delCell, if_neg h1, findKey, if_neg h1, ih]

theorem findKey_delCell_ne {a x : Nat} (h : x ≠ a) (m : List Host.Cell) : findKey x (delCell a m) = findKey x m := by
  induction m with
  | nil => rfl
  | cons c l ih =>
    by_cases h1 : c.1 = a
    · rw [delCell, if_pos h1, ih, findKey, if_neg (by omega)]
    · rw [delCell, if_neg h1, findKey, findKey, ih]

theorem findKey_insCell (a : Nat) (b : Byte) (m : List Host.Cell) (h : findKey a m = none) :
    findKey a (insCell a b m) = some b := by
  induction m with
  | nil => simp [insCell, findKey]
  | cons c l ih =>
    have h1 : ¬ c.1 = a := by
      intro e
      simp [findKey, e] at h
    rw [findKey, if_neg h1] at h
    by_cases h2 : a < c.1
    · rw [insCell, if_pos h2, findKey, if_pos rfl]
    · rw [insCell, if_neg h2, findKey, if_neg h1, ih h]

theorem findKey_insCell_ne {a x : Nat} (h : x ≠ a) (b : Byte) (m : List Host.Cell) :
    findKey x (insCell a b m) = findKey x m := by
  have ha : ¬ a = x := fun e => h e.symm
  induction m with
  | nil => simp [insCell, findKey, ha]
  | cons c l ih =>
    by_cases h2 : a < c.1
    · rw [insCell, if_pos h2, findKey, if_neg ha]
    · rw [insCell, if_neg h2, findKey, findKey, ih]

/-- A byte reads what was written to it. -/
theorem get_put_same (m : List Host.Cell) (a : Nat) (b : Byte) : Memory.get (Memory.put m a b) a = b := by
  rw [put_eq]
  by_cases h : b = memDefault a
  · rw [if_pos h, Memory.get, findKey_delCell]
    exact h.symm
  · rw [if_neg h, Memory.get, findKey_insCell _ _ _ (findKey_delCell a m)]

/-- Another byte reads as before. -/
theorem get_put_ne {a x : Nat} (h : x ≠ a) (m : List Host.Cell) (b : Byte) :
    Memory.get (Memory.put m a b) x = Memory.get m x := by
  rw [put_eq]
  by_cases hb : b = memDefault a
  · rw [if_pos hb, Memory.get, findKey_delCell_ne h, Memory.get]
  · rw [if_neg hb, Memory.get, findKey_insCell_ne h, findKey_delCell_ne h, Memory.get]

/-- A byte outside the written ones reads as before. -/
theorem get_putAll_out (m : List Host.Cell) (a : Nat) (l : List Byte) (x : Nat) (h : x < a ∨ a + l.length ≤ x) :
    Memory.get (Memory.putAll m a l) x = Memory.get m x := by
  induction l generalizing m a with
  | nil => rfl
  | cons b l ih =>
    rw [List.length_cons] at h
    rw [Memory.putAll, ih _ _ (by omega), get_put_ne (by omega)]

/-- The written bytes read as written. -/
theorem getAll_putAll (m : List Host.Cell) (a : Nat) (l : List Byte) :
    Memory.getAll (Memory.putAll m a l) a l.length = l := by
  induction l generalizing m a with
  | nil => rfl
  | cons b l ih =>
    rw [List.length_cons, Memory.getAll, Memory.putAll, ih, get_putAll_out _ _ _ _ (by omega), get_put_same]

/-- Bytes put one after the other, each where `f` says, keep the canonical form. -/
theorem wf_foldPut {β : Type} (l : List β) (at' : β → Nat) (byte : β → Byte) (m : List Host.Cell) (h : Memory.wf m = true) :
    Memory.wf (l.foldl (fun m b => Memory.put m (at' b) (byte b)) m) = true := by
  induction l generalizing m with
  | nil => exact h
  | cons b l ih => exact ih _ (wf_put m (at' b) (byte b) h)

/-- The operations of the part on memory keep the canonical form. -/
theorem wf_setMemW (d : Dev) (a x : Nat) (h : Memory.wf d.mem = true) : Memory.wf (d.setMemW a x).mem = true :=
  wf_foldPut (bytesOf x).zipIdx (fun b => d.phys (a + b.2)) (fun b => b.1) d.mem h
theorem wf_setMemB (d : Dev) (a : Nat) (l : List Byte) (h : Memory.wf d.mem = true) : Memory.wf (d.setMemB a l).mem = true :=
  wf_putAll _ _ _ h
theorem wf_setDesc (d : Dev) (i j x : Nat) (h : Memory.wf d.mem = true) : Memory.wf (d.setDesc i j x).mem = true :=
  wf_putAll _ _ _ h
theorem wf_clearMem (d : Dev) (a n : Nat) (h : Memory.wf d.mem = true) : Memory.wf (clearMem d a n).mem = true :=
  wf_filter _ _ h

/-- The memory after reset has the canonical form. -/
theorem wf_reset : Memory.wf State.reset.dev.mem = true := rfl

end Sys2Proof.Machine
end

