-- ==== Sys2Proof/Laws/StartUp.lean ====
section
/-! SUPPORT. What a package that takes force leaves alone. It touches the registers, the memory, the shadows, the gates,
the channels, the time domains and the services: the rest of the part, `Dev.base`, is the same after `takeForce` and, but
for the flash and the packages' own bookkeeping, after `bootPackages`. -/

namespace Sys2Proof.Machine

open Sys2Proof

/-- What a package, a fault or the flash's roles do not reach: the power die, the always-on domain, the bell, the straps. -/
def Dev.base (d : Dev) : Variant × Straps × Bool × Aon × BellSy × PwrSt :=
  (d.part, d.straps, d.cert, d.aon, d.bell, d.pwr)

theorem faultStable_base (b : Variant × Straps × Bool × Aon × BellSy × PwrSt) : FaultStable (fun d => d.base = b) where
  regs _ _ hd := hd
  pages _ _ hd := hd
  chans _ _ hd := hd
  hams _ _ hd := hd
  mills _ _ hd := hd
  sess _ _ hd := hd
  desc _ _ _ _ hd := hd
  seen _ _ hd := hd
  pulses _ _ _ hd := hd

section
variable (d : Dev)

@[simp] theorem base_setW (k x : Nat) : (d.setW k x).base = d.base := rfl
@[simp] theorem base_set (f : Fld) (x : Nat) : (d.set f x).base = d.base := rfl
@[simp] theorem base_setB (f : Fld) (b : Bool) : (d.setB f b).base = d.base := rfl
@[simp] theorem base_setBit (k i : Nat) (b : Bool) : (d.setBit k i b).base = d.base := rfl
@[simp] theorem base_ist (p i : Nat) : (d.ist p i).base = d.base := rfl
@[simp] theorem base_add (f : Fld) (n : Nat) : (d.add f n).base = d.base := rfl
@[simp] theorem base_inc (f : Fld) : (d.inc f).base = d.base := rfl
@[simp] theorem base_modChan (c : Nat) (f : Chan → Chan) : (d.modChan c f).base = d.base := rfl
@[simp] theorem base_setDom (x : Nat) (m : Dom) : (d.setDom x m).base = d.base := rfl
@[simp] theorem base_modFlash (f : Flash → Flash) : (d.modFlash f).base = d.base := rfl
@[simp] theorem base_setMemW (a x : Nat) : (d.setMemW a x).base = d.base := rfl
@[simp] theorem base_setMemB (a : Nat) (l : List Byte) : (d.setMemB a l).base = d.base := rfl
@[simp] theorem base_modCfg (f : CfgSt → CfgSt) : (d.modCfg f).base = d.base := rfl
@[simp] theorem base_loadVault (k : BitVec 256) : (d.loadVault k).base = d.base := rfl
@[simp] theorem base_setDesc (i j x : Nat) : (d.setDesc i j x).base = d.base := rfl
@[simp] theorem base_gate (g : GateSt) : ({ d with gate := g } : Dev).base = d.base := rfl
@[simp] theorem base_svc (v : SvcSt) : ({ d with svc := v } : Dev).base = d.base := rfl
@[simp] theorem base_mem (m : List Host.Cell) : ({ d with mem := m } : Dev).base = d.base := rfl
@[simp] theorem base_shadows (l : List (Nat × Nat × Word)) : ({ d with shadows := l } : Dev).base = d.base := rfl

end

theorem base_raise (d : Dev) (p s : Nat) : (raise d p s).base = d.base := (faultStable_base d.base).raise p s rfl
theorem base_softReset (d : Dev) (p : Nat) : (softReset d p).base = d.base := (faultStable_base d.base).softReset p rfl
theorem base_ite (p : Prop) [Decidable p] (d e : Dev) (b : Variant × Straps × Bool × Aon × BellSy × PwrSt)
    (hd : d.base = b) (he : e.base = b) : (if p then d else e).base = b := by split <;> assumption
theorem base_iteEq (p : Prop) [Decidable p] (d e : Dev) : (if p then d else e).base = if p then d.base else e.base := by
  split <;> rfl
theorem base_forEach {α : Type} (l : List α) (f : Dev → α → Dev) (h : ∀ d a, (f d a).base = d.base) (d : Dev) :
    (d.forEach l f).base = d.base := forEach_same Dev.base l f h d

@[simp] theorem base_dropShadow (d : Dev) (r : RegRow) (k : Nat) : (dropShadow d r k).base = d.base := by
  unfold dropShadow; split <;> simp

theorem base_applyPair (boot : Bool) (d : Dev) (a v : Nat) : (applyPair boot d a v).base = d.base := by
  unfold applyPair
  dsimp only
  split
  · rfl
  · split
    · rfl
    · simp only [base_iteEq, base_softReset, base_setDom, base_setW, base_dropShadow, ite_self]

theorem base_stageTable (d : Dev) (e : Nat → Nat × Nat) : (stageTable d e).base = d.base :=
  base_forEach _ _ (fun _ _ => by simp only [base_setW]) d
theorem base_writeTable (d : Dev) (l : List (Nat × Word × Word)) : (writeTable d l).base = d.base :=
  base_forEach _ _ (fun _ _ => by simp only [base_setW]) d
theorem base_gateRefuse (d : Dev) (e a b : Nat) : (gateRefuse d e a b).base = d.base := by
  simp only [gateRefuse, base_ist, base_set]
theorem base_dropPermit (d : Dev) : (dropPermit d).base = d.base := by simp only [dropPermit, base_set, base_gate]

theorem base_tryCommit (d : Dev) (e : Nat → Nat × Nat) (l : List (Nat × Word × Word)) (b : Bool) :
    (tryCommit d e l b).base = d.base := by
  unfold tryCommit
  split
  · simp only [startDrain, base_set, base_gate]
  · rw [base_raise, base_gateRefuse]

theorem base_applyGate (pkg : Package) (boot : Bool) (d : Dev) : (applyGate pkg boot d).base = d.base := by
  unfold applyGate
  split
  · exact base_stageTable d _
  · simp only [base_iteEq, base_writeTable, base_tryCommit, base_stageTable, base_dropPermit, base_gateRefuse, base_set,
      base_gate, ite_self]

theorem base_applyDesc (d : Dev) (r : RxDescInit) : (applyDesc d r).base = d.base := by simp only [applyDesc, base_setDesc]

theorem base_applyDescSection (old : Option Package) (pkg : Package) (boot : Bool) (d : Dev) (c : Nat) :
    (applyDescSection old pkg boot d c).base = d.base := by
  simp only [applyDescSection, base_iteEq, base_forEach _ _ base_applyDesc, base_modChan, base_setW, base_set, ite_self]

theorem base_applyNodes (pkg : Package) (d : Dev) (c : Nat) : (applyNodes pkg d c).base = d.base := by
  unfold applyNodes
  dsimp only
  rw [base_forEach _ _ (fun _ _ => by simp only [base_modChan, base_setBit, base_set]), base_modChan]

theorem base_applySvcRange (pkg : Package) (d : Dev) (c : Nat) : (applySvcRange pkg d c).base = d.base := by
  simp only [applySvcRange, base_set]

theorem base_markGranules (d : Dev) : (markGranules d).base = d.base := base_forEach _ _ (fun _ _ => by simp only [base_setBit]) d

/-- A package that takes force leaves the base alone. -/
theorem base_takeForce (d : Dev) (old : Option Package) (pkg : Package) (area : Option Nat) (boot : Bool) :
    (takeForce d old pkg area boot).base = d.base := by
  unfold takeForce
  dsimp only
  rw [base_applyGate, base_markGranules]
  have hc (e : Dev) : (e.forEach e.chanList
      (fun d c => applySvcRange pkg (applyNodes pkg (applyDescSection old pkg boot d c) c) c)).base = e.base :=
    base_forEach _ _ (fun d c => by rw [base_applySvcRange, base_applyNodes, base_applyDescSection]) e
  have hp : (d.forEach pkg.regs (fun d e => applyPair boot d e.1 e.2.toNat)).base = d.base :=
    base_forEach _ _ (fun d e => base_applyPair boot d _ _) d
  simp only [base_iteEq, base_svc, hc, ite_self]
  cases area with
  | none => exact hp
  | some a => exact (base_forEach _ _ (fun _ _ => base_setW _ _ _) _).trans hp

theorem base_expand (d : Dev) (pkg : Package) (a : Nat) : (expand d pkg a).base = d.base := by
  unfold expand clearMem
  dsimp only
  rw [base_forEach _ _ (fun _ _ => base_setMemB _ _ _), base_forEach _ _ (fun _ _ => base_setMemB _ _ _), base_mem]

theorem base_setRoles (d : Dev) (x y z : Option Package) (l : List Nat) (m : List (Option Nat)) :
    (setRoles d x y z l m).base = d.base := base_modFlash d _

theorem base_enablePage (d : Dev) (p : Nat) : (enablePage d p).base = d.base := by
  simp only [enablePage, waitAfter, base_iteEq, base_modChan, base_set, ite_self]

theorem base_bootPackage (d : Dev) (pkg : Package) (prev : Option Package) : (bootPackage d pkg prev).base = d.base := by
  unfold bootPackage
  dsimp only
  rw [base_forEach _ _ base_enablePage, base_takeForce, base_modFlash]
  cases prev with
  | none => exact base_expand d pkg 0
  | some p => exact (base_expand _ p 1).trans (base_expand d pkg 0)

theorem base_bootReturn (d : Dev) : (bootReturn d).base = d.base := by
  unfold bootReturn
  split
  · simp only [base_raise, recordReturn, base_ist, base_inc, base_setW]
  · simp only [base_raise, recordReturn, countCommit, lastErr, base_ist, base_inc, base_setW, base_set, base_setRoles]

/-- Step 6 of R471 leaves the base alone. -/
theorem base_bootPackages (o : Otp) (d : Dev) (probation : Bool) : (bootPackages o d probation).base = d.base := by
  have h0 : (if probation = true then bootReturn d else d).base = d.base := base_ite _ _ _ _ (base_bootReturn d) rfl
  unfold bootPackages
  dsimp only
  generalize (if probation = true then bootReturn d else d) = e at h0 ⊢
  split
  · simp only [base_iteEq, base_bootPackage, h0]
    split
    · rfl
    · split <;> simp only [base_iteEq, base_bootPackage, base_setRoles, base_raise, base_set, h0, ite_self]
  · split <;> simp only [base_iteEq, base_bootPackage, base_setRoles, base_raise, base_set, h0, ite_self]

theorem base_certStart (d : Dev) : (certStart d).base = d.base := by
  unfold certStart
  split
  · exact base_forEach _ _ (fun _ _ => base_setBit _ _ _ _) d
  · rfl

/-- What equal bases say, field by field. -/
theorem base_fields {d e : Dev} (h : d.base = e.base) :
    d.part = e.part ∧ d.straps = e.straps ∧ d.cert = e.cert ∧ d.aon = e.aon ∧ d.bell = e.bell ∧ d.pwr = e.pwr := by
  simpa [Dev.base] using h

@[simp] theorem cutRecord_pwr (d : Dev) : (cutRecord d).pwr = d.pwr := by unfold cutRecord; split <;> rfl
@[simp] theorem cutRecord_out (d : Dev) : (cutRecord d).out = d.out := by unfold cutRecord; split <;> rfl
@[simp] theorem cutRecord_fresh (d : Dev) : (cutRecord d).fresh = d.fresh := by unfold cutRecord; split <;> rfl

/-- What a cleared part holds. -/
theorem clearDev_fields (o : Otp) (d : Dev) (st : Straps) (aon : Aon) :
    (clearDev o d st aon).part = o.variant ∧ (clearDev o d st aon).straps = st ∧ (clearDev o d st aon).cert = o.cert
      ∧ (clearDev o d st aon).aon = aon ∧ (clearDev o d st aon).bell = Dev.reset.bell ∧ (clearDev o d st aon).regs = []
      ∧ (clearDev o d st aon).pwr = { d.pwr with recorded := d.pwr.gasp, returned := none, src := loadInput d.pwr st,
                                                 gasp := d.pwr.gasp && !d.pwr.inA && !d.pwr.inB } := by
  simp [clearDev, Dev.reset]

/-- What the start-up does to the base: with device time kept, the learned rate and the bell of the holdover. -/
theorem startUp_base (o : Otp) (d : Dev) (probation : Bool) :
    (startUp o d probation).base =
      (d.part, d.straps, d.cert, (if d.aon.set then { d.aon with rate := d.aon.learned } else d.aon),
       (if d.aon.set then { d.bell with next := d.nowNs + 2000000 } else d.bell), d.pwr) := by
  unfold startUp
  dsimp only
  rw [base_certStart, base_bootPackages, base_loadVault]
  have hb : ((d.setB PWR_CFG_VAUXEN d.straps.vaux).forEach (List.range 6)
      (fun d r => d.set (PWR_RAIL_INREG r) 1)).base = d.base := by
    rw [base_forEach _ _ (fun _ _ => base_set _ _ _), base_setB]
  generalize (d.setB PWR_CFG_VAUXEN d.straps.vaux).forEach (List.range 6)
    (fun d r => d.set (PWR_RAIL_INREG r) 1) = e at hb ⊢
  have h := base_fields hb
  by_cases hs : d.aon.set = true
  · simp [Dev.base, h, hs, Dev.nowNs, Dev.set, Dev.setW]
  · simp [Dev.base, h, hs]

/-- The same, field by field. -/
theorem startUp_fields (o : Otp) (d : Dev) (probation : Bool) :
    (startUp o d probation).part = d.part ∧ (startUp o d probation).straps = d.straps
      ∧ (startUp o d probation).cert = d.cert
      ∧ (startUp o d probation).aon = (if d.aon.set then { d.aon with rate := d.aon.learned } else d.aon)
      ∧ (startUp o d probation).bell = (if d.aon.set then { d.bell with next := d.nowNs + 2000000 } else d.bell)
      ∧ (startUp o d probation).pwr = d.pwr := by
  simpa [Dev.base] using startUp_base o d probation

end Sys2Proof.Machine
end

