-- ==== Sys2Proof/WellFormed.lean ====
section
/-! DEFINITION. The well-formed commands: every operand lies in the range that the spec gives it, over the largest variant.
The machine runs every command, a well-formed one or not: what is not populated or not in range has the effect that the
rules give it there. -/

namespace Sys2Proof

/-- A channel number of the largest variant (R1). -/
def wfChan (c : Nat) : Bool := c < 64

/-- A number of a register page slot (R34). -/
def wfPage (p : Nat) : Bool := p < 512

/-- A host session number (R269). -/
def wfSes (n : Nat) : Bool := n < 8

/-- A node number of a station on a segment: node 0 is the head (R100). -/
def wfNode (a : Nat) : Bool := 1 ≤ a && a < 32

/-- A message buffer descriptor index (R288). -/
def wfIdx (i : Nat) : Bool := i < 16384

/-- The fields of a frame lie in their widths (R100). -/
def wfFrame (f : RxFrame) : Bool :=
  f.c < 8 && f.mid < 2 ^ 22 && f.src < 32 && f.ft < 8 && f.len < 1024 && f.seq < 2 ^ 16 && f.hcrc < 2 ^ 16
    && f.crc < 2 ^ 32 && f.payload.length == f.len

/-- An initiator that exists (R24, R425). -/
def wfWho : Who → Bool
  | .steward n _ => n < 4
  | .session n => n < 8
  | .mill m => m < 9
  | .bootRom => true
  | .vigil => true
  | .security => true

/-- The header of a URT message, and what of its frame the part looks at, lie in their widths (R47, R57, R271). -/
def wfUrt (u : UrtHdr) : Bool :=
  u.ver < 16 && u.sess < 256 && u.xid < 2 ^ 16 && u.count < 2 ^ 16 && u.mac < 2 ^ 48 && u.prp < 2 ^ 16 && u.an < 4 && u.pn < 2 ^ 32

/-- The fields of a PXM header lie in their widths, and its data in the limit (R57, R267). -/
def wfFrag (f : PxmFrag) : Bool :=
  f.mac < 2 ^ 48 && f.prp < 2 ^ 16 && f.ver < 16 && f.type < 16 && f.frag < 16 && f.nfrag < 16 && f.sess < 256 && f.reason < 256
    && f.xid < 2 ^ 16 && f.total < 2 ^ 16 && f.offset < 2 ^ 16 && f.rsvd < 2 ^ 16 && f.data.length ≤ 1400

/-- A heartbeat lies in its widths (R445). -/
def wfHb (f : HbFrame) : Bool := f.tick < 2 ^ 24 && f.recs.all (fun r => wfChan r.ch && wfIdx r.idx && r.outcome < 3)

/-- The fields of a gPTP Sync lie in their widths (R344). -/
def wfSync (m : SyncMsg) : Bool := m.sec < 2 ^ 48 && m.ns < 1000000000

/-- An address of the address map fits in 32 bits (R33). -/
def wfAddr (a : Nat) : Bool := a < 2 ^ 32

/-- The operands of the command lie in their ranges. -/
def wellFormed (i : Instr) : Bool :=
  match i with
  | .powerOnReset _ => true
  | .rstN _ => true
  | .deviceReset w _ _ => wfWho w
  | .tapInstruction _ _ => true
  | .thermalTrip => true
  | .thermalRecovery _ => true
  | .inputLost a b => a || b
  | .lastGaspRecord => true
  | .holdExhausted => true
  | .inputReturn _ _ => true
  | .revert => true
  | .holdLow cap => cap < 2 ^ 16
  | .vauxOc => true
  | .vauxRetry => true
  | .vauxSwitch w _ => wfWho w
  | .railDev r => r < 6
  | .registerWrite w a _ => wfWho w && wfAddr a
  | .blockEnable w p _ => wfWho w && wfPage p
  | .blockSoftReset w p => wfWho w && wfPage p
  | .freeze w p _ => wfWho w && wfPage p
  | .interruptForce w p _ => wfWho w && wfPage p
  | .faultForce w p _ => wfWho w && wfPage p
  | .faultAck w p => wfWho w && wfPage p
  | .escalationTimerExpiry p => wfPage p
  | .shadowEnd p => wfPage p
  | .quietPeriodEnd p => wfPage p
  | .safeStateAbdication => true
  | .faultPinPulseEnd k => k < 4
  | .read u a => wfUrt u && wfAddr a
  | .write u a _ => wfUrt u && wfAddr a
  | .bread u a => wfUrt u && wfAddr a
  | .bwrite u a data => wfUrt u && wfAddr a && data.length ≤ 256
  | .evack u seq => wfUrt u && seq < 2 ^ 32
  | .ping u => wfUrt u
  | .event n k => wfSes n && k ≤ 64
  | .eventResend n => wfSes n
  | .linkUp _ => true
  | .linkDown _ => true
  | .pxmFragment f => wfFrag f
  | .pxmTimeout _ mac xid => mac < 2 ^ 48 && xid < 2 ^ 16
  | .hello => true
  | .accept => true
  | .commission => true
  | .sessionOpenTimeout n => wfSes n
  | .sessionLiveTimeout n => wfSes n
  | .sessionExpiry n => wfSes n
  | .penClose w _ => wfWho w
  | .keyIndexRollover n _ _ => wfSes n
  | .oldSakRetire n _ => wfSes n
  | .penOpgo w len rsvd => wfWho w && len < 2 ^ 13 && rsvd < 2 ^ 19
  | .arm => true
  | .rollback => true
  | .enroll => true
  | .revoke => true
  | .rekey => true
  | .unfence => true
  | .release => true
  | .gate => true
  | .debug => true
  | .floor => true
  | .authrev => true
  | .authadd => true
  | .certify => true
  | .rngHealth _ => true
  | .rngRecovery => true
  | .cfgLoadFirst w len rsvd => wfWho w && len < 2 ^ 17 && rsvd < 2 ^ 14
  | .cfgLoad w len => wfWho w && len < 2 ^ 17
  | .chunkAppended _ => true
  | .verify w => wfWho w
  | .verifyComplete => true
  | .disarm w => wfWho w
  | .erase w => wfWho w
  | .commitPoint l => l.bells.all (fun x => wfChan x.ch) && l.between.all wfChan
  | .roleRecordWrite => true
  | .probationEnd => true
  | .sesswaitExpiry => true
  | .returnPkg => true
  | .manualReturn => true
  | .lateBell lag l => 0 < lag && wfChan l.ch
  | .bellMissed c => wfChan c
  | .frameAttempt c t => wfChan c && t.sof ≤ t.fin
  | .oneShotExpiry c i => wfChan c && wfIdx i
  | .timedOutputMissed h => h < 4096
  | .txdTimeout c => wfChan c
  | .frameReception c f => wfChan c && wfFrame f
  | .framePlacement c => wfChan c.ch
  | .transmitCopy c i => wfChan c && wfIdx i.idx
  | .tickBoundWork c => wfChan c
  | .push w c i => wfWho w && wfChan c && wfIdx i
  | .abort w c i => wfWho w && wfChan c && wfIdx i
  | .abortAll w c => wfWho w && wfChan c
  | .rxrel w c i n => wfWho w && wfChan c && wfIdx i && n < 256
  | .pfpop w h n => wfWho w && h < 8 && n < 128
  | .boctlRestart w c => wfWho w && wfChan c
  | .rclr w c => wfWho w && wfChan c
  | .busOffRecovery c => wfChan c
  | .recessiveBitsSampled c => wfChan c
  | .stuckDom c => wfChan c
  | .stuckEnd c _ => wfChan c
  | .autoUnfence c a => wfChan c && wfNode a
  | .lockstepMismatch m port x => m < 9 && port < 5 && x.ch < 8 && x.more.all (fun x => x.1 < 9 && x.2.1 < 5 && x.2.2 < 8)
  | .migrateGo w h => wfWho w && h < 8
  | .migrationComplete h _ => h < 8
  | .hamMigtime h => h < 8
  | .hamCtxmem h => h < 8
  | .bistStart w m => (match w with | some x => wfWho x | none => true) && m < 9
  | .bistComplete m _ => m < 9
  | .epochChangeStart c _ => wfChan c
  | .keyLifeExpiry c => wfChan c
  | .keyUseCheck c => wfChan c
  | .keyGen c => wfChan c
  | .epochDeadline c => wfChan c
  | .oldKeyErase c => wfChan c
  | .keyFramePush c a i => wfChan c && wfNode a && wfIdx i
  | .servicesTickWork => true
  | .timedOutputRequest w n _ => wfWho w && wfSes n
  | .tocan w _ => wfWho w
  | .soerel w n => wfWho w && n < 2 ^ 16
  | .swdb w src => wfWho w && src < 1024
  | .sourceMask w n _ => wfWho w && n < 1024
  | .delivery n => n < 1023
  | .claim w t src tag => wfWho w && t < 12 && src < 1024 && tag < 16
  | .complete w t src => wfWho w && t < 12 && src < 1024
  | .retraction t => t < 4
  | .coalescingRelease g => g < 64
  | .gateCommit w => wfWho w
  | .gateDrainComplete => true
  | .bslackRestart w => wfWho w
  | .devTickloRead w => wfWho w
  | .timeNowloRead w => wfWho w
  | .sync _ m => wfSync m.msg && m.also.all wfSync
  | .announce _ gm x => gm < 2 ^ 64 && x.utc < 2 ^ 16 && x.steps < 2 ^ 16
  | .pdelayReq _ => true
  | .pdelaySend _ => true
  | .syncTimeout _ _ => true
  | .timeHoldlim => true
  | .curfewCall c => wfChan c
  | .curfewCommit c => wfChan c
  | .sleep c => wfChan c
  | .wakePattern c => wfChan c
  | .falseWake c => wfChan c
  | .curctlWake w c => wfWho w && wfChan c
  | .vetoSet w c => wfWho w && wfChan c
  | .vetoClear w c => wfWho w && wfChan c
  | .vigilEntry => true
  | .vigilExit _ _ _ => true
  | .hbSend => true
  | .hbReceived f => wfHb f
  | .hbMissed => true
  | .takeover => true
  | .abdicateFrame => true
  | .abdicate w => wfWho w
  | .startTimeout => true
  | .twinLinkUp => true
  | .pair _ => true
  | .delta _ => true
  | .bulk _ => true
  | .twinRekey => true
  | .joinTimeout => true
  | .uplinkFrameDiscard _ _ => true
  | .unknownOp u op => wfUrt u && op < 16
  | .sessionLivenessLost n => wfSes n
  | .pdelayResp _ _ _ => true
  | .holdCharged cap => cap < 2 ^ 16
  | .inputValid _ => true
  | .railReturn r => r < 6
  | .debugPortClose => true
  | .twinLinkDown => true
  | .headshipLow => true
  | .vigilEntryComplete => true

end Sys2Proof
end

