-- ==== Sys2Proof/Tests/Slice0.lean ====
section
/-! SUPPORT. Tests: commands that are not well formed, words and values worked out from the spec by hand, and, for each
obligation with hypotheses, a state and operands that meet the hypotheses of each of its clauses. -/

set_option Elab.async false

namespace Sys2Proof.Tests

open Sys2Proof Sys2Proof.Machine

/-! ## The states of the tests -/

/-- The straps of the tests. -/
def st0 : Straps := ⟨true, true, false, false⟩
/-- The part after reset, changed. -/
def on (f : Dev → Dev) : State := State.reset.put (f State.reset.dev)
/-- A steward at level K, which the gates of reset let pass. -/
def k0 : Who := .steward 0 .k
/-- A session whose scope is everything, open. -/
def allScope : Scope := ⟨.s, BitVec.allOnes 64, BitVec.allOnes 512, [(0, 0x3FFFFF)], 0x3F#32⟩
def ses0 (d : Dev) : Dev := d.modSes 0 (fun x => { x with st := .opened, live := true, scope := allScope, notAfter := 4000000000 })

/-- A URT header of session 0 on uplink A, with `n` data words. -/
def hdr (n : Nat) : UrtHdr := ⟨.a, 0x1122, 7, some 0, 0, 1, 1, 0, 0x33, n⟩
/-- Session 0 is open and uplink A is up. -/
def urt0 (d : Dev) : Dev := { ses0 d with ups := [⟨true⟩, ⟨false⟩] }
/-- The bell block in tick `n`, at the instant 5 ms, with a period of 1 ms. -/
def bell0 (n : Nat) : BellSy := ⟨n, true, 5000000, 4000000, 2498000, 6000000, false, 1000000, 0, []⟩
/-- Channel 0 runs under a head in tick 5, its bell sent: scheduled window to 200 us, arbitrated window to 900 us. -/
def seg0 (d : Dev) : Dev :=
  let d := ((d.set (PG_CTL_EN 0x100) 1).set (PG_CTL_EN 0x101) 1).set (PG_CTL_EN 0x102) 1
  let d := (((d.set (PG_CTL_EN 0x103) 1).set (CHC_WIN_SCHED_END 0) 200).set (CHC_WIN_ARB_END 0) 900).set TWIN_STAT_ROLE 1
  let d := ((d.set (HAM_MILL_MILL 0) 0).set (MILL_STAT_STATE 0) 1).set (MILL_STAT_HAM 0) 0
  let d := (d.setW (CHT_TXRANGE 0) (0x20 * 2 ^ 16 + 0x10)).setW (CHX_RXRANGE 0) (0x20 * 2 ^ 16 + 0x40)
  let d := { d with aon := { d.aon with set := true, time := 5000000 * nsUnits } }
  { (d.modChan 0 (fun x => { x with bell := .sent })) with bell := bell0 5 }
/-- The part stands just before the commit point of tick 6. -/
def evening (d : Dev) : Dev := { seg0 d with aon := { (seg0 d).aon with time := 5990000 * nsUnits } }

/-- Descriptor 0x20 of channel 0: priority queue, FT 1, class 5, MID 0x123, eight bytes, three retries, buffer at granule 0. -/
def desc0 (d : Dev) : Dev :=
  ((d.setDesc 0x20 0 (1 * 2 ^ 30 + 2 ^ 25 + 5 * 2 ^ 22 + 0x123)).setDesc 0x20 1 (3 * 2 ^ 28 + 8 * 2 ^ 16)).setDesc 0x20 2 0
/-- An entry for it in the queue. -/
def ent0 : TxEntry :=
  { idx := 0x20, qt := 1, c := 5, ec := 5, mid := 0x123, slot := 0, retry := 3, ntf := false, w := 0, att := 0, proms := 0, st := 1,
    copy := none, pushed := 0, since := 0, due := 0, owner := none, window := 0, handle := none, safe := false, keyFrame := false,
    aborting := false }
def q0 (e : TxEntry) (d : Dev) : Dev := (desc0 (seg0 d)).modChan 0 (fun x => { x with tx := [e] })
/-- A copy of the frame of descriptor 0x20. -/
def copy0 : TxCopy := ⟨word (1 * 2 ^ 30 + 2 ^ 25 + 5 * 2 ^ 22 + 0x123), word (3 * 2 ^ 28 + 8 * 2 ^ 16), List.replicate 8 0#8⟩
/-- The frame of descriptor 0x20 on the wire. -/
def wire0 : Wire := ⟨0x20, 5, 5, 1, 0x123, 1, false⟩
/-- A timed output that waits for its apply tick 6. -/
def out0 : TimedOut := ⟨5, 0, 0, 0x123, 6000000, 6, false, false, [], none, false⟩

/-- An untagged frame of node 3 with four bytes, on channel 0. -/
def frm0 : RxFrame :=
  { c := 5, mid := 0x123, src := 3, ft := 1, a := false, dps := true, len := 4, seq := 9,
    hcrc := hcrcOf (headBits 5 0x123 3 1 false true 4 9), payload := [1#8, 2#8, 3#8, 4#8], tag := 0#64,
    crc := crc32cOf (headBits 5 0x123 3 1 false true 4 9 ++ bitsMsb (hcrcOf (headBits 5 0x123 3 1 false true 4 9)) 16
      ++ byteBits [1#8, 2#8, 3#8, 4#8]),
    line := .clean, sof := 250000, eof7 := false, authDom := false, copiesDiffer := false }
/-- The same frame tagged under key `k` for tick 5. -/
def frm1 (k : BitVec 256) : RxFrame :=
  let head := headBits 5 0x123 3 1 true true 4 9
  let tag := tagOf k 5 0x123 3 1 true true 4 9 5 [1#8, 2#8, 3#8, 4#8]
  { frm0 with a := true, tag := tag, hcrc := hcrcOf head,
              crc := crc32cOf (head ++ bitsMsb (hcrcOf head) 16 ++ byteBits [1#8, 2#8, 3#8, 4#8] ++ bitsMsb tag.toNat 64) }
def key0 : EpKey := ⟨1, 0x0123456789ABCDEF#256, 0, false⟩
def keyed (d : Dev) : Dev := (seg0 d).modChan 0 (fun x => { x with cur := some key0 })
def held0 : Held :=
  { f := frm0, reason := 0, tick := 5, vtick := 5, sec := 0, ns := 5250000, epoch := 0, confirm := false, holdover := false,
    late := false, since := 0 }
/-- Receive descriptor 0x40 of channel 0: two slots of up to 64 bytes, buffer from granule 0, heads from 0x40000. -/
def rxd0 (w0 w3 : Nat) (d : Dev) : Dev :=
  (((seg0 d).setDesc 0x40 0 (w0 + 2 * 2 ^ 16 + 64)).setDesc 0x40 2 0x40000).setDesc 0x40 3 w3
/-- Channel 0 is bus-off. -/
def off0 (d : Dev) : Dev := ((seg0 d).set (CHS_TEC_STATE 0) 2).set (CHS_BOCFG_MODE 0) 0

/-- Source 1022 is enabled, S, towards steward 0, and raised. -/
def irq0 (d : Dev) : Dev :=
  let d := (d.set (INTC_SRC_EN 1022) 1).set (INTC_SRC_TMASK 1022) 1
  { d with intc := { d.intc with raises := [(1022, 1)] } }

/-- A small package of slot 0. -/
def pkg0 : Package :=
  { auth := 0, kmax := 1, version := 2, device := 0#128, compat := 0#384, total := 0x800000, fwver := 0, prob := 10, digest := 5#384,
    formOk := true, apkHash := 0#384, sigOk := true, expandOk := true, regs := [], hfilt := [], desc := [], nodes := [], maps := [],
    ents := [], svc := [], gate := none }
def staged0 (n : Nat) (d : Dev) : Dev :=
  { (ses0 d).set CFG_STAT_STAGED n with flash := { d.flash with staged := some pkg0 } }
/-- The first 128 bytes of a package of `n` bytes. -/
def head0 (n : Nat) : List Byte := List.replicate 80 0#8 ++ bytesOf n ++ List.replicate 44 0#8
/-- Session 0 loads a package of `n` bytes, and one chunk waits for flash. -/
def loading0 (l c : List Byte) (d : Dev) : Dev :=
  ((ses0 d).set CFG_STAT_STAGED 1).modCfg (fun x => { x with loading := l, chunks := [c], lsess := some 0 })
/-- A package whose slot is programmed and that fits the variant and the firmware. -/
def goodOtp : Otp := { Otp.reset with slots := putAt Otp.reset.slots 0 ⟨true, 0#384, false⟩ }
def pkg1 : Package := { pkg0 with compat := compatHash Dev.reset, fwver := 0x10000 }
def prob0 (d : Dev) : Dev := (seg0 d).set CFG_STAT_PROB 1

/-- The only fragment of a COMMISSION body of 48 bytes. -/
def frag0 : PxmFrag := ⟨.a, 0x1122, 7, 1, 5, 0, 0, 0xFF, 0, 3, 48, 0, 0, List.replicate 48 9#8⟩
/-- A session pennant that passes every check under `goodOtp` (the device identity is SHA-384 of no keys), valid from 0 to 4000000000. -/
def pen0 : Pennant :=
  { pver := 1, kind := 1, auth := 0, seq := 5, notBefore := 0, notAfter := 4000000000,
    device := 0x38b060a751ac96384cd9327eb1b1e36a#128, host := 8#384, opcode := 0,
    operand := .none, scope := allScope, formOk := true, apkHash := 0#384, sigOk := true }
def hello0 : Hello := ⟨pen0, 8#384, true, [], [], [], 0#384, 3⟩
def sec0 (f : SecSt → SecSt) (d : Dev) : Dev := { seg0 d with sec := f d.sec }
/-- An operation of opcode `code` from session 0 that passes every check under `goodOtp`. -/
def op0 (code : Nat) (x : Operand) : OpReq := ⟨0, { pen0 with kind := 2, opcode := code, operand := x }, 8#384⟩
def opState0 (code : Nat) (x : Operand) : State :=
  { on (sec0 (fun y => { y with ops := [op0 code x] })) with otp := goodOtp }

/-- The part is linked to its partner, in role `r`. -/
def twin0 (r : Nat) (d : Dev) : Dev := (((seg0 d).set TWIN_STAT_LINK 1).set TWIN_STAT_ROLE r).modTwin (fun t => { t with peer := some 1#128 })
def hb0 (head : Bool) : HbFrame := ⟨head, true, false, false, false, 5, [], false⟩
/-- A joining part in phase `n` of its synchronisation, with what has arrived so far. -/
def join0 (n : Nat) (a k x : Bool) (d : Dev) : Dev :=
  ((twin0 3 d).set TWIN_SYNC_PHASE n).modTwin (fun t => { t with gotActive := a, gotKeys := k, gotSnapshot := x, deltas := 2 })

/-! ## What decides that an access is admitted -/

/-- The words of a write ask for no push outside the scope of the session that writes them. -/
def pushOk (d : Dev) (w : Who) (a : Nat) (vals : List Nat) : Bool :=
  match w with
  | .session n => ((vals.zipIdx.map (fun x => (a + 4 * x.2, x.1))).findSome? (badPush d n)).isNone
  | _ => true

theorem admits_iff (s : State) (w : Who) (ty a : Nat) (vals : List Nat) :
    Admits s w ty a vals ↔
      s.dev.powered = true ∧ s.dev.get DEV_VIGSTAT_STATE ≠ 2 ∧ heldByDrain s.dev a 4 = false
        ∧ gateCheck s.dev w ty a 4 vals = none ∧ pushOk s.dev w a vals = true := by
  unfold Admits pushOk
  cases w <;> simp

/-- What holds of the channels that there are and of a channel after reset holds of every number. -/
theorem chan_all (p : Chan → Prop) (d : Dev) (n : Nat) (h : ∀ c, c < n → p (d.chan c)) (hl : d.chans.length = n) (h0 : p Chan.reset) :
    ∀ c, p (d.chan c) := by
  intro c
  rcases Nat.lt_or_ge c n with hc | hc
  · exact h c hc
  · have : ∀ (l : List Chan) (i : Nat), l.length ≤ i → elemAt Chan.reset l i = Chan.reset := by
      intro l
      induction l with
      | nil => intro i _; rfl
      | cons a l ih =>
        intro i hi
        cases i with
        | zero => simp at hi
        | succ i => exact ih i (by simpa using hi)
    have he : d.chan c = Chan.reset := this _ c (by omega)
    rw [he]
    exact h0


/-! ## Witnesses: the machine as a whole, power -/

theorem witness_StepRunsTheFrontCommand :
    ({ State.reset with pending := [.thermalTrip] } : State).pending = [.thermalTrip] ∧ State.reset.pending = [] := by
  decide +kernel

theorem witness_EveryStepKeepsMemoryCanonical :
    step State.reset = .next (passCycle State.reset) ∧ Memory.wf State.reset.dev.mem = true := ⟨rfl, rfl⟩

theorem witness_EveryStepOnlyBlowsFuses : step State.reset = .next (passCycle State.reset) := rfl

theorem witness_UnpoweredPartIgnoresOtherCommands :
    powerCommand .hbSend = false ∧ (on (fun d => d.modPwr (fun p => { p with off := true }))).dev.powered = false := by
  decide +kernel

theorem witness_PowerOnResetStartsAfresh :
    (State.reset.dev.pwr.tripped = false ∧ State.reset.dev.pwr.inA = true
      ∧ (restartFlash State.reset.dev.flash).active = none ∧ (restartFlash State.reset.dev.flash).previous = none)
    ∧ (on (fun d => d.modPwr (fun p => { p with tripped := true }))).dev.pwr.tripped = true
    ∧ { Otp.reset with idPub := [[1#8]] }.idPub ≠ [] := by decide +kernel

theorem witness_RestartKeepsDeviceTime :
    State.reset.dev.powered = true
    ∧ Admits (on ses0) (.session 0) 1 (regAddr 0 0x04C) [(0x800000D5#32).toNat]
    ∧ (bitOf (0x800000D5#32).toNat 31 = true ∧ bitsOf (0x800000D5#32).toNat 7 0 = 0xD5)
    ∧ Admits (on ses0) (.session 0) 1 (regAddr 0 0x04C) [(0x800000D4#32).toNat]
    ∧ ¬ (bitOf (0x800000D4#32).toNat 31 = true ∧ bitsOf (0x800000D4#32).toNat 7 0 = 0xD5)
    ∧ (let s := on (fun d => d.modPwr (fun p => { p with tapHold := true })); s.dev.pwr.off = false ∧ s.dev.pwr.tapHold = true)
    ∧ (let s := on (fun d => { d.modPwr (fun p => { p with tapHold := true }) with cert := true })
       s.dev.pwr.off = false ∧ s.dev.pwr.tapHold = true ∧ s.dev.cert = true)
    ∧ (State.reset.dev.powered = true ∧ State.reset.dev.cert = false)
    ∧ (let s := on (fun d => { d with cert := true }); s.dev.powered = true ∧ s.dev.cert = true) := by
  simp -zeta only [admits_iff]; decide +kernel

theorem witness_RailsOffAndThermalRecovery :
    State.reset.dev.pwr.off = false
    ∧ (on (fun d => d.modPwr (fun p => { p with gasp := true }))).dev.pwr.gasp = true
    ∧ (let s := on (fun d => d.modPwr (fun p => { p with off := true, tripped := true }))
       s.dev.pwr.tripped = true ∧ s.dev.pwr.inA = true) := by decide +kernel

theorem witness_InputsSwitchOverGaspAndRevert :
    (State.reset.dev.powered = true ∧ State.reset.dev.pwr.gasp = false ∧ State.reset.dev.pwr.inA = true
      ∧ State.reset.dev.pwr.inB = true ∧ State.reset.dev.pwr.src = 1)
    ∧ (let s := on (fun d => d.modPwr (fun p => { p with src := 2 }))
       s.dev.powered = true ∧ s.dev.pwr.gasp = false ∧ s.dev.pwr.inA = true ∧ s.dev.pwr.inB = true ∧ s.dev.pwr.src = 2)
    ∧ (let s := on (fun d => d.modPwr (fun p => { p with inB := false }))
       s.dev.powered = true ∧ s.dev.pwr.gasp = false ∧ s.dev.pwr.inA = true ∧ s.dev.pwr.inB = false)
    ∧ (let s := on (fun d => (d.set PWR_CFG_REVERT 1).modPwr (fun p => { p with src := 2 }))
       s.dev.pwr.off = false ∧ s.dev.pwr.gasp = false ∧ s.dev.get PWR_CFG_REVERT = 1
         ∧ s.dev.pwr.has (mainInput s.dev.straps) = true ∧ s.dev.pwr.src ≠ (mainInput s.dev.straps).num + 1)
    ∧ (on (fun d => d.set PWR_CFG_REVERT 0)).dev.get PWR_CFG_REVERT = 0 := by decide +kernel

theorem witness_LastGaspRecordAndReturn :
    (let s := on (fun d => d.modPwr (fun p => { p with gasp := true }))
     s.dev.powered = true ∧ s.dev.pwr.gasp = true ∧ s.dev.pwr.recorded = false ∧ s.dev.pwr.returned = none)
    ∧ (let s := on (fun d => d.modPwr (fun p => { p with gasp := true, recorded := true }))
       s.dev.powered = true ∧ s.dev.pwr.gasp = true ∧ s.dev.pwr.recorded = true) := by decide +kernel

theorem witness_HoldVauxAndRails :
    (State.reset.dev.powered = true ∧ 200 ≤ 200)
    ∧ (on (fun d => d.set PWR_STAT_VAUXON 1)).dev.get PWR_STAT_VAUXON = 1
    ∧ (let s := on (fun d => d.set PWR_CFG_VAUXEN 1)
       s.dev.powered = true ∧ s.dev.get PWR_CFG_VAUXEN = 1 ∧ s.dev.get PWR_STAT_VAUXON = 0 ∧ s.dev.pwr.gasp = false)
    ∧ (Admits State.reset k0 1 (regAddr 8 0x044) [putBit (State.reset.dev.pendingW PWR_CFG) 30 true]
       ∧ State.reset.dev.pwr.gasp = false ∧ State.reset.dev.get PWR_CFG_VAUXEN ≠ b2n true)
    ∧ (let s := on (fun d => d.forEach (List.range 5) (fun d r => d.set (PWR_RAIL_INREG r) 1))
       ∀ q, q < 6 → q ≠ 5 → s.dev.get (PWR_RAIL_INREG q) = 1) := by
  simp -zeta only [admits_iff]; decide +kernel

/-! ## Witnesses: register pages and faults -/

theorem witness_HeaderControlWrites :
    (populated State.reset.dev.part 0x100 = true
      ∧ Admits State.reset k0 1 (regAddr 0x100 0x004) [ctlWith State.reset.dev 0x100 0 true]
      ∧ State.reset.dev.get (PG_CTL_EN 0x100) = 0 ∧ pageChan 0x100 < State.reset.dev.chans.length)
    ∧ (Admits State.reset k0 1 (regAddr 0x1FF 0x004) [ctlWith State.reset.dev 0x1FF 2 true]
      ∧ State.reset.dev.get (PG_CTL_FREEZE 0x1FF) = 0
      ∧ Admits State.reset k0 1 (regAddr 0x1FF 0x004) [ctlWith State.reset.dev 0x1FF 2 false])
    ∧ (Admits State.reset k0 1 (regAddr 0x103 0x004) [ctlWith State.reset.dev 0x103 1 true]
      ∧ State.reset.dev.get (PG_ESC_SHADOW 0x103) ≠ 0 ∧ State.reset.dev.page 0x103 = PageX.reset)
    ∧ (let s := on (fun d => { d with frozen := [(0x103, snapshot Otp.reset d 0x103)] })
       (findKey 0x103 s.dev.frozen).isSome = true ∧ (regRow 0x103 0x040).isSome = true
         ∧ (findKey (rkey 0x103 0x040) (snapshot Otp.reset Dev.reset 0x103)).isSome = true) := by
  simp -zeta only [admits_iff]; decide +kernel

theorem witness_HeaderForceAndAck :
    (populated State.reset.dev.part 0x40 = true ∧ Admits State.reset k0 1 (regAddr 0x40 0x018) [(0x80000000#32).toNat])
    ∧ Admits State.reset k0 1 (regAddr 0x40 0x024) [(1#32).toNat]
    ∧ Admits State.reset k0 1 (regAddr 0x40 0x028) [1] := by
  simp -zeta only [admits_iff]; decide +kernel

theorem witness_FirstCauseIsRecorded :
    (faultOf 0x103 0 = some (0x70, 2) ∧ populated Dev.reset.part 0x103 = true ∧ Dev.reset.get (PG_FLT_VALID 0x103) = 0)
    ∧ (Dev.reset.set (PG_FLT_VALID 0x103) 1).get (PG_FLT_VALID 0x103) ≠ 0 := by decide +kernel

theorem witness_EscalationTimerRule :
    (Dev.reset.page 0x103).timer = none
    ∧ (let d := Dev.reset.modPage 0x103 (fun x => { x with timer := some 500, timerSrc := 1 })
       (d.page 0x103).timer = some 500 ∧ 1 = (d.page 0x103).timerSrc ∧ 0 ≠ (d.page 0x103).timerSrc) := by decide +kernel

theorem witness_TimerExpiryIsTheLevelOneReaction :
    (let s := on (fun d => d.modPage 0x103 (fun x => { x with timer := some 500 }))
     s.dev.powered = true ∧ (s.dev.page 0x103).timer = some 500 ∧ s.dev.get (PG_ESC_LIMIT 0x103) ≠ 0
       ∧ (s.dev.page 0x103).latched = false ∧ (s.dev.page 0x103).shadow = none ∧ s.dev.get (PG_ESC_SHADOW 0x103) ≠ 0)
    ∧ (State.reset.dev.page 0x103).timer = none
    ∧ (let s := on (fun d => (d.modPage 0x103 (fun x => { x with timer := some 500 })).set (PG_ESC_LIMIT 0x103) 0)
       s.dev.powered = true ∧ (s.dev.page 0x103).timer = some 500 ∧ s.dev.get (PG_ESC_LIMIT 0x103) = 0) := by decide +kernel

theorem witness_ShadowQuietAndPulseEnds :
    (let s := on (fun d => d.modPage 0x103 (fun x => { x with shadow := some 7 }))
     s.dev.powered = true ∧ (s.dev.page 0x103).shadow = some 7 ∧ (s.dev.page 0x103).quietDue ≠ 1)
    ∧ (let s := on (fun d => d.modPage 0x103 (fun x => { x with shadow := some 7, quietDue := 1 }))
       s.dev.powered = true ∧ (s.dev.page 0x103).shadow = some 7 ∧ (s.dev.page 0x103).quietDue = 1
         ∧ s.dev.get (PG_QUIET_QUIET 0x103) ≠ 0)
    ∧ (let s := on (fun d => d.modPage 0x103 (fun x => { x with quiet := some 0 }))
       s.dev.powered = true ∧ (s.dev.page 0x103).quiet = some 0 ∧ 0 ≤ s.dev.tick ∧ (0x103 < 0x80 ∨ 0x90 ≤ 0x103)
         ∧ s.dev.get (PG_RCNT_COUNT 0x103) < s.dev.get (PG_QUIET_RLIM 0x103))
    ∧ (let s := on (fun d => (d.modPage 0x103 (fun x => { x with quiet := some 0 })).set (PG_RCNT_COUNT 0x103) 254)
       s.dev.powered = true ∧ (s.dev.page 0x103).quiet = some 0
         ∧ s.dev.get (PG_QUIET_RLIM 0x103) ≤ s.dev.get (PG_RCNT_COUNT 0x103) ∧ s.dev.get (PG_RCNT_COUNT 0x103) < 255)
    ∧ (let s := on (fun d => d.modPage 0x103 (fun x => { x with quiet := some 1 }))
       (s.dev.page 0x103).quiet = some 1 ∧ s.dev.tick < 1)
    ∧ (let s := on (fun d => { d with pins := ⟨[false, true, false, false], [0, 9, 0, 0], true⟩ })
       s.dev.powered = true ∧ elemAt false s.dev.pins.pulse 1 = true ∧ elemAt false s.dev.pins.pulse 2 = false)
    ∧ (let s := on (fun d => d.modPage 0x100 (fun x => { x with shadow := some 7, resetting := true }))
       (s.dev.page 0x100).shadow = some 7 ∧ (s.dev.page 0x100).quietDue ≠ 1 ∧ (s.dev.page 0x100).resetting = true) := by decide +kernel

/-- No channel of the reset state has a transmit entry. -/
theorem reset_no_entries : ∀ c, Dev.reset.hasChan c = true →
    (Dev.reset.chan c).tx = [] ∧ Dev.reset.get (CHT_SAFE_CNT c) = 0 := by
  intro c h
  have hc : c < 64 := of_decide_eq_true h
  have hall : ∀ c < 64, (Dev.reset.chan c).tx = [] ∧ Dev.reset.get (CHT_SAFE_CNT c) = 0 := by decide +kernel
  exact hall c hc

theorem witness_SafeStateEntryRefusalAndAbdication :
    Dev.reset.get DEV_SAFE_ACTIVE ≠ 1 ∧ (Dev.reset.setW DEV_SAFE (2 ^ 31)).get DEV_SAFE_ACTIVE = 1
    ∧ (let s := on (fun d => ((((d.setW DEV_SAFE (2 ^ 31)).set TWIN_STAT_LINK 1).set TWIN_STAT_PREADY 1).set TWIN_STAT_ROLE 1).set
          DEV_SAFE_TICK 0xFFFE)
       s.dev.powered = true ∧ s.dev.get DEV_SAFE_ACTIVE = 1 ∧ s.dev.get DEV_SAFE_ABD = 0 ∧ s.dev.isHead = true
         ∧ s.dev.get TWIN_STAT_LINK = 1 ∧ s.dev.get TWIN_STAT_PREADY = 1
         ∧ 2 ≤ (s.dev.tick16 + 65536 - s.dev.get DEV_SAFE_TICK) % 65536)
    ∧ (let d := (Dev.reset.setW DEV_SAFE (2 ^ 31)).setW (CHT_TXRANGE 0) (0x20 * 2 ^ 16 + 0x10)
       let src : PushSrc := ⟨none, none, false, false⟩
       d.get DEV_SAFE_ACTIVE = 1 ∧ src.safe = false ∧ src.key = false ∧ inRange d 0 0x10 src.handle.isSome = true) := by
  decide +kernel


/-! ## Witnesses: the uplink register transport and the gates -/

theorem witness_ValidMessagesOnlyAreTaken :
    (let d := (on urt0).dev
     d.upOk (hdr 0).side.num = true ∧ (macsecTake d (hdr 0)).isSome = true ∧ firstCopy d (hdr 0).mac (hdr 0).prp = true
       ∧ urtValid d (hdr 0) = true
       ∧ (hdr 0).sess < d.sess.length)
    ∧ (let s := on (fun d => { urt0 d with seen := [(0x1122, 7, 0)] })
       s.dev.powered = true ∧ s.dev.upOk (hdr 0).side.num = true ∧ (macsecTake s.dev (hdr 0)).isSome = true
         ∧ firstCopy s.dev (hdr 0).mac (hdr 0).prp = false)
    ∧ (let s := on urt0
       s.dev.powered = true ∧ macsecTake s.dev { hdr 0 with pn := 0 } = none ∧ macsecTake s.dev { hdr 0 with an := 3 } = none)
    ∧ (let s := on urt0
       let u := { hdr 0 with assoc := some 1 }
       s.dev.powered = true ∧ s.dev.upOk u.side.num = true ∧ (macsecTake s.dev u).isSome = true
         ∧ firstCopy s.dev u.mac u.prp = true ∧ u.assoc ≠ some u.sess)
    ∧ (let s := on urt0
       let u := { hdr 0 with ver := 2 }
       (macsecTake s.dev u).isSome = true ∧ firstCopy s.dev u.mac u.prp = true ∧ u.ver ≠ 1)
    ∧ (let s := on urt0
       let u := { hdr 0 with assoc := some 1, sess := 1 }
       (macsecTake s.dev u).isSome = true ∧ u.assoc = some u.sess ∧ (s.dev.ses u.sess).st = .free) := by
  decide +kernel

theorem witness_ReadsAnswerTheWords :
    (UrtTaken (on urt0) (hdr 0) ∧ (hdr 0).count = 0 ∧ 0xFFFFFC + 4 ≤ 0x1000000
      ∧ heldByDrain (urtArrive (on urt0).dev (hdr 0)).1 0xFFFFFC 4 = false
      ∧ gateCheck (urtArrive (on urt0).dev (hdr 0)).1 (.session 0) 0 0x400000 4 [] = none)
    ∧ (UrtTaken (on urt0) (hdr 256)
      ∧ heldByDrain (urtArrive (on urt0).dev (hdr 256)).1 0x400000 (4 * 256) = false
      ∧ gateCheck (urtArrive (on urt0).dev (hdr 256)).1 (.session 0) 0 0x400000 (4 * 256) [] = none)
    ∧ (populated (on urt0).dev.part 0x1FF = true ∧ heldByDrain (urtArrive (on urt0).dev (hdr 0)).1 (regAddr 0x1FF 0xFFC) 4 = false
      ∧ gateCheck (urtArrive (on urt0).dev (hdr 0)).1 (.session 0) 0 (regAddr 0x1FF 0xFFC) 4 [] = none) := by
  unfold UrtTaken; decide +kernel

theorem witness_WritesStoreTheWords :
    (UrtTaken (on urt0) (hdr 1) ∧ (hdr 1).count = 1 ∧ heldByDrain (urtArrive (on urt0).dev (hdr 1)).1 0x400000 4 = false
      ∧ gateCheck (urtArrive (on urt0).dev (hdr 1)).1 (.session 0) 1 0x400000 4 [(0x12345678#32).toNat] = none)
    ∧ (UrtTaken (on urt0) (hdr 2) ∧ (hdr 2).count = [1#32, 2#32].length
      ∧ heldByDrain (urtArrive (on urt0).dev (hdr 2)).1 0x9FFFF8 8 = false
      ∧ gateCheck (urtArrive (on urt0).dev (hdr 2)).1 (.session 0) 1 0x9FFFF8 8 ([1#32, 2#32].map BitVec.toNat) = none) := by
  unfold UrtTaken; decide +kernel

theorem witness_RegisterWritesFollowTheAccessCodes :
    (Admits State.reset k0 1 (regAddr 0x100 0x014) [(1#32).toNat] ∧ populated State.reset.dev.part 0x100 = true
      ∧ (regRow 0x100 0x014).isSome = true)
    ∧ (Admits State.reset k0 1 (regAddr 0x100 0xFFC) [(1#32).toNat] ∧ regRow 0x100 0xFFC = none)
    ∧ Admits State.reset k0 1 0x400000 [(1#32).toNat]
    ∧ ((regRow 0x100 0x014).isSome = true ∧ liveBlocked Dev.reset 0x100 0x014 1 = false) := by
  simp -zeta only [admits_iff]; decide +kernel

theorem witness_RegisterWritesFollowTheAccessCodes_plain : ∀ x, heldAs 0x100 0x014 x = x := by
  intro x; rfl

theorem witness_RefusedAccessesAreRecordedAlone :
    (UrtTaken (on urt0) (hdr 1)
      ∧ heldByDrain (urtArrive (on urt0).dev (hdr 1)).1 0x18000000 4 = false
      ∧ gateCheck (urtArrive (on urt0).dev (hdr 1)).1 (.session 0) 1 0x18000000 4 [(1#32).toNat] = some (1, 0x18000000))
    ∧ (UrtTaken (on urt0) (hdr 0) ∧ heldByDrain (urtArrive (on urt0).dev (hdr 0)).1 0x18000000 4 = false
      ∧ gateCheck (urtArrive (on urt0).dev (hdr 0)).1 (.session 0) 0 0x18000000 4 [] = some (1, 0x18000000))
    ∧ (State.reset.dev.get DEV_VIGSTAT_STATE ≠ 2 ∧ heldByDrain State.reset.dev 0x18000000 4 = false
      ∧ gateCheck State.reset.dev k0 1 0x18000000 4 [(1#32).toNat] = some (1, 0x18000000))
    ∧ (1 < 3 ∧ 15 < 16 ∧ whoNum k0 < 16 ∧ Dev.reset.get GATE_VINFO_VALID = 0
      ∧ (Dev.reset.set GATE_VINFO_VALID 1).get GATE_VINFO_VALID ≠ 0) := by
  unfold UrtTaken; decide +kernel

theorem witness_BadCountsAndUnknownOperations :
    (UrtTaken (on urt0) (hdr 0) ∧ 5 ∉ [1, 2, 3, 4, 9, 10]) ∧ 10 ∈ [1, 2, 3, 4, 9, 10]
    ∧ (UrtTaken (on urt0) (hdr 1) ∧ (hdr 1).count ≠ 0) ∧ (UrtTaken (on urt0) (hdr 0) ∧ (hdr 0).count ≠ 1)
    ∧ (hdr 0).count ≠ [1#32].length ∧ (UrtTaken (on urt0) (hdr 257) ∧ 256 < (hdr 257).count)
    ∧ badRange 0 0x2000FFC 2 = true ∧ badRange 0 0 0 = true ∧ badRange 0 0 257 = true := by
  unfold UrtTaken; decide +kernel

theorem witness_EventsGoOutAndAreAcknowledged :
    (UrtTaken (on urt0) (hdr 0) ∧ (hdr 0).count = 0 ∧ (hdr 0).sess < (on urt0).dev.sess.length)
    ∧ (let s := on (fun d => (ses0 d).modSes 0 (fun x => { x with queue := [⟨1#32, 2#32, 3#32, 4#32, none⟩] }))
       s.dev.powered = true ∧ (s.dev.ses 0).st = .opened ∧ (s.dev.ses 0).unack.length < 64 ∧ (s.dev.ses 0).queue ≠ []
         ∧ 1 ≤ 1 ∧ 0 < s.dev.sess.length)
    ∧ (let s := on (fun d => (ses0 d).modSes 0 (fun x => { x with unack := [(9, [])] }))
       s.dev.powered = true ∧ (s.dev.ses 0).unack = (9, []) :: [])
    ∧ (let s := on (fun d => (ses0 d).modSes 0 (fun x => { x with unack := (List.range 64).map (fun q => (q, [])) }))
       64 ≤ (s.dev.ses 0).unack.length ∧ (s.dev.ses 0).unack = (0, []) :: (List.range 63).map (fun q => (q + 1, []))) := by
  unfold UrtTaken; decide +kernel

theorem witness_UplinkLinksAndDiscards :
    (State.reset.dev.powered = true ∧ State.reset.dev.upOk (Side.num .a) = false)
    ∧ ((on urt0).dev.powered = true ∧ (on urt0).dev.upOk (Side.num .a) = true) := by decide +kernel

/-! ## Witnesses: the bell -/

theorem witness_CommitPointAdvancesTheTick :
    ((on seg0).dev.powered = true ∧ ringing (on seg0).dev = true)
    ∧ (let s := on (fun d => (seg0 d).set DEV_VIGSTAT_STATE 2)
       s.dev.powered = true ∧ ringing s.dev = true ∧ s.dev.get DEV_VIGSTAT_STATE = 2)
    ∧ ringing State.reset.dev = false := by decide +kernel

theorem witness_NextBellIsAMultipleOfThePeriod : (seg0 Dev.reset).periodNs ≠ 0 := by decide +kernel

theorem witness_LateAndMissedBells :
    (let s := on (fun d => (seg0 d).modChan 0 (fun x => { x with bell := .due, formed := true }))
     s.dev.powered = true ∧ s.dev.hasChan 0 = true ∧ (s.dev.chan 0).bell = .due ∧ (s.dev.chan 0).formed = true
       ∧ heldBack s.dev 0 = false ∧ (⟨0, false, .delivered, 90, false⟩ : BellLine).busy = false ∧ 0 < 4000
       ∧ 4000 * 125 ≤ s.dev.bellLimit ∧ busIdle s.dev 0 (s.dev.bell.inst + 4000 * 125) = true)
    ∧ (let s := on (fun d => (seg0 d).modChan 0 (fun x => { x with bell := .due }))
       (s.dev.chan 0).bell = .due ∧ s.dev.isHead = true ∧ bellWithheld s.dev 0 = false)
    ∧ (let s := on (fun d => (off0 d).modChan 0 (fun x => { x with bell := .due }))
       (s.dev.chan 0).bell = .due ∧ s.dev.isHead = true ∧ bellWithheld s.dev 0 = true)
    ∧ (State.reset.dev.chan 0).bell ≠ .due := by decide +kernel

/-! ## Witnesses: sending -/

theorem witness_PushQueuesOrRefuses :
    (let s := on (fun d => desc0 (seg0 d))
     s.dev.hasChan 0 = true ∧ 0 < s.dev.chans.length ∧ 0x20 < 2 ^ 14 ∧ Admits s k0 1 (regAddr (pCHT 0) 0x04C) [0x20]
       ∧ s.dev.get DEV_SAFE_ACTIVE ≠ 1 ∧ s.dev.isHead = true ∧ s.dev.entry 0 0x20 = none ∧ inRange s.dev 0 0x20 false = true
       ∧ descBad s.dev 0 (s.dev.desc 0x20 0) (s.dev.desc 0x20 1) (s.dev.desc 0x20 2) (bitsOf (s.dev.desc 0x20 0) 31 30)
           (bitsOf (s.dev.desc 0x20 0) 24 22) = false
       ∧ ((s.dev.chan 0).tx.filter (fun e => e.qt == bitsOf (s.dev.desc 0x20 0) 31 30 && e.idx != 0x20)).length < 255)
    ∧ (let s := on (fun d => (desc0 (seg0 d)).set TWIN_STAT_ROLE 2)
       Admits s k0 1 (regAddr (pCHT 0) 0x04C) [0x20] ∧ s.dev.isHead = false ∧ inRange s.dev 0 0x20 false = true)
    ∧ (let s := on seg0
       Admits s k0 1 (regAddr (pCHT 0) 0x04C) [0x30] ∧ s.dev.get DEV_SAFE_ACTIVE ≠ 1 ∧ s.dev.isHead = true
         ∧ s.dev.entry 0 0x30 = none ∧ inRange s.dev 0 0x30 false = false) := by
  simp -zeta only [admits_iff]; decide +kernel

theorem witness_AbortsEndQueuedEntries :
    (let s := on (q0 ent0)
     s.dev.hasChan 0 = true ∧ Admits s k0 1 (regAddr (pCHT 0) 0x050) [0x20] ∧ s.dev.entry 0 0x20 = some ent0 ∧ ent0.st ≠ 2
       ∧ ent0.c < 8)
    ∧ (let s := on (q0 { ent0 with st := 2 })
       Admits s k0 1 (regAddr (pCHT 0) 0x050) [0x20] ∧ s.dev.entry 0 0x20 = some { ent0 with st := 2 })
    ∧ (Admits (on seg0) k0 1 (regAddr (pCHT 0) 0x050) [0x20] ∧ (on seg0).dev.entry 0 0x20 = none)
    ∧ Admits (on (q0 ent0)) k0 1 (regAddr (pCHT 0) 0x050) [2 ^ 31] := by
  simp -zeta only [admits_iff]; decide +kernel

theorem witness_HeadStartsTheFirstEligibleEntry :
    (let d := (on (q0 { ent0 with copy := some copy0 })).dev
     d.get (CHC_WIN_SCHED_END 0) * 1000 ≤ 200000 ∧ chooseEntry d 0 200000 = some { ent0 with copy := some copy0 })
    ∧ (let d := (on (q0 { ent0 with qt := 0, copy := some copy0, slot := 100 })).dev
       199999 < d.get (CHC_WIN_SCHED_END 0) * 1000
         ∧ chooseEntry d 0 199999 = some { ent0 with qt := 0, copy := some copy0, slot := 100 })
    ∧ (chooseEntry (on seg0).dev 0 200000 = none ∧ ((on seg0).dev.chan 0).ownNs ≤ (on seg0).dev.bell.inst + 200000)
    ∧ (let d := (on (fun d => (q0 { ent0 with copy := some copy0 } d).modChan 0 (fun x => { x with ownNs := 5300000 }))).dev
       d.get (CHC_WIN_SCHED_END 0) * 1000 ≤ 200000 ∧ d.bell.inst + 200000 < (d.chan 0).ownNs) := by decide +kernel

theorem witness_AttemptsRunToTheirEnd :
    (let e := { ent0 with copy := some copy0 }
     let s := on (q0 e)
     mayStart s.dev 0 899999 = true ∧ mayStart s.dev 0 900000 = false
       ∧ (let d := skipPassed s.dev 0 300000
          chooseEntry d 0 300000 = some e ∧ d.entry 0 e.idx = some e)
       ∧ s.dev.powered = true ∧ mayStart s.dev 0 300000 = true ∧ 0 < s.dev.chans.length
       ∧ (⟨.start, 300000, 400000, .delivered, false⟩ : Attempt).line ≠ .lost
       ∧ (⟨.start, 300000, 400000, .lost, false⟩ : Attempt).part ≠ .finish)
    ∧ (let e := { ent0 with st := 2, copy := some copy0 }
       let s := on (fun d => (q0 e d).modChan 0 (fun x => { x with wire := some wire0 }))
       s.dev.powered = true ∧ (s.dev.chan 0).wire = some wire0 ∧ served s.dev 0 = true ∧ s.dev.isHead = true
         ∧ busOff s.dev 0 = false ∧ s.dev.get (CHS_TEC_TEC 0) < 256 ∧ 0 < s.dev.chans.length
         ∧ s.dev.entry 0 wire0.idx = some e ∧ e.qt = 1 ∧ e.c < 8 ∧ e.handle = none)
    ∧ (let s := on (fun d => ((q0 { ent0 with st := 2 } d).set (HAM_MILL_MILL 0) 0xF).modChan 0 (fun x => { x with wire := some wire0 }))
       (s.dev.chan 0).wire = some wire0 ∧ served s.dev 0 = false ∧ s.dev.get (CHS_TEC_TEC 0) < 256) := by decide +kernel

theorem witness_FailedAttemptsAndAging :
    (ent0.aborting = false ∧ { ent0 with qt := 2 }.qt = 2)
    ∧ (let e := { ent0 with att := 3 }; e.aborting = false ∧ e.qt = 1 ∧ e.retry < 15 ∧ e.retry ≤ e.att ∧ e.att < 15)
    ∧ (let e := { ent0 with att := 2 }; e.qt = 1 ∧ e.att < e.retry ∧ e.att < 15)
    ∧ { ent0 with qt := 0 }.qt = 0
    ∧ ({ ent0 with qt := 2 }.qt ≠ 1 ∧ 0 ≤ ent0.pushed) ∧ (ent0.qt = 1 ∧ ent0.st = 1 ∧ ent0.pushed < 1)
    ∧ (let d := (on (q0 ent0)).dev
       d.entry 0 ent0.idx = some ent0 ∧ ent0.due = 0 ∧ 0 < d.chans.length
         ∧ ¬ (d.get (CHT_AGELIM_AGELIM 0) ≠ 0 ∧ d.get (CHT_AGELIM_AGELIM 0) < ent0.w + 1 ∧ 2 < ent0.ec))
    ∧ (let e := { ent0 with w := 16, due := 1 }
       let d := (on (q0 e)).dev
       d.entry 0 e.idx = some e ∧ e.due = 1 ∧ d.get (CHT_AGELIM_AGELIM 0) ≠ 0 ∧ d.get (CHT_AGELIM_AGELIM 0) < e.w + 1 ∧ 2 < e.ec) := by
  decide +kernel

theorem witness_CopiesExpiriesAndTickWork :
    (let s := on (q0 ent0)
     (waitSince s.dev (8 * 0 + 8 % 8)).isSome = true ∧ waitSince s.dev (8 * 0 + 9 % 8) = none ∧ slotHolder s.dev 0 9 = some 0
       ∧ s.dev.powered = true ∧ s.dev.entry 0 0x20 = some ent0 ∧ (serve s.dev 0 (.copy 0x20)).isSome = true
       ∧ 0 < s.dev.chans.length ∧ ent0.safe = false ∧ ent0.owner = none
       ∧ descBad s.dev 0 (s.dev.desc 0x20 0) (s.dev.desc 0x20 1) (s.dev.desc 0x20 2) ent0.qt ent0.c = false)
    ∧ serve (on seg0).dev 0 (.copy 0x20) = none
    ∧ (let e := { ent0 with qt := 2, window := 5 }
       let s := on (q0 e)
       s.dev.entry 0 0x20 = some e ∧ e.qt = 2 ∧ e.st = 1 ∧ e.window ≤ s.dev.tick)
    ∧ (let s := on (fun d => { seg0 d with svc := { d.svc with outs := [out0] } })
       s.dev.svc.outs.find? (fun o => o.handle == 5) = some out0 ∧ out0.tick ≤ s.dev.tick + 1 ∧ out0.desc = none)
    ∧ (let s := on (fun d => (seg0 d).modChan 0 (fun x => { x with aged := false }))
       s.dev.hasChan 0 = true ∧ (serve s.dev 0 .tick).isSome = true ∧ 0 < s.dev.chans.length)
    ∧ serve State.reset.dev 0 .tick = none := by decide +kernel

/-! ## Witnesses: receiving and confinement -/

theorem witness_VerdictFollowsTheChecksInOrder :
    { frm0 with copiesDiffer := true }.copiesDiffer = true
    ∧ (let d := (Dev.reset.set (CHX_AUTHCFG_ENFORCE 0) 1).set (CHX_AUTHCFG_PROT 0) 2
       frm0.copiesDiffer = false ∧ frm0.a = false ∧ d.get (CHX_AUTHCFG_ENFORCE 0) = 1
         ∧ bitOf (d.get (CHX_AUTHCFG_PROT 0)) frm0.ft = true)
    ∧ (let d := Dev.reset.set (CHX_AUTHCFG_ENFORCE 0) 0
       ¬ (d.get (CHX_AUTHCFG_ENFORCE 0) = 1 ∧ bitOf (d.get (CHX_AUTHCFG_PROT 0)) frm0.ft = true))
    ∧ ((frm1 0).a = true ∧ candSlots Dev.reset 0 (frm1 0) = [])
    ∧ (candSlots (keyed Dev.reset) 0 (frm1 1) ≠ [] ∧ winner (keyed Dev.reset) 0 (frm1 1) = none)
    ∧ (let d := keyed Dev.reset
       winner d 0 (frm1 key0.key) = some (0, 5) ∧ (lastPair d 0 3).1 < 5)
    ∧ (let d := (keyed Dev.reset).modChan 0 (fun x => { x with pairs := [(3, 5, 9)] })
       winner d 0 (frm1 key0.key) = some (0, 5)
         ∧ ¬ ((lastPair d 0 3).1 < 5 ∨ ((lastPair d 0 3).1 = 5 ∧ (lastPair d 0 3).2 < (frm1 key0.key).seq)))
    ∧ (let d := keyed Dev.reset
       candSlots d 0 (frm1 key0.key) ≠ [] ∧ (frm1 key0.key).copiesDiffer = false) := by
  decide +kernel

theorem witness_ReceptionAnswersAndOffers :
    hears State.reset.dev 0 = false
    ∧ (let s := on seg0
       s.dev.powered = true ∧ hears s.dev 0 = true ∧ s.dev.isHead = true
         ∧ (let f := { frm0 with line := .cut (List.replicate 8 false) }
            (asRead f).a = false ∧ f.copiesDiffer = false ∧ (rxLineErr (s.dev.advanceTo (s.dev.atBell (asRead f).sof)) 0 (asRead f)).1 = 1)
         ∧ (let f := { frm0 with crc := 0 }
            (asRead f).a = false ∧ (rxLineErr (s.dev.advanceTo (s.dev.atBell f.sof)) 0 f).1 = 4))
    ∧ (let s := on seg0
       let d := s.dev.advanceTo (s.dev.atBell frm0.sof)
       frm0.line = .clean ∧ frm0.copiesDiffer = false ∧ frm0.authDom = false ∧ frm0.a = false
         ∧ (rxLineErr d 0 frm0).1 = 0 ∧ silent d 0 = false ∧ inGuard d 0 frm0 = false
         ∧ (rxLineErr d 0 { frm0 with line := .tail true }).1 = 0 ∧ (rxLineErr d 0 { frm0 with authDom := true }).1 = 0)
    ∧ (let s := on (fun d => (seg0 d).set TWIN_STAT_ROLE 2)
       let d := s.dev.advanceTo (s.dev.atBell frm0.sof)
       s.dev.isHead = false ∧ frm0.src ≠ 0 ∧ hears s.dev 0 = true ∧ (rxLineErr d 0 frm0).1 = 0)
    ∧ (let s := on seg0
       let f := { frm0 with sof := 950000 }
       let d := s.dev.advanceTo (s.dev.atBell f.sof)
       inGuard d 0 f = true ∧ (rxLineErr (d.inc (CHS_ECNT2_GUARD 0)) 0 f).1 = 0)
    ∧ (frm0.eof7 = false ∧ frm0.ft ≠ 4)
    ∧ (0 < (on seg0).dev.chans.length ∧ ((on seg0).dev.chan 0).hold.length < 2)
    ∧ 2 ≤ (((on seg0).dev.modChan 0 (fun x => { x with hold := [held0, held0] })).chan 0).hold.length := by decide +kernel

theorem witness_ReceptionAnswersAndOffers_tagged :
    (let s := on keyed
     let f := frm1 key0.key
     let d := s.dev.advanceTo (s.dev.atBell f.sof)
     s.dev.powered = true ∧ hears s.dev 0 = true ∧ s.dev.isHead = true ∧ f.line = .clean ∧ f.copiesDiffer = false ∧ f.a = true
       ∧ inGuard d 0 f = false ∧ (rxLineErr d 0 f).1 = 0 ∧ (verdict d 0 f).1 = 0 ∧ silent d 0 = false) := by decide +kernel

theorem witness_PlacementFillsASlotOrDropsTheNewest :
    (let d := rxd0 0 (1 * 2 ^ 24 + 1 * 2 ^ 8) Dev.reset
     let w0 := d.desc 0x40 0
     let w3 := d.desc 0x40 3
     d.get (CHX_RXRANGE_BASE 0) ≤ 0x40 ∧ 0x40 < d.get (CHX_RXRANGE_BASE 0) + d.get (CHX_RXRANGE_CNT 0) ∧ bitsOf w0 31 30 < 2
       ∧ bitsOf w0 23 16 ≠ 0 ∧ bitsOf w0 9 0 ≤ 512
       ∧ bitsOf (d.desc 0x40 1) 16 0 + bitsOf w0 23 16 * ((bitsOf w0 9 0 + 63) / 64) ≤ 98304 ∧ bitsOf w3 15 8 < bitsOf w0 23 16
       ∧ bitsOf w3 31 24 < bitsOf w0 23 16 ∧ 0x40000 ≤ d.desc 0x40 2 + 16 * bitsOf w3 31 24
       ∧ held0.f.payload.length = held0.f.len ∧ held0.f.len ≤ bitsOf w0 9 0
       ∧ d.desc 0x40 2 + 16 * bitsOf w3 31 24 + 16 ≤ granAddr (bitsOf (d.desc 0x40 1) 16 0 + bitsOf w3 31 24 * 1))
    ∧ (let d := rxd0 0 (2 * 2 ^ 8) Dev.reset
       let w0 := d.desc 0x40 0
       bitsOf w0 23 16 ≤ bitsOf (d.desc 0x40 3) 15 8 ∧ bitOf w0 29 = false ∧ bitsOf w0 23 16 ≠ 0) := by decide +kernel

theorem witness_PlacementTakesAndReleasesFree :
    (let s := on (fun d => (seg0 d).modChan 0 (fun x => { x with hold := [held0] }))
     s.dev.powered = true ∧ s.dev.hasChan 0 = true ∧ (serve s.dev 0 .frame).isSome = true ∧ s.dev.get DEV_VIGSTAT_STATE = 0
       ∧ (s.dev.chan 0).hold = [held0])
    ∧ serve (on seg0).dev 0 .frame = none
    ∧ (let s := on (rxd0 0 (2 * 2 ^ 8))
       Admits s k0 1 (regAddr (pCHX 0) 0x04C) [255 * 2 ^ 24 + 0x40] ∧ bitsOf (s.dev.desc 0x40 0) 23 16 ≠ 0)
    ∧ (State.reset.dev.hasHam 7 = true ∧ 127 < 128 ∧ Admits State.reset k0 1 (regAddr (pHAM 7) 0x10C) [127]) := by
  simp -zeta only [admits_iff]; decide +kernel

theorem witness_ErrorCountersAndState :
    255 < 256
    ∧ ((on seg0).dev.isHead = true ∧ busOff (on seg0).dev 0 = false)
    ∧ State.reset.dev.isHead = false := by decide +kernel

theorem witness_ScoresWarnAndFence :
    (1 ≤ 1 ∧ 31 ≤ 31 ∧ 191 < 192 ∧ 96 ≤ 191 ∧ Dev.reset.get (CHS_NODE_SCORE 0 31) < 96) ∧ (192 ≤ 192 ∧ 255 < 256)
    ∧ fenced (Dev.reset.setBit (CHS_FENCE 0) 3 true) 0 3 = true := by decide +kernel

theorem witness_BusOffRecovery :
    (let s := on (fun d => (off0 d).set (CHS_BOCFG_MODE 0) 1)
     s.dev.hasChan 0 = true ∧ Admits s k0 1 (regAddr (pCHS 0) 0x04C) [1] ∧ busOff s.dev 0 = true ∧ s.dev.get (CHS_BOCFG_MODE 0) ≠ 0
       ∧ 0 < s.dev.chans.length)
    ∧ (let s := on off0
       Admits s k0 1 (regAddr (pCHS 0) 0x04C) [1] ∧ busOff s.dev 0 = true ∧ s.dev.get (CHS_BOCFG_MODE 0) = 0
         ∧ (s.dev.chan 0).noAuto = false ∧ s.dev.powered = true ∧ 0 < s.dev.chans.length)
    ∧ (Admits (on seg0) k0 1 (regAddr (pCHS 0) 0x04C) [1] ∧ busOff (on seg0).dev 0 = false)
    ∧ Admits (on seg0) k0 1 (regAddr (pCHS 0) 0x04C) [2] := by
  simp -zeta only [admits_iff]; decide +kernel

theorem witness_LineEventsOfAChannel :
    (let s := on seg0
     s.dev.powered = true ∧ s.dev.hasChan 0 = true ∧ s.dev.running (pCHC 0) = true ∧ s.dev.get (CHC_CURSTAT_STATE 0) ≠ 3
       ∧ s.dev.get (CHS_TEC_STUCK 0) = 0 ∧ s.dev.get (CHC_XCVR_STBYFORCE 0) = 0 ∧ s.dev.get (CHC_XCVR_HBSTOP 0) = 0
       ∧ busOff s.dev 0 = false ∧ (s.dev.chan 0).isolated = false ∧ (s.dev.ham (hamOf 0)).isolated = false)
    ∧ (let s := on (fun d => (seg0 d).modChan 0 (fun x => { x with mute := true }))
       s.dev.running (pCHC 0) = true ∧ busOff s.dev 0 = false ∧ (s.dev.chan 0).mute = true)
    ∧ (let s := on (fun d => (off0 d).set (CHS_BOSTAT_SEQ 0) 31)
       s.dev.running (pCHC 0) = true ∧ busOff s.dev 0 = true ∧ (s.dev.chan 0).noAuto = false ∧ s.dev.get (CHS_BOCFG_MODE 0) = 0
         ∧ 32 ≤ s.dev.get (CHS_BOSTAT_SEQ 0) + 1)
    ∧ (let s := on (fun d => (seg0 d).set (CHS_TEC_STUCK 0) 1)
       s.dev.get (CHS_TEC_STUCK 0) = 1 ∧ 0xFFFFFF < 2 ^ 24)
    ∧ (let s := on (fun d => (((seg0 d).set (CHS_NSCFG_AUTOUNF 0) 1).setBit (CHS_FENCE 0) 31 true).modChan 0
          (fun x => { x with fenceUntil := [(31, 6)] }))
       s.dev.get (CHS_NSCFG_AUTOUNF 0) = 1 ∧ s.dev.get (CHS_FENCEHOLD_HOLD 0) ≠ 0 ∧ (31, 6) ∈ (s.dev.chan 0).fenceUntil
         ∧ asleepNode s.dev 0 31 = false ∧ 6 ≤ s.dev.tick + 1 ∧ fenced s.dev 0 31 = true
         ∧ (s.dev.chan 0).unfReq.contains 31 = false) := by decide +kernel

/-! ## Witnesses: mills, keys, services, interrupts, gates -/

theorem reset_no_outcome : ∀ c, (Dev.reset.chan c).outcome = none :=
  chan_all (fun x => x.outcome = none) Dev.reset 64 (by decide +kernel) rfl rfl

/-- No page of the reset state waits for a quiet period, whatever registers, hamlets and channels hold. -/
theorem no_quiet_due : ∀ p, (Dev.reset.page p).quietDue ≠ 2 := by intro p; simp [Dev.reset, Dev.page, findKey, PageX.reset]

theorem witness_MillsMigrateAndTest :
    (State.reset.dev.powered = true ∧ State.reset.dev.hasMill 8 = true ∧ State.reset.dev.get (MILL_STAT_STATE 8) = 2)
    ∧ (on seg0).dev.get (MILL_STAT_STATE 0) = 1
    ∧ (Admits (on (fun d => ses0 (seg0 d))) (.session 0) 1 (regAddr (pHAM 0) 0x044) [1] ∧ (on seg0).dev.hasHam 0 = true
      ∧ ((on (fun d => d.setHam 0 { Ham.reset with isolated := true })).dev.ham 0).isolated = true)
    ∧ (let s := on seg0
       s.dev.get (HAM_MILL_MILL 0) = 0 ∧ 0 ≠ 0xF ∧ spareOf s.dev = some 8 ∧ (s.dev.ham 0).mig = none ∧ (s.dev.ham 0).isolated = false
         ∧ 0 < s.dev.hams.length ∧ s.dev.get (PG_ESC_SHADOW (pMILL 0)) ≠ 0)
    ∧ (let s := on (fun d => d.setHam 7 { Ham.reset with mig := some ⟨8, some 7, 3⟩ })
       (s.dev.ham 7).mig = some ⟨8, some 7, 3⟩ ∧ 7 < 8 ∧ 8 < 15 ∧ 7 < s.dev.hams.length ∧ (s.dev.ham 7).mig.isSome = true)
    ∧ (on seg0).dev.hasHam 0 = true
    ∧ (Admits (on (fun d => ses0 (seg0 d))) (.session 0) 1 (regAddr (pMILL 8) 0x04C) [2 ^ 31] ∧ (on seg0).dev.get (MILL_STAT_STATE 8) = 2)
    ∧ (let s := on (fun d => d.set (MILL_BIST_RESULT 8) 3)
       s.dev.get (MILL_BIST_RESULT 8) = 3 ∧ s.dev.get (MILL_STAT_STATE 8) = 2) := by
  simp -zeta only [admits_iff]; decide +kernel

theorem witness_EpochKeysChange :
    (let s := on (fun d => (seg0 d).set SEC_RNG_OK 1)
     s.dev.powered = true ∧ s.dev.hasChan 0 = true ∧ s.dev.isHead = true ∧ underCurfew s.dev 0 = false ∧ (s.dev.chan 0).next = none
       ∧ (s.dev.chan 0).epWant = 1 ∧ startDue s.dev 0 = true ∧ s.dev.get SEC_RNG_OK = 1)
    ∧ ((on seg0).dev.get SEC_RNG_OK ≠ 1 ∧ State.reset.dev.bell.started = false)
    ∧ (let s := on (fun d => (seg0 d).modChan 0 (fun x => { x with epStart := 6 })); s.dev.tick < (s.dev.chan 0).epStart)
    ∧ (let s := on (fun d => { ((keyed d).set (CHX_KEYCFG_LIFE 0) 1).modChan 0 (fun x => { x with epWant := 0 }) with bell := bell0 1024 })
       s.dev.isHead = true ∧ s.dev.get (CHX_KEYCFG_LIFE 0) ≠ 0
         ∧ (s.dev.chan 0).epLast + s.dev.get (CHX_KEYCFG_LIFE 0) * 1024 ≤ s.dev.tick
         ∧ (s.dev.chan 0).next = none ∧ (s.dev.chan 0).epWant = 0)
    ∧ (let k : EpKey := { key0 with use := 251658240 }
       let s := on (fun d => (keyed d).modChan 0 (fun x => { x with cur := some k }))
       served s.dev 0 = true ∧ (s.dev.chan 0).cur = some k ∧ 251658240 ≤ k.use ∧ capped (s.dev.chan 0) = 0
         ∧ s.dev.get (CHX_KEYUSE_SOFT 0) = 0)
    ∧ (let s := on (fun d => { seg0 d with bell := bell0 32 })
       underCurfew s.dev 0 = false ∧ startDue s.dev 0 = true ∧ (s.dev.chan 0).next = none
         ∧ (s.dev.chan 0).epStart + s.dev.get (CHX_KEYCFG_LEAD 0) / 2 ≤ s.dev.tick)
    ∧ (let s := on (fun d => (keyed d).modChan 0 (fun x => { x with next := some key0, epDeadline := 6 }))
       (s.dev.chan 0).next.isSome = true ∧ (s.dev.chan 0).epWant ≠ 3 ∧ (s.dev.chan 0).epDeadline ≤ s.dev.tick + 1
         ∧ allConfirmed s.dev 0 = true)
    ∧ (let s := on (fun d => { (keyed d).modChan 0 (fun x => { x with old := some key0 }) with bell := bell0 15 })
       (s.dev.chan 0).old.isSome = true ∧ (s.dev.chan 0).epLast + 16 ≤ s.dev.tick + 1)
    ∧ (let s := on (fun d => { (keyed d).modChan 0 (fun x => { x with next := some key0 }) with
          sec := { d.sec with vault := [(0, 3, 7#256)] } })
       keyToSend s.dev 0 3 = some 2 ∧ enrollKey s.dev 0 3 = some 7#256 ∧ slotKey s.dev 0 2 = some key0 ∧ fenced s.dev 0 3 = false
         ∧ asleepNode s.dev 0 3 = false ∧ inRange s.dev 0 0x20 false = true ∧ s.dev.entry 0 0x20 = none) := by
  decide +kernel

theorem witness_ServicesWorkAndTimedOutputs :
    (let s := on (fun d => { seg0 d with svc := { d.svc with work := [⟨5, [], [], [], []⟩] } })
     s.dev.powered = true ∧ s.dev.svc.work = [⟨5, [], [], [], []⟩] ∧ s.dev.works 0x50 = true ∧ s.dev.get DEV_VIGSTAT_STATE = 0)
    ∧ State.reset.dev.svc.work = []
    ∧ (let v := putBit (0x00000004#32).toNat 31 true
       Admits (on seg0) k0 1 (regAddr 0x53 (0x11C + 0x20 * 7)) [v] ∧ Admits (on ses0) (.session 0) 1 (regAddr 0x53 (0x11C + 0x20 * 0)) [v])
    ∧ (let s := on (fun d => (seg0 d).modSes 0 (fun x => { x with scope := { allScope with midr := [(1, 1)] } }))
       s.dev.get TWIN_STAT_ROLE ≠ 2 ∧ bitOf (2 ^ 31) 31 = true ∧ scopeOp (s.dev.ses 0).scope 4 = true
         ∧ toInScope s.dev 0 (bitsOf (s.dev.getW (SVC_TOREQ 0 0)) 31 26) (bitsOf (s.dev.getW (SVC_TOREQ 0 0)) 21 0) = false)
    ∧ (16 < bitsOf 17 4 0)
    ∧ (let s := on (fun d => { ses0 d with svc := { d.svc with outs := [out0] } })
       Admits s (.session 0) 1 (regAddr 0x53 0x048) [(0x80000005#32).toNat] ∧ bitOf (0x80000005#32).toNat 31 = true
         ∧ s.dev.svc.outs.find? (fun o => o.handle == bitsOf (0x80000005#32).toNat 12 0 && o.sess == 0) = some out0
         ∧ out0.desc = none)
    ∧ (65535 < 2 ^ 16 ∧ Admits State.reset k0 1 (regAddr 0x52 0x04C) [65535]) := by
  simp -zeta only [admits_iff]; decide +kernel

theorem witness_InterruptsRaiseDeliverClaimComplete :
    (Admits State.reset k0 1 (regAddr 0x30 0x044) [1022] ∧ 512 ≤ 1022 ∧ 1022 < 1023
      ∧ State.reset.dev.get (INTC_SRC_CE 1022) = 0)
    ∧ (Admits State.reset k0 1 (regAddr 0x30 0x044) [511] ∧ Admits State.reset k0 1 (regAddr 0x30 0x044) [1023])
    ∧ Admits State.reset k0 1 (regAddr (0x32 + 1022 / 256) (0x400 + 4 * (1022 % 256)))
        [putBit (State.reset.dev.pendingW (INTC_SRC 1022)) 31 true]
    ∧ (let s := on irq0
       s.dev.powered = true ∧ s.dev.works 0x30 = true ∧ deliverable s.dev 1022 = true ∧ chooseTarget s.dev 1022 = some 0)
    ∧ deliverable State.reset.dev 1022 = false
    ∧ (let s := on (fun d => d.setW (INTC_OFFER 3) (2 ^ 31 + 5 * 2 ^ 16 + 1022))
       Admits s (.steward 3 .k) 1 (regAddr 0x31 (0x104 + 0x40 * 3)) [s.dev.get (INTC_OFFER_TAG 3) * 2 ^ 16 + 1022]
         ∧ offered s.dev 3 1022 = true)
    ∧ (let s := on (fun d => d)
       Admits s (.steward 3 .k) 1 (regAddr 0x31 (0x104 + 0x40 * 3)) [15 * 2 ^ 16 + 1022] ∧ offered s.dev 3 1022 = false)
    ∧ (let s := on (fun d => { d with intc := { d.intc with active := [(1022, 3, 1)] } })
       Admits s (.steward 3 .k) 1 (regAddr 0x31 (0x108 + 0x40 * 3)) [1022] ∧ (1022, 3, 1) ∈ s.dev.intc.active)
    ∧ (let s := on (fun d => d.setW (INTC_OFFER 3) (2 ^ 31 + 5 * 2 ^ 16 + 1022))
       s.dev.get (INTC_OFFER_VALID 3) = 1 ∧ eligible s.dev (s.dev.get (INTC_OFFER_SRC 3)) 3 = false)
    ∧ (on (fun d => d.set (INTC_OFFER_VALID 3) 0)).dev.get (INTC_OFFER_VALID 3) = 0
    ∧ (let s := on (fun d => d.setW (INTC_OFFER 0) (2 ^ 31 + 5 * 2 ^ 16 + 1022))
       let s := s.put (irq0 s.dev)
       s.dev.get (INTC_OFFER_VALID 0) = 1 ∧ eligible s.dev (s.dev.get (INTC_OFFER_SRC 0)) 0 = true)
    ∧ (on (fun d => d.set (INTC_COALST_HELD 63) 1)).dev.get (INTC_COALST_HELD 63) ≠ 0 := by
  simp -zeta only [admits_iff]; decide +kernel

theorem witness_GateCommitsAndCapturedReads :
    (let s := on (fun d => (ses0 d).set GATE_COMMIT_BUSY 1)
     Admits s (.session 0) 1 (regAddr 0x40 0x044) [2 ^ 31] ∧ s.dev.get GATE_COMMIT_BUSY = 1)
    ∧ (let s := on ses0
       Admits s (.session 0) 1 (regAddr 0x40 0x044) [2 ^ 31] ∧ s.dev.get GATE_COMMIT_BUSY ≠ 1 ∧ s.dev.cert = false
         ∧ tableError (stgEntry s.dev) = (0, 0, 0))
    ∧ (on (fun d => { d with gate := { d.gate with drain := some [] } })).dev.gate.drain = some []
    ∧ State.reset.dev.gate.drain = none
    ∧ Admits State.reset k0 1 (regAddr 2 0x054) [2 ^ 31]
    ∧ Admits State.reset k0 0 (regAddr 2 0x044) []
    ∧ Admits State.reset k0 0 (regAddr 0x10 0x048) [] := by
  simp -zeta only [admits_iff]; decide +kernel


/-! ## Witnesses: time, curfew and vigil -/

theorem witness_TimeDomainsAndHoldover :
    (let s := on (fun d => { (((d.set (TIME_DCFG_OFF 0) 0).set (TIME_DSTAT_ASCAP 0) 1).set (TIME_DCFG_OFF 1) 0).set (TIME_DSTAT_ASCAP 1) 1
          with ups := [⟨true⟩, ⟨true⟩] })
     s.dev.powered = true ∧ domHears s.dev 0 = true ∧ domHears s.dev 1 = true ∧ domState s.dev 0 = 0 ∧ domState s.dev 1 = 0)
    ∧ domHears State.reset.dev (Side.num .b) = false
    ∧ (let d := (seg0 Dev.reset).setDom 1 { Dom.reset with acq := [-500, 500] }
       1 < d.tim.doms.length ∧ (d.dom 1).acq = [-500, 500] ∧ absInt (500 - (-500)) ≤ 1000
         ∧ absInt (500 - 500) ≤ 1000 ∧ absInt (-500 - 500) ≤ 1000)
    ∧ State.reset.dev.get TIME_STAT_STATE ≠ 1
    ∧ ((on urt0).dev.upOk (Side.num .a) = true ∧ (on urt0).dev.get (TIME_DCFG_OFF (Side.num .a)) = 0 ∧ 0xFFFFFFFFFFFFFFFF < 2 ^ 64
      ∧ ((on urt0).dev.dom (Side.num .a)).gm = none ∧ Side.num .a < (on urt0).dev.tim.doms.length)
    ∧ State.reset.dev.upOk (Side.num .b) = false
    ∧ (800 ≤ 800 ∧ absInt (-200) ≤ 200)
    ∧ (let s := on (fun d => d.set (TIME_DSTAT_STATE 0) 1)
       s.dev.powered = true ∧ domState s.dev (Side.num .a) = 1 ∧ s.dev.aon.set = false)
    ∧ (let s := on (fun d => d.set TIME_STAT_STATE 2)
       s.dev.get TIME_STAT_STATE = 2 ∧ s.dev.get TIME_HOLDLIM_SEC ≠ 0 ∧ s.dev.tim.holdRaised = false) := by decide +kernel

theorem witness_CurfewCallsSleepsAndWakes :
    (let s := on (fun d => ((seg0 d).setW (CHC_CURCFG 0) (2 ^ 31 + 1)).set (CHC_CURSTAT_IDLE 0) 0)
     s.dev.powered = true ∧ s.dev.hasChan 0 = true ∧ 0 < s.dev.chans.length ∧ s.dev.get (CHC_CURSTAT_STATE 0) = 0
       ∧ bitOf (s.dev.pendingW (CHC_CURCFG 0)) 31 = true
       ∧ max (bitsOf (s.dev.pendingW (CHC_CURCFG 0)) 15 0) 1 ≤ min (s.dev.get (CHC_CURSTAT_IDLE 0) + 1) 65535
       ∧ needed s.dev 0 = false ∧ s.dev.get (CHC_VETO_MASK 0) = 0 ∧ s.dev.running (pCHC 0) = true)
    ∧ (let s := on (fun d => ((seg0 d).set (CHC_CURSTAT_STATE 0) 1).modChan 0 (fun x => { x with callTick := 4 }))
       s.dev.get (CHC_CURSTAT_STATE 0) = 1 ∧ (s.dev.chan 0).callTick + 2 ≤ s.dev.tick + 1)
    ∧ (let s := on (fun d => (seg0 d).set (CHC_CURSTAT_STATE 0) 2)
       s.dev.hasChan 0 = true ∧ s.dev.get (CHC_CURSTAT_STATE 0) = 2 ∧ (s.dev.chan 0).bell = .sent)
    ∧ (let s := on (fun d => (seg0 d).set (CHC_CURSTAT_STATE 0) 3)
       s.dev.running (pCHC 0) = true ∧ s.dev.get DEV_VIGSTAT_STATE = 0 ∧ s.dev.get (CHC_CURSTAT_STATE 0) = 3 ∧ s.dev.isHead = true)
    ∧ (hears (on seg0).dev 0 = true ∧ (on seg0).dev.get (CHC_CURSTAT_STATE 0) ≤ 2 ∧ (on seg0).dev.get DEV_VIGSTAT_STATE = 0)
    ∧ (State.reset.dev.get DEV_VIGSTAT_STATE = 0 ∧ State.reset.dev.running (pCHC 0) = false)
    ∧ (Admits (on seg0) k0 1 (regAddr (pCHC 0) 0x10C) [1] ∧ (on seg0).dev.get (CHC_CURSTAT_STATE 0) = 0)
    ∧ (let s := on (fun d => (seg0 d).set (CHC_CURSTAT_STATE 0) 2)
       Admits s k0 1 (regAddr (pCHC 0) 0x10C) [1] ∧ s.dev.get (CHC_CURSTAT_STATE 0) = 2)
    ∧ (let s := on (fun d => (seg0 d).set (CHC_CURSTAT_STATE 0) 3)
       Admits s k0 1 (regAddr (pCHC 0) 0x10C) [1] ∧ s.dev.get (CHC_CURSTAT_STATE 0) = 3)
    ∧ (Admits (on ses0) (.session 0) 1 (regAddr (pCHC 63) 0x110) [1] ∧ Admits (on ses0) (.session 0) 1 (regAddr (pCHC 63) 0x110) [0]
      ∧ (on ses0).dev.hasChan 63 = true ∧ 0 < 8 ∧ 0 ≠ 7)
    ∧ (on (fun d => d.set (CHC_CURSTAT_STATE 63) 1)).dev.get (CHC_CURSTAT_STATE 63) = 1
    ∧ (on (fun d => d.set (CHC_CURSTAT_STATE 63) 3)).dev.get (CHC_CURSTAT_STATE 63) = 3 := by
  simp -zeta only [admits_iff]; decide +kernel

theorem witness_VigilEntersAndEnds :
    (let s := on (fun d => ((d.set TWIN_STAT_ROLE 1).set DEV_VIGCFG_EN 1).pass 100000000)
     s.dev.powered = true ∧ s.dev.get DEV_VIGSTAT_STATE = 0 ∧ s.dev.get TWIN_STAT_ROLE ≠ 2 ∧ vigilReady s.dev = true)
    ∧ vigilReady State.reset.dev = false
    ∧ (let s := on (fun d => (d.set DEV_VIGSTAT_STATE 1).pass 100000000)
       s.dev.powered = true ∧ s.dev.get DEV_VIGSTAT_STATE = 1 ∧ uplinkIdle s.dev = true)
    ∧ State.reset.dev.get DEV_VIGSTAT_STATE ≠ 1
    ∧ (let s := on (fun d => d.set DEV_VIGSTAT_STATE 2)
       s.dev.powered = true ∧ s.dev.get DEV_VIGSTAT_STATE = 2 ∧ s.dev.vigHeld = []) := by decide +kernel

/-! ## Witnesses: packages -/

theorem witness_PackagesAreLoadedAndVerified :
    (65536 % 4 = 0 ∧ 128 ≤ 128 ∧ Admits (on ses0) (.session 0) 1 (regAddr 0x60 0x048) [2 ^ 31 + 1 * 2 ^ 17 + 65536]
      ∧ Admits (on ses0) (.session 0) 1 (regAddr 0x60 0x048) [2 ^ 31 + 128] ∧ stagedSt (on ses0).dev ≠ 3 ∧ stagedSt (on ses0).dev ≠ 5)
    ∧ (Admits (on (staged0 5)) (.session 0) 1 (regAddr 0x60 0x048) [2 ^ 31 + 4] ∧ stagedSt (on (staged0 5)).dev = 5)
    ∧ (Admits (on ses0) (.session 0) 1 (regAddr 0x60 0x048) [2 ^ 31 + 65540] ∧ 65540 < 2 ^ 17 ∧ 65536 < 65540)
    ∧ (Admits (on ses0) (.session 0) 1 (regAddr 0x60 0x048) [2 ^ 31 + 124] ∧ 124 < 128) := by
  simp -zeta only [admits_iff]; decide +kernel

theorem witness_PackagesAreLoadedAndVerified_load :
    (Admits (on (loading0 [] [])) (.session 0) 1 (regAddr 0x60 0x048) [4] ∧ (on (loading0 [] [])).dev.cfg.lsess = some 0
      ∧ stagedSt (on (loading0 [] [])).dev = 1)
    ∧ (Admits (on (loading0 [] [])) (.session 0) 1 (regAddr 0x60 0x048) [0] ∧ 0 < 4)
    ∧ (let s := on (fun d => (staged0 4 d).modCfg (fun c => { c with lsess := some 0 }))
       Admits s (.session 0) 1 (regAddr 0x60 0x048) [4] ∧ s.dev.cfg.lsess = some 0 ∧ stagedSt s.dev ≠ 1)
    ∧ (Admits (on ses0) (.session 0) 1 (regAddr 0x60 0x048) [4] ∧ (on ses0).dev.cfg.lsess ≠ some 0) := by
  simp -zeta only [admits_iff]; decide +kernel

theorem witness_PackagesAreLoadedAndVerified_commands :
    Admits (on (staged0 2)) (.session 0) 1 (regAddr 0x60 0x044) [1]
    ∧ (let s := on (staged0 3)
       s.dev.powered = true ∧ stagedSt s.dev = 3 ∧ s.dev.flash.staged = some pkg0 ∧ checkPackage s.otp s.dev true pkg0 ≠ 0)
    ∧ (let s : State := { on (staged0 3) with otp := goodOtp }
       let t := s.put { s.dev with flash := { s.dev.flash with staged := some pkg1 } }
       stagedSt t.dev = 3 ∧ t.dev.flash.staged = some pkg1 ∧ checkPackage t.otp t.dev true pkg1 = 0)
    ∧ Admits (on (staged0 5)) (.session 0) 1 (regAddr 0x60 0x044) [2]
    ∧ Admits (on (staged0 4)) (.session 0) 1 (regAddr 0x60 0x044) [3] := by
  simp -zeta only [admits_iff]; decide +kernel

theorem witness_PackagesAreLoadedAndVerified_chunks :
    (let s := on (loading0 [] (head0 132));
       s.dev.powered = true ∧ s.dev.cfg.chunks = [head0 132]
         ∧ (totalOf (s.dev.cfg.loading ++ head0 132) ≤ 0x800000 ∧ (s.dev.cfg.loading ++ head0 132).length < totalOf (head0 132))
         ∧ (s.dev.cfg.loading ++ head0 128).length = totalOf (head0 128)
         ∧ 0x800000 < totalOf (s.dev.cfg.loading ++ head0 0x800001) ∧ totalOf (head0 124) < (head0 124).length)
    ∧ State.reset.dev.cfg.chunks = [] := by decide +kernel

theorem witness_PackageRolesMoveAndReturn :
    (on (staged0 5)).dev.flash.staged = some pkg0
    ∧ (State.reset.dev.powered = true ∧ State.reset.dev.flash.recs.length = 2)
    ∧ (let s := on (fun d => (prob0 d).modCfg (fun c => { c with probStart := 2, probLen := 4 }))
       s.dev.get CFG_STAT_PROB = 1 ∧ s.dev.cfg.failed = 0 ∧ failCause s.dev = 0 ∧ sessRunEnds s.dev = false
         ∧ lateHamlets s.dev = [] ∧ s.dev.svc.work = [] ∧ s.dev.cfg.probStart + s.dev.cfg.probLen ≤ s.dev.tick + 1)
    ∧ (let s := on (fun d => (prob0 d).set CFG_SESSWAIT_TICKS 1)
       s.dev.get CFG_STAT_PROB = 1 ∧ s.dev.cfg.failed = 0 ∧ s.dev.cfg.probStart ≤ s.dev.tick
         ∧ s.dev.sess.any (fun x => x.st == .opened && x.live) = false ∧ s.dev.get CFG_SESSWAIT_TICKS ≤ s.dev.cfg.sessRun + 1
         ∧ sessRunEnds s.dev = true)
    ∧ failCause (on (fun d => d.modCfg (fun c => { c with ovrSeen := true }))).dev ≠ 0
    ∧ State.reset.dev.cfg.failed = 0
    ∧ (let s := on (fun d => { (prob0 d).modCfg (fun c => { c with failed := 1, failAt := 5 }) with
          flash := { d.flash with previous := some pkg0 } })
       s.dev.cfg.failed ≠ 0 ∧ s.dev.cfg.failAt ≤ s.dev.tick ∧ s.dev.flash.previous = some pkg0)
    ∧ (let s := on (fun d => (prob0 d).modCfg (fun c => { c with failed := 1, failAt := 5 }))
       s.dev.cfg.failed ≠ 0 ∧ s.dev.cfg.failAt ≤ s.dev.tick ∧ s.dev.flash.previous = none)
    ∧ (let s := on (fun d => { (seg0 d).modCfg (fun c => { c with manualAt := [6, 7] }) with
          flash := { d.flash with previous := some pkg0 } })
       6 ∈ s.dev.cfg.manualAt ∧ 6 ≤ s.dev.tick + 1 ∧ s.dev.get CFG_STAT_PROB = 0 ∧ s.dev.flash.previous = some pkg0)
    ∧ (let s := on (fun d => (seg0 d).modCfg (fun c => { c with manualAt := [7] })); ∀ n ∈ s.dev.cfg.manualAt, s.dev.tick + 1 < n) := by
  decide +kernel

/-! ## Witnesses: sessions, pennants and operations -/

theorem witness_SessionsOpenAndEnd :
    (pxmForm { frag0 with ver := 2 } = false ∧ pxmForm frag0 = true)
    ∧ (let s := on (fun d => { d with seen := [(0x1122, 7, 0)] })
       s.dev.powered = true ∧ firstCopy s.dev frag0.mac frag0.prp = false)
    ∧ (State.reset.dev.powered = true ∧ firstCopy State.reset.dev frag0.mac frag0.prp = true
      ∧ (∀ r ∈ State.reset.dev.reasm, sameBody r frag0 = false) ∧ frag0.offset = 0 ∧ frag0.total = frag0.data.length
      ∧ bodyOf Otp.reset frag0.type frag0.xid frag0.data ≠ .other)
    ∧ (let f := { frag0 with total := 49 }; pxmForm f = true ∧ f.data.length < f.total)
    ∧ (on (fun d => { d with reasm := [⟨.a, 0x1122, 3, 1, 100, [(0, [1#8])]⟩] })).dev.reasm.any
        (fun r => r.mac == 0x1122 && r.xid == 3) = true
    ∧ (let s := on (fun d => (sec0 (fun x => { x with bodies := [.hello hello0] }) d).set SEC_RNG_OK 1)
       s.dev.powered = true ∧ secWorks s.dev = true
         ∧ takeFirst PxmBody.isHello s.dev.sec.bodies = (some (.hello hello0), [])
         ∧ ¬ (s.dev.sess.all (fun x => x.st != .free) = true ∧ s.dev.sess.all (fun x => x.host != hello0.pennant.host) = true)
         ∧ ¬ 5 ≤ s.dev.sec.hellos.length + s.dev.sec.ops.length ∧ s.dev.get SEC_RNG_OK = 1)
    ∧ (let s := on (fun d => { sec0 (fun x => { x with bodies := [.hello hello0] }) d with
          sess := List.replicate 8 { Sess.reset with st := .opened } })
       s.dev.sess.all (fun x => x.st != .free) = true ∧ s.dev.sess.all (fun x => x.host != hello0.pennant.host) = true)
    ∧ (let s := on (sec0 (fun x => { x with bodies := [.hello hello0], hellos := List.replicate 5 hello0 }))
       5 ≤ s.dev.sec.hellos.length + s.dev.sec.ops.length ∧ s.dev.get SEC_RNG_OK = 0) := by decide +kernel

theorem witness_SessionsOpenAndEnd_checked :
    (let s := on (sec0 (fun x => { x with hellos := [hello0] }))
     secWorks s.dev = true ∧ s.dev.sec.hellos = [hello0] ∧ checkPennant s.otp s.dev pen0 1 8#384 true ≠ 0)
    ∧ (let s : State := { on (fun d => (sec0 (fun x => { x with hellos := [hello0] }) d).set SEC_RNG_OK 1) with otp := goodOtp }
       secWorks s.dev = true ∧ s.dev.sec.hellos = [hello0] ∧ checkPennant s.otp s.dev pen0 1 8#384 true = 0
         ∧ s.dev.get SEC_RNG_OK = 1 ∧ s.dev.sess.length = 8 ∧ 0 < 8 ∧ (s.dev.ses 0).st = .free
         ∧ (∀ m, m < 0 → (s.dev.ses m).st ≠ .free) ∧ (∀ m, m < 8 → (s.dev.ses m).st ≠ .free → (s.dev.ses m).host ≠ pen0.host))
    ∧ (let s := on (sec0 (fun x => { x with bodies := [.commission 9#384 3] }))
       secWorks s.dev = true ∧ takeFirst PxmBody.isCommission s.dev.sec.bodies = (some (.commission 9#384 3), [])
         ∧ s.otp.slots.any (fun k => k.prog) = false)
    ∧ goodOtp.slots.any (fun k => k.prog) = true
    ∧ ((on (fun d => d.modSes 7 (fun x => { x with st := .accepted }))).dev.ses 7).st = .accepted
    ∧ (let s := on (fun d => (seg0 d).modSes 7 (fun x => { x with st := .opened, notAfter := 0 }))
       (s.dev.ses 7).st = .opened ∧ (s.dev.ses 7).live = false ∧ s.dev.aon.set = true ∧ (s.dev.ses 7).notAfter ≤ s.dev.nowSec)
    ∧ (let s := on ses0
       (s.dev.ses 0).live = true ∧ s.dev.nowSec < (s.dev.ses 0).notAfter ∧ (s.dev.ses 0).st ≠ .free ∧ 0 < s.dev.sess.length)
    ∧ (Admits (on ses0) (.session 0) 1 (regAddr 0x28 0x080) [(0x0000000F#32).toNat] ∧ bitOf (0x0000000F#32).toNat 3 = true
      ∧ bitsOf (0x0000000F#32).toNat 2 0 = 7)
    ∧ ((on ses0).dev.get TWIN_STAT_ROLE ≠ 2 ∧ 7 ≠ 1 ∧ scopePage ((on ses0).dev.ses 1).scope 0x28 = false)
    ∧ (let s := on (fun d => (seg0 (ses0 d)).modSes 0 (fun y => { y with txPn := [0xF0000000, 1] }))
       (s.dev.ses 0).st ≠ .free ∧ txRolls s.dev 0 0 = true ∧ txRolls s.dev 0 1 = false) := by
  simp -zeta only [admits_iff]; decide +kernel

theorem witness_OperationsRunOnce :
    (let s := on ses0
     5710 < 2 ^ 13 ∧ Admits s (.session 0) 1 (regAddr 0x28 0x088) [1 * 2 ^ 13 + 5710] ∧ opRuns s.dev 0 = false
       ∧ s.dev.sec.hellos.length + s.dev.sec.ops.length < 5)
    ∧ (let s := on (fun d => (ses0 d).set (PEN_OPSTAT_STATE 0) 1)
       Admits s (.session 0) 1 (regAddr 0x28 0x088) [1 * 2 ^ 13 + 5710] ∧ opRuns s.dev 0 = true)
    ∧ (let s := on (fun d => { ses0 d with sec := { d.sec with ops := List.replicate 5 (op0 0x40 .none) } })
       Admits s (.session 0) 1 (regAddr 0x28 0x088) [1 * 2 ^ 13 + 5710] ∧ opRuns s.dev 0 = false ∧ 5 ≤ s.dev.sec.hellos.length + s.dev.sec.ops.length) := by
  simp -zeta only [admits_iff]; decide +kernel

theorem witness_OperationsRunOnce_rows :
    (let s := opState0 0x02 (.digest 0#384);
       (.arm, 0x01) ∈ opCommands ∧ s.dev.sec.ops = [op0 0x02 (.digest 0#384)] ∧ 0x02 ≠ 0x01 ∧ opListed 0x02 = true)
    ∧ (let s := on (sec0 (fun y => { y with ops := [op0 0x40 .none] }))
       (.debug, 0x40) ∈ opCommands ∧ OpReady s (op0 0x40 .none) [] 0x40
         ∧ checkPennant s.otp s.dev (op0 0x40 .none).pennant 2 8#384 true ≠ 0)
    ∧ (∀ cx ∈ [(0x01, Operand.digestTick 5#384 9), (0x02, .digest 0#384), (0x02, .digest 5#384), (0x10, .enroll 0 3 7#256 true),
          (0x11, .chNode 0 3), (0x12, .none), (0x13, .chNode 0 3), (0x20, .page 0x100), (0x30, .digest 5#384), (0x40, .none),
          (0x50, .floor 6), (0x51, .slot 0), (0x52, .slotHash 3 9#384), (0x60, .none)],
        OpReady (opState0 cx.1 cx.2) (op0 cx.1 cx.2) [] cx.1
          ∧ checkPennant goodOtp (opState0 cx.1 cx.2).dev (op0 cx.1 cx.2).pennant 2 8#384 true = 0) := by
  unfold OpReady; decide +kernel

theorem witness_OperationsRunOnce_operands :
    (let s := (opState0 0x01 (.digestTick 5#384 9)).put { (seg0 (staged0 4 Dev.reset)) with
          sec := { Dev.reset.sec with ops := [op0 0x01 (.digestTick 5#384 9)] } };
       armReason s.dev 5#384 9 = 0 ∧ armReason s.dev 6#384 9 ≠ 0)
    ∧ (opState0 0x10 .none).dev.hasChan 0 = true
    ∧ (let s := (opState0 0x10 (.enroll 0 3 7#256 true)).put ((opState0 0x10 (.enroll 0 3 7#256 true)).dev.modChan 0
          (fun x => { x with nodeSet := 8 }))
       nodeOk s.dev 0 3 = true)
    ∧ (let s := opState0 0x50 (.floor 6)
       elemAt 0 s.dev.flash.floors 0 < 6 ∧ 0 ≤ elemAt 0 s.dev.flash.floors 0)
    ∧ (let o := { goodOtp with slots := putAt goodOtp.slots 1 ⟨true, 0#384, false⟩ }
       0 < o.slots.length ∧ 1 ≠ 0 ∧ o.usable 1 = true)
    ∧ (goodOtp.slot 3).prog = false
    ∧ (let s := (opState0 0x02 (.digest 0#384)).put { (opState0 0x02 (.digest 0#384)).dev with flash := { Flash.reset with previous := some pkg0 } }
       s.dev.flash.previous ≠ none)
    ∧ (let s := (opState0 0x10 .none).put ((opState0 0x10 .none).dev.modChan 0 (fun x => { x with cur := some key0 }))
       0 < s.dev.chans.length ∧ (slotKey s.dev 0 0).isSome = true)
    ∧ populated (opState0 0x20 .none).dev.part 0x100 = true
    ∧ (let s := on (fun d => { (seg0 d).set SEC_MODE_DEBUG 1 with sec := { d.sec with debugUntil := 0 } })
       s.dev.powered = true ∧ s.dev.get SEC_MODE_DEBUG = 1 ∧ s.dev.sec.debugUntil ≤ s.dev.nowSec) := by
  decide +kernel

/-! ## Witnesses: twin operation -/

theorem reset_no_peer_flight : ∀ c, ((twin0 2 Dev.reset).chan c).peerFlight = none :=
  chan_all (fun x => x.peerFlight = none) (twin0 2 Dev.reset) 64 (by decide +kernel) (by decide +kernel) rfl

theorem witness_HeadshipMoves :
    linked State.reset.dev = false
    ∧ (let s := on (twin0 1); s.dev.powered = true ∧ linked s.dev = true ∧ s.dev.isHead = true)
    ∧ (let s := on (twin0 2); linked s.dev = true ∧ s.dev.isHead = false ∧ (hb0 false).head = false ∧ (hb0 false).badTag = false)
    ∧ { hb0 true with badTag := true }.badTag = true
    ∧ (let s := on (twin0 0); linked s.dev = true ∧ (hb0 true).head = true ∧ s.dev.get TWIN_STAT_ROLE = 0)
    ∧ (let f := { hb0 true with vigil := true }
       let s := on (twin0 2)
       f.head = true ∧ f.vigil = true ∧ f.recs = [] ∧ s.dev.get TWIN_STAT_ROLE = 2 ∧ s.dev.get DEV_VIGSTAT_STATE = 0)
    ∧ (let f := { hb0 true with wake := true }
       let s := on (fun d => (twin0 2 d).set DEV_VIGSTAT_STATE 2)
       f.head = true ∧ f.vigil = false ∧ f.wake = true ∧ f.recs = [] ∧ s.dev.get TWIN_STAT_ROLE = 2
         ∧ s.dev.get DEV_VIGSTAT_STATE = 2 ∧ s.dev.vigHeld = [])
    ∧ ((hb0 true).head = true ∧ (hb0 true).vigil = false ∧ (hb0 true).wake = false)
    ∧ (let s := on (fun d => (twin0 2 d).modTwin (fun t => { t with lineLow := true }))
       s.dev.get TWIN_STAT_ROLE = 2 ∧ s.dev.twin.lineLow = true)
    ∧ ¬ ((on (twin0 2)).dev.get TWIN_STAT_ROLE = 2 ∧ (on (twin0 2)).dev.twin.lineLow = true)
    ∧ (on (fun d => (twin0 2 d).modTwin (fun t => { t with commitOk := true }))).dev.twin.commitOk = true
    ∧ (on (twin0 2)).dev.twin.commitOk = false
    ∧ (on (twin0 1)).dev.get TWIN_STAT_ROLE ≠ 2
    ∧ (let d := (q0 ent0 Dev.reset).modChan 0 (fun x => { x with peerFlight := some ⟨0, 0x20, 0⟩ })
       0 < d.chans.length ∧ (d.chan 0).peerFlight = some ⟨0, 0x20, 0⟩ ∧ d.entry 0 0x20 = some ent0 ∧ ent0.idx = 0x20)
    ∧ (let s := on (fun d => (ses0 (twin0 1 d)).set TWIN_STAT_PREADY 1)
       Admits s (.session 0) 1 (regAddr 0x70 0x054) [1] ∧ s.dev.isHead = true ∧ s.dev.get TWIN_STAT_LINK = 1
         ∧ s.dev.get TWIN_STAT_PREADY = 1)
    ∧ (let s := on (fun d => ses0 (twin0 1 d))
       Admits s (.session 0) 1 (regAddr 0x70 0x054) [1] ∧ s.dev.get TWIN_STAT_PREADY = 0)
    ∧ (let s := on (twin0 0); s.dev.get TWIN_STAT_ROLE = 0 ∧ s.dev.twin.lineLow = false) := by
  simp -zeta only [admits_iff]; decide +kernel

theorem witness_PartnersPairAndSynchronise :
    (State.reset.dev.powered = true ∧ linked State.reset.dev = false)
    ∧ ((on (twin0 1)).dev.powered = true ∧ linked (on (twin0 1)).dev = true)
    ∧ (⟨1#128, true, false⟩ : PairMsg).whole = false
    ∧ (let m : PairMsg := ⟨1#128, true, true⟩
       m.sigOk = true ∧ namedPeer State.reset.dev = 0 ∧ State.reset.dev.isHead = false)
    ∧ (let m : PairMsg := ⟨1#128, true, true⟩
       m.peer.toNat ≠ namedPeer (on (twin0 1)).dev ∧ (on (twin0 1)).dev.isHead = true)
    ∧ follows (on (twin0 1)).dev = false
    ∧ (let s := on (join0 4 true true true)
       s.dev.powered = true ∧ follows s.dev = true ∧ s.dev.get TWIN_SYNC_PHASE ≠ 0 ∧ s.dev.twin.gotSnapshot = true
         ∧ s.dev.twin.missing = 0 ∧ s.dev.hasChan 63 = true ∧ 63 < s.dev.chans.length ∧ s.dev.get TWIN_SYNC_PHASE = 4
         ∧ 2 ≤ s.dev.twin.deltas ∧ s.dev.twin.deltas < 3)
    ∧ (let s := on (fun d => { join0 1 false false false d with flash := { d.flash with active := some pkg0 } })
       follows s.dev = true ∧ s.dev.get TWIN_SYNC_PHASE ≠ 0
         ∧ s.dev.flash.active.map (fun x => x.digest) = some pkg0.digest ∧ s.dev.twin.gotActive = false ∧ s.dev.twin.gotKeys = false)
    ∧ (let s := on (join0 2 true true false); follows s.dev = true ∧ s.dev.twin.gotActive = true ∧ s.dev.twin.gotKeys = true)
    ∧ (let s := on (fun d => (join0 1 false false false d).set CFG_STAT_STAGED 4); follows s.dev = true ∧ stagedSt s.dev = 4)
    ∧ (let s := on (join0 1 false false false)
       follows s.dev = true ∧ 1 ≤ s.dev.get TWIN_SYNC_PHASE ∧ s.dev.get TWIN_SYNC_PHASE ≤ 4)
    ∧ 5 ≤ (on (join0 5 true true true)).dev.get TWIN_SYNC_PHASE := by decide +kernel

/-- A header of a URT message, and a frame, that lie in their widths. -/
def okHdr : UrtHdr := hdr 1
def okFrame : RxFrame := ⟨2, 0x010204, 4, 1, false, true, 1, 3, 0, [0], 0, 0, .clean, 0, false, false, false⟩

-- Well-formedness: each check refuses a term that fails it.

theorem test_wellFormed_accepts :
    wellFormed (.frameReception 26 okFrame) = true ∧ wellFormed (.read okHdr 0x02147000) = true
    ∧ wellFormed (.push k0 63 16383) = true ∧ wellFormed (.claim (.session 7) 11 1023 15) = true := by decide +kernel
theorem test_wellFormed_refuses_channels_pages_and_sessions :
    wellFormed (.bellMissed 64) = false ∧ wellFormed (.faultAck k0 512) = false ∧ wellFormed (.sessionExpiry 8) = false
    ∧ wellFormed (.autoUnfence 0 0) = false ∧ wellFormed (.autoUnfence 0 32) = false
    ∧ wellFormed (.commitPoint ⟨[⟨64, false, .lost, 0, false⟩], []⟩) = false ∧ wellFormed (.commitPoint ⟨[], [64]⟩) = false
    ∧ wellFormed (.transmitCopy 0 ⟨16384, false⟩) = false := by decide +kernel
theorem test_wellFormed_refuses_initiators :
    wellFormed (.gateCommit (.steward 4 .s)) = false ∧ wellFormed (.gateCommit (.session 8)) = false
    ∧ wellFormed (.gateCommit (.mill 9)) = false ∧ wellFormed (.bistStart (some (.mill 9)) 0) = false := by decide +kernel
theorem test_wellFormed_refuses_headers_and_fragments :
    wellFormed (.ping { okHdr with ver := 16 }) = false ∧ wellFormed (.ping { okHdr with sess := 256 }) = false
    ∧ wellFormed (.ping { okHdr with xid := 65536 }) = false ∧ wellFormed (.ping { okHdr with count := 65536 }) = false
    ∧ wellFormed (.ping { okHdr with an := 4 }) = false ∧ wellFormed (.ping { okHdr with pn := 2 ^ 32 }) = false
    ∧ wellFormed (.pxmFragment { frag0 with xid := 65536 }) = false
    ∧ wellFormed (.pxmFragment { frag0 with total := 65536 }) = false ∧ wellFormed (.pxmFragment { frag0 with nfrag := 16 }) = false
    ∧ wellFormed (.pxmFragment { frag0 with data := List.replicate 1401 0 }) = false ∧ wellFormed (.pxmFragment frag0) = true := by decide +kernel
theorem test_wellFormed_refuses_frames :
    wellFormed (.frameReception 0 { okFrame with c := 8 }) = false
    ∧ wellFormed (.frameReception 0 { okFrame with mid := 2 ^ 22 }) = false
    ∧ wellFormed (.frameReception 0 { okFrame with src := 32 }) = false
    ∧ wellFormed (.frameReception 0 { okFrame with ft := 8 }) = false
    ∧ wellFormed (.frameReception 0 { okFrame with seq := 65536 }) = false
    ∧ wellFormed (.frameReception 0 { okFrame with hcrc := 65536 }) = false
    ∧ wellFormed (.frameReception 0 { okFrame with crc := 2 ^ 32 }) = false
    ∧ wellFormed (.frameReception 0 { okFrame with len := 2 }) = false
    ∧ wellFormed (.frameReception 0 { okFrame with len := 1024, payload := List.replicate 1024 0 }) = false
    ∧ wellFormed (.frameAttempt 0 ⟨.whole, 2, 1, .lost, false⟩) = false := by decide +kernel
theorem test_wellFormed_refuses_power_operands :
    wellFormed (.inputLost false false) = false ∧ wellFormed (.holdLow 65536) = false ∧ wellFormed (.railDev 6) = false
    ∧ wellFormed (.holdCharged 65536) = false ∧ wellFormed (.railReturn 6) = false
    ∧ wellFormed (.faultPinPulseEnd 4) = false := by decide +kernel
theorem test_wellFormed_refuses_uplink_operands :
    wellFormed (.read okHdr (2 ^ 32)) = false ∧ wellFormed (.bwrite okHdr 0 (List.replicate 257 0)) = false
    ∧ wellFormed (.evack okHdr (2 ^ 32)) = false ∧ wellFormed (.event 0 65) = false
    ∧ wellFormed (.pxmTimeout .a 0 65536) = false ∧ wellFormed (.unknownOp okHdr 16) = false
    ∧ wellFormed (.registerWrite k0 (2 ^ 32) 0) = false ∧ wellFormed (.cfgLoad k0 (2 ^ 17)) = false
    ∧ wellFormed (.penOpgo k0 (2 ^ 13) 0) = false ∧ wellFormed (.penOpgo k0 0 (2 ^ 19)) = false
    ∧ wellFormed (.cfgLoadFirst k0 0 (2 ^ 14)) = false := by decide +kernel
theorem test_wellFormed_refuses_engine_operands :
    wellFormed (.lateBell 0 ⟨0, false, .lost, 0, false⟩) = false ∧ wellFormed (.timedOutputMissed 4096) = false
    ∧ wellFormed (.rxrel k0 0 0 256) = false ∧ wellFormed (.pfpop k0 8 0) = false ∧ wellFormed (.pfpop k0 0 128) = false
    ∧ wellFormed (.lockstepMismatch 9 0 ⟨0, []⟩) = false ∧ wellFormed (.lockstepMismatch 0 5 ⟨0, []⟩) = false
    ∧ wellFormed (.lockstepMismatch 0 0 ⟨8, []⟩) = false
    ∧ wellFormed (.lockstepMismatch 0 0 ⟨0, [(9, 0, 0)]⟩) = false ∧ wellFormed (.hamMigtime 8) = false
    ∧ wellFormed (.bistComplete 9 true) = false ∧ wellFormed (.soerel k0 65536) = false := by decide +kernel
theorem test_wellFormed_refuses_controller_and_time_operands :
    wellFormed (.swdb k0 1024) = false ∧ wellFormed (.sourceMask k0 1024 true) = false ∧ wellFormed (.delivery 1023) = false
    ∧ wellFormed (.claim k0 12 0 0) = false ∧ wellFormed (.claim k0 0 1024 0) = false ∧ wellFormed (.claim k0 0 0 16) = false
    ∧ wellFormed (.complete k0 12 0) = false ∧ wellFormed (.retraction 4) = false ∧ wellFormed (.coalescingRelease 64) = false
    ∧ wellFormed (.sync .a ⟨⟨2 ^ 48, 0, 0⟩, none⟩) = false ∧ wellFormed (.sync .a ⟨⟨0, 0, 0⟩, some ⟨0, 1000000000, 0⟩⟩) = false
    ∧ wellFormed (.announce .a (2 ^ 64) ⟨0, 0⟩) = false ∧ wellFormed (.announce .a 0 ⟨0, 65536⟩) = false
    ∧ wellFormed (.hbReceived { hb0 true with tick := 2 ^ 24 }) = false := by decide +kernel

/-- No row of the table has bits, so no word spells a command. -/
theorem test_no_word_spells_a_command : decodeTableWord 32 0x1234 = none ∧ decodeTableWord 0 0 = none := by decide +kernel

-- Values that the spec gives, or that a standard it names gives.

/-- 02: channel 17 has pages 0x144 to 0x147, and its CHS page starts at 0x0214_7000. -/
theorem test_channel_seventeen : pCHC 17 = 0x144 ∧ pCHS 17 = 0x147 ∧ regAddr (pCHS 17) 0 = 0x02147000 := by decide +kernel
/-- 03, the tank farm: the data-phase bits of its frames. -/
theorem test_data_phase_bits :
    dataBits 32 true = 443 ∧ dataBits 16 true = 266 + 33 ∧ dataBits 64 true = 650 + 81 ∧ dataBits 0 true = 138 + 17 := by
  decide +kernel
/-- 04, the compressor station: 36 bits and four dynamic stuff bits. -/
theorem test_arbitration_bits : arbBits 2 0x004100 7 2 true true = 40 := by decide +kernel
/-- R88: the reset setting of a channel meets R87. -/
theorem test_reset_line_setting :
    timingOk (Dev.reset.getW (CHC_LINE 0)) (Dev.reset.getW (CHC_ABT 0)) (Dev.reset.getW (CHC_DBT 0)) = true := by decide +kernel
/-- 05, the pump house: with AGELIM = 3, W = 4 promotes the entry from EC 7 to EC 6. -/
theorem test_aging :
    (let e : TxEntry := { ent0 with c := 7, ec := 7, mid := 0x0A0200, retry := 0, w := 3, due := 1 }
     let d := ((Dev.reset.set (CHT_AGELIM_AGELIM 2) 3).modChan 2 (fun x => { x with tx := [e] }))
     let d := ageEntry d 2 e
     (d.entry 2 0x20).map (fun e => (e.ec, e.w, e.proms)) = some (6, 0, 1) ∧ d.get (CHT_MISC_PROM 2) = 1) := by decide +kernel
/-- 06, the flow-metering segment: keys and buckets of nodes 4 and 9 of channel 26. -/
theorem test_buckets :
    matchKey 26 okFrame = 0x88204084 ∧ bucketOf 0x88204084 = 108
    ∧ matchKey 26 { okFrame with ft := 2, mid := 0x020010, src := 9 } = 0x90400209 ∧ bucketOf 0x90400209 = 219
    ∧ granAddr 5000 = 0x0044E200 := by decide +kernel
/-- 07, the dosing segment: a score of 91 and an error give 99 and WARN; 189 and an error give 197 and the fence. -/
theorem test_score :
    (let d := scoreEvent ((seg0 Dev.reset).set (CHS_NODE_SCORE 0 12) 91) 0 12 true
     d.get (CHS_NODE_SCORE 0 12) = 99 ∧ d.get (CHS_NODE_WARN 0 12) = 1 ∧ fenced d 0 12 = false)
    ∧ (let d := scoreEvent ((seg0 Dev.reset).set (CHS_NODE_SCORE 0 12) 189) 0 12 true
       d.get (CHS_NODE_SCORE 0 12) = 197 ∧ fenced d 0 12 = true) := by decide +kernel
/-- 09: HW and IV of the tagged DATA frame of its example. -/
theorem test_header_word_and_iv :
    headerWord 3 0x010204 5 1 true true 16 3 = 0x60810214E0800018
    ∧ ivOf 5 0x010204 3 0x12345678 = 0x2820408000600002468ACF00
    := by decide +kernel
/-- FIPS 197, AES-256, example C.3. -/
theorem test_aes :
    aes256 0x000102030405060708090a0b0c0d0e0f101112131415161718191a1b1c1d1e1f#256 0x00112233445566778899aabbccddeeff
      = 0x8ea2b7ca516745bfeafc49904b496089 := by decide +kernel
/-- GCM, AES-256, all zeros and no data: the first 64 bits of the tag. -/
theorem test_gmac : gmac 0#256 0 [] = 0x530f8afbc74536b9#64 := by decide +kernel
/-- FIPS 180-4, SHA-384 of "abc". -/
theorem test_sha384 :
    sha384 [0x61, 0x62, 0x63] =
      0xcb00753f45a35e8bb5a03d699ac65007272c32ab0eded1631a8b605a43ff5bed8086072ba1e7cc2358baeca134c825a7#384 := by
  decide +kernel
/-- 12, the dosing setpoint: apply time 5,000 s + 102 ms, the LATE flag, and the setpoint. -/
theorem test_timed_output_payload :
    toPayload ⟨17, 3, 9, 0x021006, 5000102000000, 5000102, true, true, [0x01, 0xF4], none, false⟩
      = [0x00, 0x00, 0x13, 0x88, 0x86, 0x14, 0x65, 0x80, 0x01, 0xF4] := by decide +kernel
/-- 16, channel 21: LDLY_RANGE sets a timer of 1,000 us, and TXD_TIMEOUT 300 us later one of min(700, 250) us. -/
theorem test_escalation_timer :
    (let d := raise (seg0 Dev.reset) 0x154 1
     let e := raise (d.pass 150000) 0x154 0
     (d.page 0x154).timer = some (d.aon.cycles + 500000) ∧ (e.page 0x154).timer = some (e.aon.cycles + 125000)) := by
  decide +kernel
/-- 17, the bulk write into the load window: the record of the refused BWRITE of session 5. -/
theorem test_bulk_write_into_the_load_window :
    (let s := on (fun d => ({ (d.modSes 5 (fun x => { x with st := .opened, live := true, notAfter := 4000000000,
                                                              scope := { allScope with pages := 1 } }))
                              with ups := [⟨true⟩, ⟨false⟩] }).set GATE_GEN_GEN 7)
     let u : UrtHdr := { hdr 32 with assoc := some 5, sess := 5 }
     (match exec (.bwrite u 0x00FDFFC0 (List.replicate 32 0xFF#32)) s with
      | .next t => [t.dev.getW GATE_VADDR, t.dev.getW GATE_VBYTE, t.dev.getW GATE_VINFO, natOf (t.dev.memB 0x00FDFFC0 64)]
      | _ => []) = [0x00FDFFC0, 0x00FE0000, 0x95547007, natOf (s.dev.memB 0x00FDFFC0 64)]) := by decide +kernel

/-- 08: in a hamlet where only channel 3 has traffic, it is served in all eight slots of a turn. -/
theorem test_lent_slots :
    (let d := (seg0 Dev.reset).modChan 3 (fun x => { x with hold := [held0] })
     (List.range 8).all (fun k => slotHolder d 0 k == some 3) = true) := by decide +kernel
/-- R99: a sixth equal bit is a stuff error: five dominant bits of the identifier are read, and no more. -/
theorem test_six_equal_bits : (cutBits (List.replicate 6 false)).length = 5 := by decide +kernel

end Sys2Proof.Tests
end

section
/-! What the commit point leaves alone. COMMIT_POINT runs through most of the part: the fault machinery, packages, keys, curfew,
queues, sessions, services and the mills. An invariant that is closed under the changes that they make is kept by each of its
steps; what it says of the bell block is then what the steps between Cn and Bn leave of it. -/

namespace Sys2Proof.Machine

open Sys2Proof

/-- The part at the advance of the tick number: device time stands at Cn, and the work of the tick in force is closed (R75 step 1);
before the first bell there is no such work. -/
def beforeTick (d : Dev) : Dev :=
  let cn := nextBell d - commitLead
  let d := d.advanceTo cn
  let d := if d.bell.started then checkWork (if d.isHead then d.forEach d.chanList endTick else d) cn else d
  d.forEach d.hamList noteSlots

/-- The steps from the advance of the tick number to Bn (R75 steps 2 to 5). -/
def afterTick (d : Dev) (b : Nat) (l : List BellLine) (between : List Nat) : Dev :=
  let d := switchImage ((commitAll d).forEach between (betweenPiece b))
  let d := firstBell ((d.advanceTo b).ist 2 0)
  d.forEach d.chanList (fun d c => ringChan d c (lineOf l c))

theorem commitPoint_idle {d : Dev} (hr : ringing d = false) (l : List BellLine) (between : List Nat) :
    commitPoint d l between = d := if_pos hr

theorem commitPoint_vigil {d : Dev} (hr : ringing d = true) (hv : d.get DEV_VIGSTAT_STATE = 2) (l : List BellLine)
    (between : List Nat) : commitPoint d l between = passTick d := by
  rw [commitPoint, if_neg (by simp [hr]), if_pos hv]

theorem commitPoint_awake {d : Dev} (hr : ringing d = true) (hv : d.get DEV_VIGSTAT_STATE ≠ 2) (l : List BellLine)
    (between : List Nat) : commitPoint d l between = afterTick (advanceTick (beforeTick d)) (nextBell d) l between := by
  rw [commitPoint, if_neg (by simp [hr]), if_neg hv]
  rfl

/-- The invariant is closed under what the steps of a commit point can change: what a fault can change, the rest of the part but for
its power and its straps, and of the bell block the marks of the work (R78, R79). -/
structure CommitStable (I : Dev → Prop) : Prop extends FaultStable I where
  mem : ∀ d m, I d → I { d with mem := m }
  svc : ∀ d v, I d → I { d with svc := v }
  cfg : ∀ d v, I d → I { d with cfg := v }
  flash : ∀ d v, I d → I { d with flash := v }
  aon : ∀ d v, I d → I { d with aon := v }
  tim : ∀ d v, I d → I { d with tim := v }
  intc : ∀ d v, I d → I { d with intc := v }
  sec : ∀ d v, I d → I { d with sec := v }
  twin : ∀ d v, I d → I { d with twin := v }
  out : ∀ d l, I d → I { d with out := l }
  fresh : ∀ d n, I d → I { d with fresh := n }
  pins : ∀ d v, I d → I { d with pins := v }
  locks : ∀ d v w, I d → I { d with cert := v, certPend := w }
  pending : ∀ d l m, I d → I { d with shadows := l, shadowOld := m }
  closed : ∀ d n, I d → I { d with bell := { d.bell with closed := n } }
  late : ∀ d l, I d → I { d with bell := { d.bell with lateHam := l } }
  force : ∀ d old pkg area boot, I d → I (Machine.takeForce d old pkg area boot)

namespace CommitStable

variable {I : Dev → Prop} (h : CommitStable I) {d : Dev}
include h

/-! ### The shared operations -/

theorem incWrap (f : Fld) (hd : I d) : I (d.incWrap f) := h.set _ _ hd
theorem setSes (s : Nat) (x : Sess) (hd : I d) : I (d.setSes s x) := h.sess _ _ hd
theorem setMemB (a : Nat) (l : List Byte) (hd : I d) : I (d.setMemB a l) := h.mem _ _ hd
theorem setMemW (a x : Nat) (hd : I d) : I (d.setMemW a x) := h.mem _ _ hd
theorem modCfg (f : CfgSt → CfgSt) (hd : I d) : I (d.modCfg f) := h.cfg _ _ hd
theorem modFlash (f : Flash → Flash) (hd : I d) : I (d.modFlash f) := h.flash _ _ hd
theorem modTwin (f : TwinSt → TwinSt) (hd : I d) : I (d.modTwin f) := h.twin _ _ hd
theorem setDom (x : Nat) (m : Dom) (hd : I d) : I (d.setDom x m) := h.tim _ _ hd
theorem emit (o : Out) (hd : I d) : I (d.emit o) := h.out _ _ hd
theorem next (hd : I d) : I d.next := h.fresh _ _ hd
theorem pass (n : Nat) (hd : I d) : I (d.pass n) := h.aon _ _ hd

theorem advanceTo (ns : Nat) (hd : I d) : I (d.advanceTo ns) := by
  unfold Dev.advanceTo
  split
  · exact h.aon _ _ hd
  · exact hd

theorem raised : ∀ d p s, I d → I (Machine.raise d p s) := fun _ p s hd => h.raise p s hd

omit h in
theorem endAttempt (c i : Nat) {f : Dev → Nat → TxEntry → Dev} (hf : ∀ e, I (f d c e)) (hd : I d) :
    I (endAttempt d c i f) := by
  unfold Machine.endAttempt
  split
  · exact hf _
  · exact hd

theorem skipSched (c : Nat) (p : TxEntry → Bool) (hd : I d) : I (skipSched d c p) :=
  FaultStable.forEach _ _ (fun _ _ he => h.putEntry _ _ (h.ist _ _ (h.inc _ he))) hd

theorem renewSched (c : Nat) (hd : I d) : I (renewSched d c) :=
  FaultStable.forEach _ _ (fun _ _ he => h.putEntry _ _ he) hd

/-! ### Device time (13) -/

theorem domTo (x st : Nat) (hd : I d) : I (domTo d x st) := by
  unfold Machine.domTo
  extract_lets was side ask
  have h1 : I (d.set (TIME_DSTAT_STATE x) st) := h.set _ _ hd
  exact FaultStable.iff _ _ h1 (h.emit _ (h.inc _ h1))

theorem leaveHoldover (hd : I d) : I (leaveHoldover d) := h.condEnd _ _ (h.ist _ _ (h.set _ _ (h.set _ _ hd)))

theorem enterHoldover (hd : I d) : I (enterHoldover d) := by
  unfold Machine.enterHoldover
  extract_lets d1
  have h1 : I d1 := h.set _ _ (h.ist _ _ (h.inc _ (h.set _ _ (h.set _ _ hd))))
  clear_value d1
  exact h.tim { d1 with aon := { d1.aon with rate := d1.aon.learned } } _ (h.aon d1 _ h1)

theorem reselect (x : Nat) (hd : I d) : I (reselect d x) := by
  unfold Machine.reselect
  refine FaultStable.ite _ hd ?_
  split
  · exact FaultStable.ite _ (FaultStable.ite _ hd (h.set _ _ (h.inc _ (h.ist _ _ (h.set _ _ hd)))))
      (h.set _ _ (h.set _ _ (h.leaveHoldover hd)))
  · exact FaultStable.ite _ (h.enterHoldover hd) hd

theorem domAbsent (x : Nat) (hd : I d) : I (domAbsent d x) := by
  unfold Machine.domAbsent
  extract_lets st d1 m d2 d3
  have h2 : I d2 := h.setDom _ _ (h.domTo _ _ (h.condEnd _ _ (h.set _ _ (h.set _ _ hd))))
  have h3 : I d3 := FaultStable.ite _ (h.raise _ _ (h.inc _ (h.ist _ _ h2))) h2
  exact FaultStable.ite _ hd (h.reselect _ h3)

/-! ### Packages (11) -/

theorem raiseGen (hd : I d) : I (raiseGen d) := FaultStable.ite _ hd (h.modCfg _ (h.incWrap _ hd))

theorem genPages (pkg : Package) (hd : I d) : I (genPages d pkg) :=
  FaultStable.forEach _ _ (fun _ _ he => FaultStable.ite _ (h.setW _ _ he) he) hd

theorem setRoles (x y z : Option Package) (l : List Nat) (m : List (Option Nat)) (hd : I d) : I (setRoles d x y z l m) :=
  h.modFlash _ hd

theorem returnRoles (act : Option Package) (hd : I d) : I (returnRoles d act) :=
  FaultStable.ite _ (h.setRoles _ _ _ _ _ hd)
    (h.set _ _ (h.set _ _ (h.setRoles _ _ _ _ _ (h.set _ _ (h.modCfg _ (h.modFlash _ hd))))))

theorem endProbation (hd : I d) : I (endProbation d) := h.modCfg _ (h.set _ _ (h.set _ _ hd))
theorem countCommit (hd : I d) : I (countCommit d) := h.ist _ _ (h.inc _ hd)
theorem recordReturn (cause : Nat) (hd : I d) : I (recordReturn d cause) := h.ist _ _ (h.inc _ (h.setW _ _ hd))

theorem startProbation (n : Nat) (hd : I d) : I (startProbation d n) :=
  FaultStable.ite _ (h.ist _ _ (h.modCfg _ hd)) (h.set _ _ (h.set _ _ (h.modCfg _ hd)))

theorem returnOp (cause : Nat) (hd : I d) : I (returnOp d cause) := by
  unfold Machine.returnOp
  split
  · exact h.raise _ _ (h.recordReturn _ (h.endProbation hd))
  · exact h.raise _ _ (h.recordReturn _ (h.countCommit (h.genPages _ (h.raiseGen
      (h.force _ _ _ _ _ (h.endProbation (h.returnRoles _ hd)))))))

theorem exchangeOp (hd : I d) : I (exchangeOp d) := by
  unfold Machine.exchangeOp
  split
  · exact hd
  · extract_lets old d1 d2 d3 d4
    have h1 : I d1 := h.setRoles _ _ _ _ _ hd
    have h2 : I d2 := FaultStable.ite _ (h.set _ _ h1) h1
    exact h.recordReturn _ (h.countCommit (h.genPages _ (h.raiseGen (h.force _ _ _ _ _ h2))))

theorem manualReturnOp (hd : I d) : I (manualReturnOp d) :=
  FaultStable.ite _ (h.returnOp _ (h.modCfg _ hd)) (h.exchangeOp (h.modCfg _ hd))

theorem commitPackage (hd : I d) : I (commitPackage d) := by
  unfold Machine.commitPackage
  split
  · exact hd
  · exact h.condEnd _ _ (h.countCommit (h.startProbation _ (h.genPages _ (h.raiseGen (h.force _ _ _ _ _
      (h.modCfg _ (h.set _ _ (h.set _ _ (h.setRoles _ _ _ _ _ hd)))))))))

theorem packageTick (hd : I d) : I (packageTick d) := by
  unfold Machine.packageTick
  extract_lets d1
  have h1 : I d1 := FaultStable.ite _ (h.manualReturnOp hd) (FaultStable.ite _ (h.returnOp _ hd) hd)
  exact FaultStable.ite _ (h.commitPackage h1) h1

theorem noteFailure (t : Nat) (hd : I d) : I (noteFailure d t) := FaultStable.ite _ (h.modCfg _ hd) hd

theorem probationTick (hd : I d) : I (probationTick d) := by
  unfold Machine.probationTick
  extract_lets live d1 left d2
  have h1 : I d1 := FaultStable.ite _ (h.modCfg _ hd) hd
  have h2 : I d2 := h.noteFailure _ (h.set _ _ h1)
  exact FaultStable.ite _ hd (FaultStable.ite _ (h.ist _ _ (h.endProbation h2)) h2)

/-! ### Shadows and the locks of certified mode (02, 10) -/

theorem commitShadow (e : Nat × Nat × Word) (hd : I d) : I (commitShadow d e) := by
  unfold Machine.commitShadow
  extract_lets k p off old new d1
  have h1 : I d1 := h.setW _ _ (h.setW _ _ hd)
  exact FaultStable.ite _ (h.domAbsent _ h1) h1

theorem commitShadows (hd : I d) : I (commitShadows d) :=
  FaultStable.ite _ hd (FaultStable.forEach _ _ (fun _ e he => h.commitShadow e he) (h.raiseGen (h.pending _ _ _ hd)))

theorem certLocks (hd : I d) : I (certLocks d) :=
  FaultStable.ite _ hd (FaultStable.forEach _ _ (fun _ _ he => h.setBit _ _ _ he) (h.set _ _ (h.locks _ _ _ hd)))

/-! ### A channel at the commit point (04, 07, 09, 14) -/

theorem lineCfg (c : Nat) (hd : I d) : I (lineCfg d c) := h.raise _ _ (h.ist _ _ hd)

theorem lineCommit (c : Nat) (hd : I d) : I (lineCommit d c) := by
  unfold Machine.lineCommit
  extract_lets l a w new mode was d1 d2
  have h1 : I d1 := h.modChan _ _ hd
  have h2 : I d2 := FaultStable.ite _ h1 (FaultStable.ite _ (h.modChan _ _ h1) (h.lineCfg _ h1))
  exact FaultStable.ite _ (h.lineCfg _ h2) h2

theorem unfence (c a : Nat) (pennant : Bool) (hd : I d) : I (unfence d c a pennant) := by
  unfold Machine.unfence
  extract_lets d1 d2 d3
  have h1 : I d1 := h.set _ _ (h.set _ _ (h.setBit _ _ _ hd))
  have h3 : I d3 := h.modChan _ _ (h.ist _ _ (h.setBit _ _ _ (h.set _ _ h1)))
  exact FaultStable.ite _ hd (FaultStable.ite _ (h.inc _ h3) (h.inc _ h3))

theorem unfences (c : Nat) (hd : I d) : I (unfences d c) := by
  unfold Machine.unfences
  extract_lets d1 d2
  have h2 : I d2 := h.modChan _ _ (FaultStable.forEach _ _ (fun _ _ he => h.unfence _ _ _ he) hd)
  exact FaultStable.ite _ (FaultStable.forEach _ _ (fun _ _ he => h.unfence _ _ _ he) h2) h2

theorem deadlineOp (c t : Nat) (hd : I d) : I (deadlineOp d c t) := by
  unfold Machine.deadlineOp
  extract_lets x d1
  have h1 : I d1 := h.ist _ _ hd
  exact FaultStable.ite _ hd (FaultStable.ite _ (h.modChan _ _ hd)
    (FaultStable.ite _ (h.modChan _ _ (h.inc _ (h.inc _ h1))) (h.modChan _ _ h1)))

theorem activate (c t : Nat) (hd : I d) : I (activate d c t) :=
  h.ist _ _ (h.inc _ (h.set _ _ (h.zero _ (h.modChan _ _ hd))))

theorem epochCommit (c t : Nat) (hd : I d) : I (epochCommit d c t) := by
  unfold Machine.epochCommit
  extract_lets d1 d2
  have h1 : I d1 := FaultStable.ite _ (h.modChan _ _ hd) hd
  have h2 : I d2 := h.deadlineOp _ _ h1
  exact FaultStable.ite _ h1 (FaultStable.ite _ (h.activate _ _ h2) h2)

theorem curfewCommitAt (c t : Nat) (hd : I d) : I (curfewCommitAt d c t) :=
  FaultStable.ite _ (h.modChan _ _ (h.ist _ _ (h.set _ _ hd))) hd

theorem curfewCallAt (c t idle cfg : Nat) (hd : I d) : I (curfewCallAt d c t idle cfg) :=
  FaultStable.ite _ (h.modChan _ _ (h.ist _ _ (h.inc _ (h.set _ _ hd)))) hd

theorem curfewTick (c t : Nat) (hd : I d) : I (curfewTick d c t) := by
  unfold Machine.curfewTick
  extract_lets d1 d2 d3 d4 d5 st
  have h2 : I d2 := h.add _ _ (FaultStable.ite _ (h.curfewCause _ _ hd) hd)
  have h3 : I d3 := FaultStable.ite _ (h.modChan _ _ h2) h2
  exact h.modChan _ _ (h.curfewCallAt _ _ _ _ (h.curfewCommitAt _ _ h3))

theorem commitChan (c : Nat) (hd : I d) : I (commitChan d c) := by
  unfold Machine.commitChan
  extract_lets d1 d2 d3 d4 d5
  have h3 : I d3 := h.epochCommit _ _ (h.unfences _ (h.modChan _ _ (h.lineCommit _ hd)))
  have h4 : I d4 := FaultStable.ite _ h3 (FaultStable.ite _ (h.curfewTick _ _ h3) (h.add _ _ h3))
  exact h.modChan _ _ (h.renewSched _ h4)

/-! ### Interrupts, operations, mills and sessions (08, 10, 15) -/

theorem retractIneligible (old : Dev) (hd : I d) : I (retractIneligible old d) :=
  FaultStable.forEach _ _ (fun _ _ he => FaultStable.iff _ _ he (FaultStable.iff _ _ he (h.inc _ (h.set _ _ he)))) hd

theorem withdraw (n : Nat) (hd : I d) : I (withdraw d n) :=
  FaultStable.ite _ hd (FaultStable.forEach _ _ (fun _ _ he => FaultStable.iff _ _ he (h.set _ _ he)) hd)

theorem settleOffers (old : Dev) (hd : I d) : I (settleOffers old d) :=
  h.retractIneligible _ (FaultStable.forEach _ _ (fun _ _ he => FaultStable.iff _ _ he (h.withdraw _ he)) hd)

theorem unfenceDone (hd : I d) : I (unfenceDone d) :=
  FaultStable.forEach _ _ (fun _ _ he => FaultStable.ite _ (h.ist _ _ (h.set _ _ (h.set _ _ he))) he) hd

theorem millSpare (m : Nat) (hd : I d) : I (millSpare d m) := by
  unfold Machine.millSpare
  extract_lets x d1
  have h1 : I d1 := h.modPage _ _ (h.inc _ hd)
  exact FaultStable.ite _ (FaultStable.ite _ (FaultStable.ite _ (h.latchOff _ h1) (h.setMill _ _ (h.set _ _ h1)))
    (h.setMill _ _ (h.set _ _ hd))) hd

theorem hostRetract (s : Nat) (hd : I d) : I (hostRetract d s) := h.intc _ _ (h.add _ _ hd)

theorem endSession (s : Nat) (keep : OpReq → Bool) (hd : I d) : I (endSession d s keep) := by
  unfold Machine.endSession
  extract_lets opened d1 d2 d3 sec d4 d5
  have h3 : I d3 := FaultStable.forEach _ _ (fun _ _ he => h.set _ _ he) (h.setSes _ _ (h.hostRetract _ hd))
  have h5 : I d5 := FaultStable.forEach _ _ (fun _ _ he => h.set _ _ he) (h.sec _ _ h3)
  exact FaultStable.ite _ hd (FaultStable.ite _ (h.ist _ _ h5) h5)

theorem sessionExpiry (s : Nat) (hd : I d) : I (sessionExpiry d s) := FaultStable.ite _ (h.endSession _ _ hd) hd

/-! ### Timed outputs and the partner (12, 18) -/

theorem toEnd (k st t : Nat) (hd : I d) : I (toEnd d k st t) := by
  unfold Machine.toEnd
  split
  · exact hd
  · extract_lets d1 d2 d3 d4 v d5
    have h1 : I d1 := h.post _ _ (h.setW _ _ hd)
    have h2 : I d2 := FaultStable.ite _ (h.inc _ h1) (FaultStable.ite _ (h.inc _ h1) (FaultStable.ite _ (h.inc _ h1) h1))
    have h3 : I d3 := FaultStable.iff _ _ h2 (h.ist _ _ h2)
    exact h.set _ _ (h.svc _ _ (h.ist _ _ h3))

theorem outMissed (o : TimedOut) (hd : I d) : I (outMissed d o) := by
  unfold Machine.outMissed
  refine h.toEnd _ _ _ ?_
  split
  · exact endAttempt _ _ (fun _ => h.abortEntry _ _ hd) hd
  · exact hd

theorem modOut (k : Nat) (f : TimedOut → TimedOut) (hd : I d) : I (modOut d k f) := h.svc _ _ hd

theorem toRecompute (hd : I d) : I (toRecompute d) :=
  FaultStable.forEach _ _ (fun _ _ he => FaultStable.ite _ (h.modOut _ _ he)
    (FaultStable.ite _ (h.toEnd _ _ _ (h.ist _ _ (h.inc _ he))) (h.modOut _ _ (h.inc _ he)))) hd

theorem toPush (o : TimedOut) (hd : I d) : I (toPush d o) := by
  unfold Machine.toPush
  extract_lets free
  split
  · exact h.toEnd _ _ _ hd
  · exact h.pushOp h.raised _ _ _ (h.modOut _ _ (h.setMemB _ _ (h.desc _ _ _ _ (h.desc _ _ _ _ (h.desc _ _ _ _ hd)))))

theorem toPushDue (hd : I d) : I (toPushDue d) :=
  FaultStable.forEach _ _ (fun _ _ he => h.toPush _ he) (FaultStable.forEach _ _ (fun _ _ he => h.toEnd _ _ _ he) hd)

theorem commitNotice (hd : I d) : I (commitNotice d) :=
  FaultStable.ite _ (h.emit _ (h.modTwin _ (h.modTwin _ hd))) (h.modTwin _ hd)

/-! ### Steps 1, 2 and 4 of R75 -/

theorem endBell (c : Nat) (hd : I d) : I (endBell d c) :=
  FaultStable.ite _ hd (FaultStable.ite _ (h.modChan _ _ (h.inc _ hd)) (h.raise _ _ (h.modChan _ _ (h.ist _ _ (h.inc _ hd)))))

theorem endTick (c : Nat) (hd : I d) : I (endTick d c) :=
  h.skipSched _ _ (FaultStable.forEach _ _ (fun _ _ he => h.endEntry _ _ _ he)
    (FaultStable.forEach _ _ (fun _ _ he => h.outMissed _ he) (h.endBell _ hd)))

theorem checkWork (cn : Nat) (hd : I d) : I (checkWork d cn) := by
  unfold Machine.checkWork
  extract_lets late svc bell d1 d2 d3 d4 cfg d5
  have h2 : I d2 := h.chans _ _ (h.late _ _ hd)
  have h3 : I d3 := FaultStable.forEach _ _ (fun _ _ he => h.setMemW _ _ he) (h.set _ _ h2)
  exact FaultStable.ite _ (h.set _ _ h2) (h.raise _ _ (h.ist _ _ (h.cfg _ _ (h.setW _ _ (h.inc _ h3)))))

theorem noteSlots (k : Nat) (hd : I d) : I (noteSlots d k) := by
  unfold Machine.noteSlots
  extract_lets w m x d1 d2 load
  have h2 : I d2 := h.set _ _ (h.setHam _ _ hd)
  exact FaultStable.ite _ h2 (h.set _ _ (h.set _ _ h2))

theorem commitAll (hp : ∀ d, I d → I (placeNext d)) (hd : I d) : I (commitAll d) := by
  unfold Machine.commitAll
  extract_lets later old d1 d2 d3 d4 d5 d6 d7 d8 d9 d10
  have h1 : I d1 := FaultStable.forEach _ _ (fun _ _ he => h.modChan _ _ he) hd
  have h2 : I d2 := h.certLocks (h.commitShadows (h.packageTick (h.pending _ _ _ h1)))
  have h3 : I d3 := hp _ (h.pending _ _ _ h2)
  have h4 : I d4 := FaultStable.forEach _ _ (fun _ _ he => h.commitChan _ he) h3
  have h5 : I d5 := h.settleOffers _ (h.unfenceDone (h.probationTick h4))
  have h6 : I d6 := FaultStable.forEach _ _ (fun _ _ he => h.millSpare _ he) h5
  have h7 : I d7 := FaultStable.forEach _ _ (fun _ _ he => h.sessionExpiry _ he) h6
  have h8 : I d8 := FaultStable.ite _ (h.toRecompute h7) h7
  have h9 : I d9 := FaultStable.ite _ (h.toPushDue h8) h8
  have h10 : I d10 := FaultStable.ite _ (FaultStable.forEach _ _ (fun _ _ he => h.safePush h.raised _ he) h9) h9
  exact h.commitNotice h10

theorem markRecord (r bits : Nat) (hd : I d) : I (markRecord d r bits) := by
  unfold Machine.markRecord
  extract_lets front back dirty d1 w q changed d2 v d3 v' d4
  have h1 : I d1 := FaultStable.ite _ hd (FaultStable.forEach _ _ (fun _ _ he => h.setMemW _ _ he) hd)
  have h2 : I d2 := h.setMemW _ _ h1
  have h3 : I d3 := FaultStable.ite _ h2 (h.svc _ _ h2)
  have h4 : I d4 := FaultStable.ite _ (h.svc _ _ h3) h3
  exact h.inc _ h4

theorem switchImage (hd : I d) : I (switchImage d) :=
  FaultStable.forEach _ _ (fun _ r he => h.svc _ _ (h.markRecord r 128 he)) (h.ist _ _ (h.svc _ _ hd))

theorem firstBell (hd : I d) : I (firstBell d) :=
  FaultStable.ite _ hd (h.set _ _ (h.svc { d with pins := { d.pins with released := true } } _ (h.pins d _ hd)))

/-! ### Pieces of work of a mill (06, 08) -/

theorem serve {e : Dev} {c : Nat} {p : Piece} (hs : serve d c p = some e) (hd : I d) : I e := by
  simp only [Machine.serve] at hs
  split at hs
  · cases hs
  · split at hs
    · cases hs
    · split at hs
      · rw [← Option.some.inj hs]
        exact h.setHam _ _ (h.pass _ hd)
      · cases hs

theorem ageEntry (c : Nat) (e : TxEntry) (hd : I d) : I (ageEntry d c e) :=
  FaultStable.ite _ (h.ist _ _ (h.inc _ (h.desc _ _ _ _ (h.modChan _ _ hd)))) (h.modChan _ _ hd)

theorem applyDesc (r : RxDescInit) (hd : I d) : I (applyDesc d r) :=
  h.desc _ _ _ _ (h.desc _ _ _ _ (h.desc _ _ _ _ (h.desc _ _ _ _ hd)))

theorem boundWork (c : Nat) (hd : I d) : I (boundWork d c) := by
  unfold Machine.boundWork
  extract_lets d1 d2 d3
  have h1 : I d1 := FaultStable.forEach _ _ (fun _ _ he =>
    FaultStable.forEach _ _ (fun _ _ hx => endAttempt _ _ (fun _ => h.ageEntry _ _ hx) hx) he) hd
  have h2 : I d2 := FaultStable.forEach _ _ (fun _ _ he => h.applyDesc _ he) h1
  have h3 : I d3 := FaultStable.forEach _ _ (fun _ _ he => h.abortEntry _ _ he) h2
  exact h.modChan _ _ h3

theorem tickWork (c : Nat) (hd : I d) : I (tickWork d c) := by
  unfold Machine.tickWork
  refine FaultStable.ite _ hd ?_
  split
  · next hs => exact h.boundWork _ (h.serve hs hd)
  · exact hd

theorem copyEntry (c : Nat) (e : TxEntry) (ecc : Bool) (hd : I d) : I (copyEntry d c e ecc) := by
  unfold Machine.copyEntry
  extract_lets i w0 w1 w2 cp e'
  refine FaultStable.ite _ (h.raise _ _ (h.endEntry _ _ _ hd))
    (FaultStable.ite _ (h.raise _ _ (h.ist _ _ (h.endEntry _ _ _ hd))) ?_)
  split
  · exact FaultStable.ite _ (h.scopeRefused h.raised _ _ _ _ (h.endEntry _ _ _ hd)) (h.modChan _ _ hd)
  · exact h.modChan _ _ hd

theorem transmitCopy (c i : Nat) (ecc : Bool) (hd : I d) : I (transmitCopy d c i ecc) := by
  unfold Machine.transmitCopy
  split
  · exact hd
  · split
    · next hs => exact h.copyEntry _ _ _ (h.serve hs hd)
    · exact hd

theorem pinfold (c : Nat) (x : Held) (hd : I d) : I (pinfold d c x) := by
  unfold Machine.pinfold
  extract_lets k f d1 full d2 d3 i w0 w1 tag d4
  have h1 : I d1 := FaultStable.ite _ (h.inc _ hd) (FaultStable.ite _ (h.inc _ hd)
    (FaultStable.ite _ (h.inc _ hd) (h.inc _ hd)))
  have h2 : I d2 := FaultStable.iff _ _ h1 (h.ist _ _ (h.inc _ h1))
  have h3 : I d3 := FaultStable.ite _ (h.set _ _ (h.set _ _ h2)) h2
  have h4 : I d4 := FaultStable.forEach _ _ (fun _ _ he => h.setW _ _ he) h3
  exact FaultStable.ite _ h1 (FaultStable.ite _ h2 (h.postAll _ _ (h.ist _ _ (h.set _ _ h4))))

theorem confirm (c : Nat) (f : RxFrame) (hd : I d) : I (confirm d c f) :=
  FaultStable.ite _ (FaultStable.iff _ _ (h.setBit _ _ _ hd) (h.ist _ _ (h.setBit _ _ _ hd))) hd

theorem putPayload (g : Nat) (l : List Byte) (hd : I d) : I (putPayload d g l) :=
  FaultStable.ite _ (h.setMemB _ _ hd) (h.next (h.setMemB _ _ hd))

theorem placeBuf (c i : Nat) (x : Held) (ecc : Bool) (hd : I d) : I (placeBuf d c i x ecc).1 := by
  unfold Machine.placeBuf
  extract_lets w0 maxlen depth sg gran w3 wr full ovf d1 rd fill f l d2 d3 head d4 d5 d6
  have h1 : I d1 := FaultStable.iff _ _ hd (h.ist _ _ (h.inc _ hd))
  have h2 : I d2 := FaultStable.iff _ _ h1 (h.inc _ h1)
  have h6 : I d6 := h.inc _ (h.desc _ _ _ _ (h.setMemB _ _ (h.putPayload _ _ h2)))
  split
  · exact h.raise _ _ hd
  · split
    · exact h.raise _ _ hd
    · split
      · exact h.desc _ _ _ _ h1
      · dsimp only
        exact FaultStable.iff _ _ h6 (h.ist _ _ h6)

theorem writeRecord (k r v qual tick ns : Nat) (hd : I d) : I (writeRecord d k r v qual tick ns) :=
  h.inc _ (h.svc _ _ (h.setMemW _ _ (h.setMemW _ _ (h.setMemW _ _ (h.setMemW _ _ hd)))))

theorem piAction (c m : Nat) (x : Held) (hd : I d) : I (piAction d c m x) := by
  unfold Machine.piAction
  split
  · exact h.inc _ hd
  · exact FaultStable.forEach _ _
      (fun _ _ he => FaultStable.ite _ (h.inc _ he) (h.writeRecord _ _ _ _ _ _ he)) hd

theorem soeAction (c : Nat) (x : Held) (hd : I d) : I (soeAction d c x) := by
  unfold Machine.soeAction
  extract_lets full d1 d2 i f byte d3 d4 d5
  have h1 : I d1 := FaultStable.iff _ _ hd (h.ist _ _ (h.inc _ hd))
  have h2 : I d2 := FaultStable.ite _ (h.set _ _ (h.set _ _ h1)) h1
  have h4 : I d4 := h.set _ _ (h.set _ _ (h.setMemB _ _ h2))
  exact FaultStable.ite _ h1 (h.svc _ _ (h.ist _ _ (h.inc _ h4)))

theorem uplAction (src uplq w0 w3 : Nat) (hd : I d) : I (uplAction d src uplq w0 w3) :=
  FaultStable.forEach _ _ (fun _ _ he => h.post _ _ he) hd

theorem holdRaise (g : Nat) (hd : I d) : I (holdRaise d g) := by
  unfold Machine.holdRaise
  extract_lets v d1 d2
  have h2 : I d2 := h.inc _ (FaultStable.ite _ (h.intc _ _ hd) hd)
  exact FaultStable.ite _ (h.intc _ _ (h.set _ _ h2)) h2

theorem intcRaise (n data : Nat) (hd : I d) : I (intcRaise d n data) :=
  FaultStable.ite _ (h.ist _ _ (h.inc _ hd)) (FaultStable.ite _ (h.holdRaise _ (h.intc _ _ hd)) (h.intc _ _ hd))

theorem actions (c aw0 aw1 : Nat) (x : Held) (ecc : Bool) (hd : I d) : I (actions d c aw0 aw1 x ecc) := by
  unfold Machine.actions
  extract_lets i
  have h0 : I (if bitOf aw0 16 = true then Machine.placeBuf d c i x ecc else (d, none)).1 := by
    split
    · exact h.placeBuf _ _ _ _ hd
    · exact hd
  split
  next d1 slot heq =>
  rw [heq] at h0
  extract_lets d2 d3 w3 d4
  have h2 : I d2 := FaultStable.ite _ (h.piAction _ _ _ h0) h0
  have h3 : I d3 := FaultStable.ite _ (h.soeAction _ _ h2) h2
  have h4 : I d4 := FaultStable.ite _ (h.uplAction _ _ _ _ h3) h3
  exact FaultStable.ite _ (h.intcRaise _ _ h4) h4

theorem placeAccepted (c : Nat) (x : Held) (e : MemErr) (hd : I d) : I (placeAccepted d c x e) := by
  unfold Machine.placeAccepted
  refine FaultStable.ite _ (h.inc _ hd) (FaultStable.ite _ (h.confirm _ _ hd) (FaultStable.ite _ (h.raise _ _ hd) ?_))
  split
  extract_lets d1 d2
  have h1 : I d1 := h.ist _ _ (h.inc _ hd)
  have h2 : I d2 := FaultStable.ite _ (h.inc _ hd) (h.inc _ (h.inc _ hd))
  exact FaultStable.ite _ (FaultStable.ite _ (h.placeBuf _ _ _ _ h1) h1)
    (FaultStable.ite _ (h.inc _ h2) (h.actions _ _ _ _ _ h2))

theorem placeHeld (c : Nat) (e : MemErr) (hd : I d) : I (placeHeld d c e) := by
  unfold Machine.placeHeld
  split
  · exact hd
  · extract_lets d1 d2
    have h1 : I d1 := h.modChan _ _ hd
    have h2 : I d2 := FaultStable.ite _ (h.pinfold _ _ h1) (h.placeAccepted _ _ _ h1)
    exact h.closed _ _ h2

theorem placement (c : Nat) (e : MemErr) (hd : I d) : I (placement d c e) := by
  unfold Machine.placement
  refine FaultStable.ite _ hd ?_
  split
  · next hs => exact h.placeHeld _ _ (h.serve hs hd)
  · exact hd

theorem betweenPiece (b c : Nat) (hd : I d) : I (betweenPiece b d c) := by
  unfold Machine.betweenPiece
  extract_lets t
  refine FaultStable.ite _ ?_ hd
  unfold t
  split
  · exact h.tickWork _ hd
  · exact h.transmitCopy _ _ _ hd
  · exact h.placement _ _ hd
  · exact hd

/-! ### Step 5 of R75: the bell frame (03, 04, 07) -/

theorem loopDelay (c ns : Nat) (hd : I d) : I (loopDelay d c ns) := by
  unfold Machine.loopDelay
  extract_lets v first d1 d2 d3 dbt
  have h3 : I d3 := h.set _ _ (h.set _ _ (h.set _ _ hd))
  exact FaultStable.ite _ (h.raise _ _ (h.modChan _ _ (h.ist _ _ h3))) (h.condEnd _ _ (h.modChan _ _ h3))

theorem headTag (c cls mid ft : Nat) (dps : Bool) (seq : Nat) (payload : List Byte) (hd : I d) :
    I (headTag d c cls mid ft dps seq payload).1 := by
  unfold Machine.headTag
  split
  · exact hd
  · dsimp only
    exact h.modChan _ _ hd

theorem noteEnd (c t : Nat) (own : Bool) (hd : I d) : I (noteEnd d c t own) := by
  unfold Machine.noteEnd
  exact h.modChan _ _ hd

theorem notePhase (c sof cls mid ft : Nat) (a dps : Bool) (len : Nat) (hd : I d) :
    I (notePhase d c sof cls mid ft a dps len) := FaultStable.ite _ hd (h.modChan _ _ hd)

theorem busOffEnter (c : Nat) (hd : I d) : I (busOffEnter d c) := by
  unfold Machine.busOffEnter
  extract_lets d1 d2 d3
  have h2 : I d2 := h.raise _ _ (h.set _ _ (h.ist _ _ (h.inc _ (h.set _ _ hd))))
  exact h.curfewCause _ _ (FaultStable.ite _ (h.raise _ _ (h.modChan _ _ h2)) (h.modChan _ _ h2))

theorem setCounters (c tec rc : Nat) (hd : I d) : I (setCounters d c tec rc) := by
  unfold Machine.setCounters
  extract_lets t0 r0 t r d1 d2 d3 d4
  have h2 : I d2 := h.setB _ _ (h.set _ _ (h.set _ _ hd))
  have h3 : I d3 := FaultStable.iff _ _ h2 (h.ist _ _ h2)
  have h4 : I d4 := FaultStable.iff _ _ h3 (h.ist _ _ h3)
  exact FaultStable.ite _ (h.busOffEnter _ h4) (h.set _ _ h4)

theorem tecDown (c : Nat) (hd : I d) : I (tecDown d c) := FaultStable.ite _ (h.setCounters _ _ _ hd) hd
theorem tecUp (c : Nat) (hd : I d) : I (tecUp d c) := FaultStable.ite _ (h.setCounters _ _ _ hd) hd

theorem txError (c : Nat) (e : TxErr) (bell : Bool) (w0 w1 : Nat) (hd : I d) : I (txError d c e bell w0 w1) := by
  have h1 : I (errorFlag (d.inc (CHT_ERRCNT_COUNT c)) c (txFlagAt e)) := h.emit _ (h.inc _ hd)
  cases e with
  | bit _ => exact h.tecUp _ (h.inc _ h1)
  | ack => exact FaultStable.ite _ (h.inc _ h1) (h.tecUp _ (h.inc _ h1))
  | form _ => exact h.tecUp _ (h.inc _ h1)
  | flag => exact h.tecUp _ (h.inc _ h1)
  | authForge => exact h.tecUp _ (h.postAll _ _ (h.ist _ _ (h.inc _ (h.inc _ h1))))

theorem sendBell (c lag : Nat) (l : BellLine) (hd : I d) : I (sendBell d c lag l) := by
  unfold Machine.sendBell
  extract_lets d1 payload
  have h1 : I (Machine.headTag d1 c 0 0 0 true 0 payload).1 := h.headTag _ _ _ _ _ _ _ (h.loopDelay _ _ hd)
  split
  next d2 tag heq =>
  rw [heq] at h1
  extract_lets d3 sof fin d4 d5 d6 d7 d8
  have h5 : I d5 := h.modChan _ _ (h.notePhase _ _ _ _ _ _ _ _ (h.emit _ h1))
  have h6 : I d6 := FaultStable.ite _ (h.modChan _ _ (h.set _ _ (h.set _ _ (h.ist _ _ (h.inc _ h5))))) h5
  have h7 : I d7 := by
    unfold d7
    split
    · exact FaultStable.iff _ _ (h.tecDown _ h6) (h.modChan _ _ (h.inc _ (h.tecDown _ h6)))
    · exact h6
    · exact h.txError _ _ _ _ _ h6
  exact h.skipSched _ _ (h.modChan _ _ (h.noteEnd _ _ _ h7))

theorem ringChan (c : Nat) (l : BellLine) (hd : I d) : I (ringChan d c l) := by
  unfold Machine.ringChan
  extract_lets d1
  have h1 : I d1 := h.modChan _ _ hd
  exact FaultStable.ite _ hd (FaultStable.ite _ h1 (FaultStable.ite _ (h.modChan _ _ (h.inc _ hd))
    (FaultStable.ite _ hd (FaultStable.ite _ h1 (h.sendBell _ _ _ h1)))))

/-! ### The steps before and after the advance of the tick number -/

theorem beforeTick (hd : I d) : I (beforeTick d) := by
  unfold Machine.beforeTick
  extract_lets cn d1 d2
  have h1 : I d1 := h.advanceTo _ hd
  have h2 : I d2 := FaultStable.ite _
    (h.checkWork _ (FaultStable.ite _ (FaultStable.forEach _ _ (fun _ _ he => h.endTick _ he) h1) h1)) h1
  exact FaultStable.forEach _ _ (fun _ _ he => h.noteSlots _ he) h2

theorem afterTick (hp : ∀ d, I d → I (placeNext d)) (b : Nat) (l : List BellLine) (between : List Nat) (hd : I d) :
    I (afterTick d b l between) := by
  unfold Machine.afterTick
  extract_lets d1 d2
  have h1 : I d1 := h.switchImage (FaultStable.forEach _ _ (fun _ _ he => h.betweenPiece _ _ he) (h.commitAll hp hd))
  have h2 : I d2 := h.firstBell (h.ist _ _ (h.advanceTo _ h1))
  exact FaultStable.forEach _ _ (fun _ c he => h.ringChan c _ he) h2

end CommitStable

/-! ## What a commit point does to the bell -/

/-- What of the bell block the work of a tick leaves alone: the tick number in force, whether the first bell has rung, and the
instants of this bell and of the next. -/
def Dev.bells (d : Dev) : Nat × Bool × Nat × Nat := (d.bell.tick, d.bell.started, d.bell.inst, d.bell.next)

/-- What equal bells say, field by field. -/
theorem bells_fields {d e : Dev} (h : d.bells = e.bells) :
    d.tick = e.tick ∧ d.bell.started = e.bell.started ∧ d.bell.next = e.bell.next := by
  simp only [Dev.bells, Prod.mk.injEq] at h
  obtain ⟨htick, hstarted, -, hnext⟩ := h
  exact ⟨htick, hstarted, hnext⟩

/-- The bell in force: its tick number, that there is one, and its instant. The commit changes the instant of the next bell with
the period (R65), and not these. -/
def Dev.bellNow (d : Dev) : Nat × Bool × Nat := (d.bell.tick, d.bell.started, d.bell.inst)

/-- What is said of the bells alone is closed under the work of a commit point. -/
theorem commitStable_bells (P : Nat × Bool × Nat × Nat → Prop) : CommitStable (fun d => P d.bells) where
  regs _ _ hd := hd
  pages _ _ hd := hd
  chans _ _ hd := hd
  hams _ _ hd := hd
  mills _ _ hd := hd
  sess _ _ hd := hd
  desc _ _ _ _ hd := hd
  seen _ _ hd := hd
  pulses _ _ _ hd := hd
  mem _ _ hd := hd
  svc _ _ hd := hd
  cfg _ _ hd := hd
  flash _ _ hd := hd
  aon _ _ hd := hd
  tim _ _ hd := hd
  intc _ _ hd := hd
  sec _ _ hd := hd
  twin _ _ hd := hd
  out _ _ hd := hd
  fresh _ _ hd := hd
  pins _ _ hd := hd
  locks _ _ _ hd := hd
  pending _ _ _ hd := hd
  closed _ _ hd := hd
  late _ _ hd := hd
  force d old pkg area boot hd := by
    obtain ⟨-, -, -, -, hbell, -⟩ := base_fields (base_takeForce d old pkg area boot)
    rwa [Dev.bells, hbell]

theorem commitStable_bellNow (m : Nat × Bool × Nat) : CommitStable (fun d => d.bellNow = m) :=
  commitStable_bells (fun x => (x.1, x.2.1, x.2.2.1) = m)

theorem placeNext_bellNow (d : Dev) : (placeNext d).bellNow = d.bellNow := rfl

/-! ### The nominal instant of the bell that comes next (R62, R63) -/

theorem le_ceilTo {p : Nat} (hp : 0 < p) (t : Nat) : t ≤ ceilTo p t := by
  have hdiv := Nat.div_add_mod' (t + p - 1) p
  have hmod := Nat.mod_lt (t + p - 1) hp
  unfold ceilTo
  omega

theorem ceilTo_multiple (p k : Nat) : ceilTo p (k * p) = k * p := by
  rcases Nat.eq_zero_or_pos p with rfl | hp
  · rfl
  · have hq : (k * p + p - 1) / p = k := by
      rw [show k * p + p - 1 = p - 1 + k * p by omega, Nat.add_mul_div_right _ _ hp, Nat.div_eq_of_lt (by omega), Nat.zero_add]
    rw [ceilTo, hq]

theorem ceilTo_ceilTo (p t : Nat) : ceilTo p (ceilTo p t) = ceilTo p t := ceilTo_multiple p _

@[simp] theorem advanceTo_bell (d : Dev) (ns : Nat) : (d.advanceTo ns).bell = d.bell := by
  unfold Dev.advanceTo
  split <;> rfl

@[simp] theorem advanceTo_periodNs (d : Dev) (ns : Nat) : (d.advanceTo ns).periodNs = d.periodNs := by
  unfold Dev.advanceTo
  split <;> rfl

theorem advanceTo_nowNs (d : Dev) (ns : Nat) : (d.advanceTo ns).nowNs = max d.nowNs ns := by
  unfold Dev.advanceTo
  split
  · next hlt =>
    rw [Nat.max_eq_right (Nat.le_of_lt hlt)]
    exact Nat.mul_div_cancel ns (by decide)
  · next hge => rw [Nat.max_eq_left (Nat.le_of_not_lt hge)]

/-- Once the first bell has rung, the instant of the next is kept; before it, it follows from the clock and the period. -/
theorem nextBell_started {d : Dev} (hs : d.bell.started = true) : nextBell d = d.bell.next := by rw [nextBell, if_pos hs]

theorem nextBell_first {d : Dev} (hs : d.bell.started = false) :
    nextBell d = ceilTo d.periodNs (max d.bell.next (d.nowNs + commitLead)) := by
  rw [nextBell, if_neg (by rw [hs]; decide)]

/-- At Cn the bell that comes next is the one that came next before. -/
theorem nextBell_advanceTo (d : Dev) : nextBell (d.advanceTo (nextBell d - commitLead)) = nextBell d := by
  cases hs : d.bell.started with
  | true => rw [nextBell_started hs, nextBell_started (by simpa using hs), advanceTo_bell]
  | false =>
    rw [nextBell_first (d := d.advanceTo _) (by simpa using hs), advanceTo_bell, advanceTo_periodNs, advanceTo_nowNs]
    rcases Nat.lt_or_ge d.nowNs (nextBell d - commitLead) with hlt | hge
    · have hb := nextBell_first hs
      have hp : 0 < d.periodNs := by
        rcases Nat.eq_zero_or_pos d.periodNs with h0 | hp
        · rw [hb, h0, ceilTo, Nat.mul_zero] at hlt
          omega
        · exact hp
      have hle := le_ceilTo hp (max d.bell.next (d.nowNs + commitLead))
      rw [← hb] at hle
      rw [show max d.bell.next (max d.nowNs (nextBell d - commitLead) + commitLead) = nextBell d by omega, hb, ceilTo_ceilTo]
    · rw [Nat.max_eq_left hge, nextBell_first hs]

theorem set_periodNs {f : Fld} (hf : DEV_BPERIOD ≠ f.key) (d : Dev) (x : Nat) : (d.set f x).periodNs = d.periodNs := by
  rw [Dev.periodNs, Dev.periodNs, Dev.get, Dev.get, show DEV_BPERIOD_STEPS.key = DEV_BPERIOD from rfl, getW_set_ne d f x hf]

/-- The use of the wheels that a commit point notes is not in the register of the period. -/
theorem noteSlots_periodNs (d : Dev) (k : Nat) : (noteSlots d k).periodNs = d.periodNs := by
  have hlent : DEV_BPERIOD ≠ (HAM_WHEEL_LENT k).key := by
    simp only [DEV_BPERIOD, HAM_WHEEL_LENT, HAM_WHEEL, rkey]; omega
  have huse (m : Nat) : DEV_BPERIOD ≠ MILL_USE m := by
    simp only [DEV_BPERIOD, MILL_USE, rkey]; omega
  unfold noteSlots
  extract_lets w m x d1 d2 load
  have h2 : d2.periodNs = d.periodNs := set_periodNs hlent d1 _
  split
  · exact h2
  · exact (set_periodNs (huse m) _ _).trans ((set_periodNs (huse m) d2 _).trans h2)

theorem noteSlots_nowNs (d : Dev) (k : Nat) : (noteSlots d k).nowNs = d.nowNs := by
  unfold noteSlots
  extract_lets w m x d1 d2 load
  split <;> rfl

/-! ### The commit point -/

theorem advanceTick_bellNow (d : Dev) :
    (advanceTick d).bellNow =
      (if d.bell.started then (d.tick + 1) % 2 ^ 48 else nextBell d / d.periodNs, true, nextBell d) := rfl

theorem beforeTick_bells (d : Dev) : (beforeTick d).bells = d.bells :=
  (commitStable_bells (fun x => x = d.bells)).beforeTick rfl
theorem beforeTick_fields (d : Dev) :
    (beforeTick d).tick = d.tick ∧ (beforeTick d).bell.started = d.bell.started ∧ (beforeTick d).bell.next = d.bell.next :=
  bells_fields (beforeTick_bells d)

/-- Before the first bell nothing but the use of the wheels is noted. -/
theorem beforeTick_first {d : Dev} (hs : d.bell.started = false) :
    beforeTick d = (d.advanceTo (nextBell d - commitLead)).forEach
      (d.advanceTo (nextBell d - commitLead)).hamList noteSlots := by
  simp [beforeTick, hs]

theorem beforeTick_periodNs {d : Dev} (hs : d.bell.started = false) : (beforeTick d).periodNs = d.periodNs := by
  rw [beforeTick_first hs, forEach_same Dev.periodNs _ _ noteSlots_periodNs, advanceTo_periodNs]

theorem nextBell_beforeTick (d : Dev) : nextBell (beforeTick d) = nextBell d := by
  obtain ⟨-, hstarted, hnext⟩ := beforeTick_fields d
  cases hs : d.bell.started with
  | true => rw [nextBell_started hs, nextBell_started (hstarted.trans hs), hnext]
  | false =>
    have hnow : (beforeTick d).nowNs = (d.advanceTo (nextBell d - commitLead)).nowNs := by
      rw [beforeTick_first hs, forEach_same Dev.nowNs _ _ noteSlots_nowNs]
    calc nextBell (beforeTick d)
      _ = ceilTo (beforeTick d).periodNs (max (beforeTick d).bell.next ((beforeTick d).nowNs + commitLead)) :=
          nextBell_first (hstarted.trans hs)
      _ = nextBell (d.advanceTo (nextBell d - commitLead)) := by
          rw [beforeTick_periodNs hs, hnext, hnow, nextBell_first (d := d.advanceTo _) (by simpa using hs),
            advanceTo_bell, advanceTo_periodNs]
      _ = nextBell d := nextBell_advanceTo d

/-- The tick number that the commit point sets, and the bell that it places. -/
theorem advanceTick_beforeTick (d : Dev) : (advanceTick (beforeTick d)).bellNow = (advanceTick d).bellNow := by
  obtain ⟨htick, hstarted, -⟩ := beforeTick_fields d
  rw [advanceTick_bellNow, advanceTick_bellNow, hstarted, htick, nextBell_beforeTick]
  cases hs : d.bell.started with
  | true => rw [if_pos rfl, if_pos rfl]
  | false => rw [beforeTick_periodNs hs]

/-- Nothing after the advance of the tick number changes the bell in force. -/
theorem afterTick_bellNow (d : Dev) (b : Nat) (l : List BellLine) (between : List Nat) :
    (afterTick d b l between).bellNow = d.bellNow :=
  (commitStable_bellNow d.bellNow).afterTick (fun e he => (placeNext_bellNow e).trans he) b l between rfl

theorem passTick_bellNow (d : Dev) : (passTick d).bellNow = (advanceTick d).bellNow :=
  (commitStable_bellNow _).advanceTo _ rfl

/-- The bell in force after a commit point: the tick number one higher, or that of the first bell, at the instant that was due. -/
theorem commitPoint_bellNow {d : Dev} (hr : ringing d = true) (l : List BellLine) (between : List Nat) :
    (commitPoint d l between).bellNow = (advanceTick d).bellNow := by
  by_cases hv : d.get DEV_VIGSTAT_STATE = 2
  · rw [commitPoint_vigil hr hv, passTick_bellNow]
  · rw [commitPoint_awake hr hv, afterTick_bellNow, advanceTick_beforeTick]

theorem exec_commitPoint {s : State} (hp : s.dev.powered = true) (l : List BellLine) (b : List Nat) :
    exec (.commitPoint ⟨l, b⟩) s = .next (s.put (commitPoint s.dev l b)) :=
  congrArg Host.Outcome.next (if_pos hp)

theorem exec_commitPoint_idle {s : State} (hr : ringing s.dev = false) (l : List BellLine) (b : List Nat) :
    exec (.commitPoint ⟨l, b⟩) s = .next s := by
  cases hp : s.dev.powered with
  | true => rw [exec_commitPoint hp, commitPoint_idle hr]; rfl
  | false => exact congrArg Host.Outcome.next (if_neg (by simp [hp]))

/-- Settles O29: the tick number and the instant are those of `advanceTick`, which sees the same bell due as the part before the
commit point, and which nothing after it changes (R62, R63, R75). In vigil the commit point is `passTick` (R378; log entry 32),
and without set device time it does nothing (R341). -/
theorem commitPointAdvancesTheTick : Obligations.CommitPointAdvancesTheTick := by
  refine ⟨fun s l b hp hr => ?_, fun s l b hp hr hv => ?_, fun s l b hr => exec_commitPoint_idle hr l b⟩
  · have hbell := commitPoint_bellNow hr l b
    rw [advanceTick_bellNow] at hbell
    simp only [Dev.bellNow, Prod.mk.injEq] at hbell
    obtain ⟨htick, hstarted, hinst⟩ := hbell
    exact ⟨_, exec_commitPoint hp l b, rfl, rfl, htick, hstarted, hinst⟩
  · rw [exec_commitPoint hp, commitPoint_vigil hr hv, passTick]

end Sys2Proof.Machine
end

section
/-! The record of a fault (R402, R403). The detection of a fault writes the first record of its page, or counts in PG_FLTX while a
record stands; the rest of it (the escalation state of the page, the pins and the event) changes no register and no memory. -/

namespace Sys2Proof.Machine

open Sys2Proof

/-! ### The page that causes a SECONDARY fault (R412) -/

/-- What depends on a reset page is another page of its channel, or the reset page lies below the channels. -/
theorem dependsOn_lt {q p : Nat} {cov : Option Nat} (h : dependsOn q p cov = true) (hp : p < 512) : q < 512 := by
  by_cases hq : 0x100 ≤ q
  · simp only [dependsOn, if_pos hq, pageChan, Bool.and_eq_true, beq_iff_eq] at h
    omega
  · omega

/-- The page named as the cause has an open shadow, and the faulty page depends on it. -/
theorem shadowCause_dependsOn {d : Dev} {p q : Nat} (h : shadowCause d p = some q) : ∃ cov, dependsOn q p cov = true := by
  unfold shadowCause at h
  extract_lets opened earlier at h
  have hopened : ∀ e ∈ opened, dependsOn e.1 p e.2.cover = true := fun e he =>
    (Bool.and_eq_true_iff.mp (List.mem_filter.mp he).2).2
  have hearlier : ∀ a b, earlier a b = a ∨ earlier a b = b := fun a b => by
    unfold earlier
    split
    · exact .inr rfl
    · exact .inl rfl
  clear_value opened earlier
  cases opened with
  | nil => cases h
  | cons e l =>
    have hmem : l.foldl earlier e ∈ e :: l :=
      List.foldlRecOn (motive := (· ∈ e :: l)) l earlier (List.mem_cons_self ..) fun a ha b hb =>
        (hearlier a b).elim (fun h => h.symm ▸ ha) (fun h => h.symm ▸ List.mem_cons_of_mem e hb)
    cases h
    exact ⟨_, hopened _ hmem⟩

/-- The cause of a record fits its field. -/
theorem shadowCause_lt {d : Dev} {p : Nat} (hp : p < 512) : (shadowCause d p).getD 0 < 512 := by
  cases hq : shadowCause d p with
  | none => decide
  | some q =>
    obtain ⟨cov, hdep⟩ := shadowCause_dependsOn hq
    exact dependsOn_lt hdep hp

/-! ### The word of a record -/

/-- The word that a first cause writes to PG_FLT. -/
def fltWord (transient secondary : Bool) (sev cause code : Nat) : Nat :=
  2 ^ 31 + b2n transient * 2 ^ 30 + b2n secondary * 2 ^ 29 + sev * 2 ^ 24 + cause * 2 ^ 12 + code

/-- Code and severity of every source fit their fields. -/
theorem faultOf_fits {p n code sev : Nat} (h : faultOf p n = some (code, sev)) : code < 256 ∧ sev < 4 := by
  have hfits : (faultOf p n).all (fun x => decide (x.1 < 256 ∧ x.2 < 4)) = true := by
    simp [faultOf, apply_ite (Option.all _)]
  rw [h] at hfits
  exact of_decide_eq_true hfits

theorem b2n_le (b : Bool) : b2n b ≤ 1 := by cases b <;> decide

/-- The fields of a record's word are what it is made of. -/
theorem fltWord_fields (t s : Bool) {sev cause code : Nat} (hsev : sev < 4) (hcause : cause < 512) (hcode : code < 256) :
    let w := fltWord t s sev cause code
    w < 2 ^ 32 ∧ bitsOf w 31 31 = 1 ∧ bitsOf w 7 0 = code ∧ bitsOf w 25 24 = sev ∧ bitsOf w 29 29 = b2n s
      ∧ bitsOf w 20 12 = cause ∧ bitsOf w 30 30 = b2n t := by
  have ht := b2n_le t
  have hs := b2n_le s
  simp only [fltWord, bitsOf]
  omega

/-! ### What the detection writes -/

theorem PG_FLT_ne_PG_IST (p : Nat) : PG_FLT p ≠ PG_IST p := by simp [PG_FLT, PG_IST, rkey]
theorem PG_FLTX_ne_PG_IST (p : Nat) : PG_FLTX p ≠ PG_IST p := by simp [PG_FLTX, PG_IST, rkey]
theorem PG_FLTX_ne_PG_FLT (p : Nat) : PG_FLTX p ≠ PG_FLT p := by simp [PG_FLTX, PG_FLT, rkey]

/-- Equal words give equal fields. -/
theorem get_congr {d e : Dev} (h : e.getW = d.getW) (f : Fld) : e.get f = d.get f := by rw [Dev.get, Dev.get, h]

/-- The first cause writes PG_FLT and PG_IST.FLT (R402). -/
theorem recordFault_first {d : Dev} {p : Nat} (h : d.get (PG_FLT_VALID p) = 0) (n code sev : Nat) (forced : Bool) :
    (recordFault d p n code sev forced).1.getW = ((d.setW (PG_FLT p) (fltWord (!(isState p n && !forced))
        (shadowCause d p).isSome sev ((shadowCause d p).getD 0) code)).ist p 31).getW
      ∧ (recordFault d p n code sev forced).1.mem = d.mem := by
  simp only [recordFault, h, if_true]
  exact ⟨rfl, rfl⟩

/-- A later fault writes PG_FLTX (R403). -/
theorem recordFault_later {d : Dev} {p : Nat} (h : d.get (PG_FLT_VALID p) ≠ 0) (n code sev : Nat) (forced : Bool) :
    (recordFault d p n code sev forced).1.getW
        = ((d.inc (PG_FLTX_COUNT p)).set (PG_FLTX_MAXSEV p) (max (d.get (PG_FLTX_MAXSEV p)) sev)).getW
      ∧ (recordFault d p n code sev forced).1.mem = d.mem := by
  simp only [recordFault, h, if_false]
  exact ⟨rfl, rfl⟩

/-- The count and the severity of PG_FLTX are fields of one word that share no bit. -/
theorem fltx_apart (p : Nat) : (PG_FLTX_MAXSEV p).apart (PG_FLTX_COUNT p) = true := by
  simp [Fld.apart, PG_FLTX_MAXSEV, PG_FLTX_COUNT]

/-- The first cause as the registers then show it, when its code, severity and cause fit their fields. -/
theorem recordFault_first_reads {d : Dev} {p n code sev : Nat} (hv : d.get (PG_FLT_VALID p) = 0) (hcode : code < 256)
    (hsev : sev < 4) (hcause : (shadowCause d p).getD 0 < 512) (forced : Bool) :
    let e := (recordFault d p n code sev forced).1
    e.getW (PG_FLT p) = fltWord (!(isState p n && !forced)) (shadowCause d p).isSome sev ((shadowCause d p).getD 0) code
      ∧ e.bit (PG_IST p) 31 = true ∧ e.getW (PG_FLTX p) = d.getW (PG_FLTX p) := by
  obtain ⟨hlt, -⟩ := fltWord_fields (!(isState p n && !forced)) (shadowCause d p).isSome hsev hcause hcode
  obtain ⟨hregs, -⟩ := recordFault_first hv n code sev forced
  refine ⟨?_, ?_, ?_⟩
  · rw [hregs, getW_ist_ne _ (PG_FLT_ne_PG_IST p), getW_setW_same, Nat.mod_eq_of_lt hlt]
  · rw [Dev.bit, hregs]
    exact (bit_setBit _ (PG_IST p) 31 31 true (by decide)).trans (if_pos rfl)
  · rw [hregs, getW_ist_ne _ (PG_FLTX_ne_PG_IST p), getW_setW_ne _ (PG_FLTX_ne_PG_FLT p)]

/-- Settles O16: the record is one word, whose fields the code, the severity and the cause fit (R402, R412, R494); a later fault
writes the two fields of PG_FLTX (R403). -/
theorem firstCauseIsRecorded : Obligations.FirstCauseIsRecorded := by
  refine ⟨fun d p n code sev forced hf hp hv => ?_, fun d p n code sev forced hf hv => ?_⟩
  · obtain ⟨hcode, hsev⟩ := faultOf_fits hf
    have hcause := shadowCause_lt (d := d) (populated_lt hp)
    obtain ⟨hword, hist, hfltx⟩ := recordFault_first_reads (n := n) hv hcode hsev hcause forced
    obtain ⟨-, hvalid, hC, hS, hsec, hpage, htrans⟩ :=
      fltWord_fields (!(isState p n && !forced)) (shadowCause d p).isSome hsev hcause hcode
    rw [← hword] at hvalid hC hS hsec hpage htrans
    exact ⟨hvalid, hC, hS, hsec, hpage.trans (Nat.mod_eq_of_lt hcause).symm, htrans, hist, hfltx,
      (recordFault_first hv n code sev forced).2⟩
  · obtain ⟨-, hsev⟩ := faultOf_fits hf
    obtain ⟨hregs, hmem⟩ := recordFault_later hv n code sev forced
    have hmax : max (d.get (PG_FLTX_MAXSEV p)) sev < 4 := Nat.max_lt.mpr ⟨get_lt d _, hsev⟩
    refine ⟨?_, ?_, ?_, ?_, hmem⟩
    · rw [get_congr hregs, get_set_apart _ _ _ _ rfl (fltx_apart p), get_inc_same _ _ rfl]
      rfl
    · rw [get_congr hregs, get_set_same _ _ _ rfl]
      exact Nat.mod_eq_of_lt hmax
    · rw [hregs, getW_set_ne _ _ _ (PG_FLTX_ne_PG_FLT p).symm, getW_inc_ne _ _ (PG_FLTX_ne_PG_FLT p).symm]
    · rw [hregs, getW_set_ne _ _ _ (PG_FLTX_ne_PG_IST p).symm, getW_inc_ne _ _ (PG_FLTX_ne_PG_IST p).symm]

end Sys2Proof.Machine
end

section
/-! Every operation of the part keeps the memory in its canonical form (log entry 4): memory changes only by writing bytes and by
dropping cells. Registers and the tables of the part are beside it, so that an update of them needs no lemma. -/

namespace Sys2Proof.Machine

open Sys2Proof

/-- The memory of the part has its canonical form. -/
def MemOk (d : Dev) : Prop := Memory.wf d.mem = true

/-- What a fault changes of the memory it changes by writing descriptor words. -/
theorem memStable : FaultStable MemOk where
  regs _ _ hd := hd
  pages _ _ hd := hd
  chans _ _ hd := hd
  hams _ _ hd := hd
  mills _ _ hd := hd
  sess _ _ hd := hd
  desc d i j x hd := wf_setDesc d i j x hd
  seen _ _ hd := hd
  pulses _ _ _ hd := hd

theorem memRaised : ∀ d p s, MemOk d → MemOk (raise d p s) := fun _ p s hd => memStable.raise p s hd

/-! ### The shared shapes: a choice, a loop, a pair's first part -/

section shapes
variable {d e : Dev}

theorem memOk_ite {p : Prop} [Decidable p] (hd : MemOk d) (he : MemOk e) : MemOk (if p then d else e) := by
  split <;> assumption

theorem memOk_ite_fst {α : Type} {p : Prop} [Decidable p] {x y : Dev × α} (hx : MemOk x.1) (hy : MemOk y.1) :
    MemOk (if p then x else y).1 := by
  split <;> assumption

theorem memOk_iff {b : Bool} {f : Dev → Dev} (hf : ∀ {x}, MemOk x → MemOk (f x)) (hd : MemOk d) : MemOk (d.iff b f) :=
  iff_keeps MemOk b f d hd (hf hd)

theorem memOk_forEach {α : Type} {l : List α} {f : Dev → α → Dev} (hf : ∀ {x a}, MemOk x → MemOk (f x a))
    (hd : MemOk d) :
    MemOk (d.forEach l f) :=
  forEach_keeps MemOk l f (fun _ _ => hf) d hd

/-- What is beside the memory does not matter. -/
theorem memOk_mk
    {part step straps cert certPend aon flash regs shadows shadowAt shadowOld frozen mem pages chans hams mills
    sess ups reasm seen prp sec cfg svc tim intc gate pwr twin vigHeld vigSaved lastMsg bell pins out fresh}
    (h : Memory.wf mem = true) :
    MemOk ⟨part, step, straps, cert, certPend, aon, flash, regs, shadows, shadowAt, shadowOld, frozen, mem, pages, chans, hams,
      mills, sess, ups, reasm, seen, prp, sec, cfg, svc, tim, intc, gate, pwr, twin, vigHeld, vigSaved, lastMsg, bell, pins,
      out, fresh⟩ := h

theorem memOk_of_fst {α : Type} {x : Dev × α} {y : α} (heq : x = (e, y)) (hx : MemOk x.1) : MemOk e := by
  rwa [heq] at hx

end shapes

/-! ### The operations, in the order of the model -/

section operations
variable {d : Dev}

theorem memOk_incWrap {f : Fld} (hd : MemOk d) : MemOk (d.incWrap f) := memStable.set _ _ hd
theorem memOk_setChan {c : Nat} {x : Chan} (hd : MemOk d) : MemOk (d.setChan c x) := memOk_mk hd
theorem memOk_setSes {s : Nat} {x : Sess} (hd : MemOk d) : MemOk (d.setSes s x) := memOk_mk hd
theorem memOk_modSes {s : Nat} {f : Sess → Sess} (hd : MemOk d) : MemOk (d.modSes s f) := memOk_setSes hd
theorem memOk_setDom {x : Nat} {m : Dom} (hd : MemOk d) : MemOk (d.setDom x m) := memOk_mk hd
theorem memOk_next (hd : MemOk d) : MemOk d.next := memOk_mk hd
theorem memOk_pass {n : Nat} (hd : MemOk d) : MemOk (d.pass n) := memOk_mk hd
theorem memOk_advanceTo {ns : Nat} (hd : MemOk d) : MemOk (d.advanceTo ns) := memOk_ite (memOk_mk hd) hd
theorem memOk_setMemW {a x : Nat} (hd : MemOk d) : MemOk (d.setMemW a x) := wf_setMemW d a x hd
theorem memOk_setMemB {a : Nat} {l : List Byte} (hd : MemOk d) : MemOk (d.setMemB a l) := memOk_mk (wf_putAll _ _ _ hd)
theorem memOk_emit {o : Out} (hd : MemOk d) : MemOk (d.emit o) := memOk_mk hd
theorem memOk_usePn {s u n : Nat} (hd : MemOk d) : MemOk (d.usePn s u n) := memOk_modSes hd

theorem memOk_sendOn {x : Side} {n prp : Nat} {o : Out} (hd : MemOk d) : MemOk (d.sendOn x n prp o) := by
  unfold Dev.sendOn
  exact memOk_iff (fun he => by
    extract_lets d1
    have h1 : MemOk d1 := memStable.add _ _ he
    split
    · exact memOk_emit (memOk_usePn h1)
    · exact memOk_emit h1) hd

theorem memOk_sendFrames {n : Nat} {o : Out} (hd : MemOk d) : MemOk (d.sendFrames n o) :=
  memOk_sendOn (memOk_sendOn (memOk_mk hd))

theorem memOk_send {o : Out} (hd : MemOk d) : MemOk (d.send o) := memOk_sendFrames hd
theorem memOk_modTwin {f : TwinSt → TwinSt} (hd : MemOk d) : MemOk (d.modTwin f) := memOk_mk hd
theorem memOk_twinSend {o : Out} (hd : MemOk d) : MemOk (twinSend d o) := memOk_emit (memOk_modTwin hd)
theorem memOk_storeKeys {ks : List (Nat × Nat × BitVec 256)} (hd : MemOk d) : MemOk (d.storeKeys ks) := memOk_mk hd

theorem memOk_storeKey {c a : Nat} {k : Option (BitVec 256)} (hd : MemOk d) : MemOk (d.storeKey c a k) := by
  unfold Dev.storeKey
  extract_lets other x x2
  exact memOk_mk hd

theorem memOk_loadVault {storage : BitVec 256} (hd : MemOk d) : MemOk (d.loadVault storage) := memOk_mk hd
theorem memOk_draw (hd : MemOk d) : MemOk d.draw.1 := memOk_mk hd
theorem memOk_toCount (hd : MemOk d) : MemOk d.toCount := memStable.set _ _ hd

theorem memOk_toStatus {s ch h st sentTick : Nat} (hd : MemOk d) : MemOk (toStatus d s ch h st sentTick) := by
  unfold toStatus
  extract_lets d1
  have h1 : MemOk d1 := memStable.setW _ _ hd
  exact memStable.post _ _ h1

theorem memOk_toEnd {h st sentTick : Nat} (hd : MemOk d) : MemOk (toEnd d h st sentTick) := by
  unfold toEnd
  split
  · exact hd
  · extract_lets d1 d2 d3 d4 x d5
    have h1 : MemOk d1 := memOk_toStatus hd
    have h2 : MemOk d2 := memOk_ite (memStable.inc _ h1) (memOk_ite (memStable.inc _ h1) (memOk_ite
        (memStable.inc _ h1) h1))
    have h3 : MemOk d3 := memOk_iff (memStable.ist _ _) h2
    have h4 : MemOk d4 := memStable.ist _ _ h3
    have h5 : MemOk d5 := memOk_mk h4
    exact memOk_toCount h5

theorem memOk_enablePage {p : Nat} (hd : MemOk d) : MemOk (enablePage d p) := by
  unfold enablePage
  extract_lets d1
  have h1 : MemOk d1 := memStable.set _ _ hd
  exact memOk_ite (memStable.waitAfter _ _ h1) h1

theorem memOk_busOffEnter {c : Nat} (hd : MemOk d) : MemOk (busOffEnter d c) := by
  unfold busOffEnter
  extract_lets d1 d2 d3
  have h1 : MemOk d1 := memStable.ist _ _ (memStable.inc _ (memStable.set _ _ hd))
  have h2 : MemOk d2 := memStable.raise _ _ (memStable.set _ _ h1)
  have h3 : MemOk d3 := memOk_ite (memStable.raise _ _ (memStable.modChan _ _ h2)) (memStable.modChan _ _ h2)
  exact memStable.curfewCause _ _ h3

theorem memOk_setCounters {c tec rc : Nat} (hd : MemOk d) : MemOk (setCounters d c tec rc) := by
  unfold setCounters
  extract_lets t0 r0 tec rc d1 d2 d3 d4
  have h1 : MemOk d1 := memStable.set _ _ (memStable.set _ _ hd)
  have h2 : MemOk d2 := memStable.setB _ _ h1
  have h3 : MemOk d3 := memOk_iff (memStable.ist _ _) h2
  have h4 : MemOk d4 := memOk_iff (memStable.ist _ _) h3
  exact memOk_ite (memOk_busOffEnter h4) (memStable.set _ _ h4)

theorem memOk_tecDown {c : Nat} (hd : MemOk d) : MemOk (tecDown d c) := memOk_ite (memOk_setCounters hd) hd
theorem memOk_tecUp {c : Nat} (hd : MemOk d) : MemOk (tecUp d c) := memOk_ite (memOk_setCounters hd) hd
theorem memOk_recUp {c : Nat} (hd : MemOk d) : MemOk (recUp d c) := memOk_ite (memOk_setCounters hd) hd
theorem memOk_recDown {c : Nat} (hd : MemOk d) : MemOk (recDown d c) := memOk_ite (memOk_setCounters hd) hd

theorem memOk_fenceNode {c a : Nat} (hd : MemOk d) : MemOk (fenceNode d c a) := by
  unfold fenceNode
  extract_lets d1 d2
  have h1 : MemOk d1 := memStable.inc _ (memStable.inc _ hd)
  have h2 : MemOk d2 := memStable.ist _ _ (memStable.set _ _ (memStable.setBit _ _ _ h1))
  exact memStable.modChan _ _ h2

theorem memOk_setScore {c a s : Nat} (hd : MemOk d) : MemOk (setScore d c a s) := by
  unfold setScore
  extract_lets s0 d1 d2 d3
  have h1 : MemOk d1 := memStable.set _ _ hd
  have h2 : MemOk d2 := memStable.setBit _ _ _ (memStable.set _ _ h1)
  have h3 : MemOk d3 := memOk_iff (memStable.ist _ _) h2
  exact memOk_ite (memOk_fenceNode h3) h3

theorem memOk_scoreEvent {c a : Nat} {up : Bool} (hd : MemOk d) : MemOk (scoreEvent d c a up) := by
  unfold scoreEvent
  refine memOk_ite hd ?_
  refine memOk_ite (memStable.inc _ hd) ?_
  refine memOk_ite hd ?_
  extract_lets s
  exact memOk_setScore hd

theorem memOk_unfence {c a : Nat} {pennant : Bool} (hd : MemOk d) : MemOk (unfence d c a pennant) := by
  unfold unfence
  refine memOk_ite hd ?_
  extract_lets d1 d2 d3
  have h1 : MemOk d1 := memStable.set _ _ (memStable.set _ _ (memStable.setBit _ _ _ hd))
  have h2 : MemOk d2 := memStable.ist _ _ (memStable.setBit _ _ _ (memStable.set _ _ h1))
  have h3 : MemOk d3 := memStable.modChan _ _ h2
  exact memOk_ite (memStable.inc _ h3) (memStable.inc _ h3)

theorem memOk_lineCfg {c : Nat} (hd : MemOk d) : MemOk (lineCfg d c) := memStable.raise _ _ (memStable.ist _ _ hd)

theorem memOk_lineCommit {c : Nat} (hd : MemOk d) : MemOk (lineCommit d c) := by
  unfold lineCommit
  extract_lets l a b new mode was d1 d2
  have h1 : MemOk d1 := memStable.modChan _ _ hd
  have h2 : MemOk d2 := memOk_ite h1 (memOk_ite (memStable.modChan _ _ h1) (memOk_lineCfg h1))
  exact memOk_ite (memOk_lineCfg h2) h2

theorem memOk_headTag {c cls mid ft seq : Nat} {dps : Bool} {payload : List Byte} (hd : MemOk d) :
    MemOk (headTag d c cls mid ft dps seq payload).1 := by
  unfold headTag
  split
  · exact hd
  · exact memStable.modChan _ _ hd

theorem memOk_notePhase {c sof cls mid ft len : Nat} {a dps : Bool} (hd : MemOk d) :
    MemOk (notePhase d c sof cls mid ft a dps len) := by
  unfold notePhase
  refine memOk_ite hd ?_
  extract_lets t
  exact memStable.modChan _ _ hd

theorem memOk_noteEnd {c t : Nat} {own : Bool} (hd : MemOk d) : MemOk (noteEnd d c t own) := by
  unfold noteEnd
  extract_lets idle wait
  exact memStable.modChan _ _ hd

theorem memOk_errorFlag {c : Nat} {start : FlagAt} (hd : MemOk d) : MemOk (errorFlag d c start) := memOk_emit hd

theorem memOk_loopDelay {c ns : Nat} (hd : MemOk d) : MemOk (loopDelay d c ns) := by
  unfold loopDelay
  extract_lets v first d1 d2 d3 dbt
  have h1 : MemOk d1 := memStable.set _ _ hd
  have h2 : MemOk d2 := memStable.set _ _ h1
  have h3 : MemOk d3 := memStable.set _ _ h2
  exact memOk_ite (memStable.raise _ _ (memStable.modChan _ _ (memStable.ist _ _ h3))) (memStable.condEnd _ _
      (memStable.modChan _ _ h3))

theorem memOk_authForge {c w0 w1 : Nat} (hd : MemOk d) : MemOk (authForge d c w0 w1) := by
  unfold authForge
  extract_lets d1
  have h1 : MemOk d1 := memStable.ist _ _ (memStable.inc _ hd)
  exact memStable.postAll _ _ h1

theorem memOk_eofSeven {c t : Nat} (hd : MemOk d) : MemOk (eofSeven d c t) :=
  memStable.modChan _ _ (memStable.inc _ hd)

theorem memOk_txError {c : Nat} {e : TxErr} {bell : Bool} {w0 w1 : Nat} (hd : MemOk d) : MemOk
    (txError d c e bell w0 w1) := by
  have h1 : MemOk (errorFlag (d.inc (CHT_ERRCNT_COUNT c)) c (txFlagAt e)) := memOk_errorFlag (memStable.inc _ hd)
  cases e with
  | ack => exact memOk_ite (memStable.inc _ h1) (memOk_tecUp (memStable.inc _ h1))
  | authForge => exact memOk_tecUp (memOk_authForge (memStable.inc _ h1))
  | _ => exact memOk_tecUp (memStable.inc _ h1)

theorem memOk_skipEntry {c : Nat} {e : TxEntry} (hd : MemOk d) : MemOk (skipEntry d c e) :=
  memStable.putEntry _ _ (memStable.ist _ _ (memStable.inc _ hd))

theorem memOk_skipSched {c : Nat} {p : TxEntry → Bool} (hd : MemOk d) : MemOk (skipSched d c p) :=
  memOk_forEach memOk_skipEntry hd

theorem memOk_sendBell {c lag : Nat} {l : BellLine} (hd : MemOk d) : MemOk (sendBell d c lag l) := by
  unfold sendBell
  extract_lets d1 payload
  have h1 : MemOk d1 := memOk_loopDelay hd
  split
  next d2 tag heq =>
  have h2 : MemOk d2 := memOk_of_fst heq (memOk_headTag h1)
  extract_lets d3 sof fin d4 d5 d6 d7 d8
  have h4 : MemOk d4 := memOk_notePhase (memOk_emit h2)
  have h5 : MemOk d5 := memStable.modChan _ _ h4
  have h6 : MemOk d6 := memOk_ite (memStable.modChan _ _ (memStable.set _ _ (memStable.set _ _ (memStable.ist _ _
    (memStable.inc _ h5))))) h5
  have h7 : MemOk d7 := by
    unfold d7
    split
    · exact memOk_iff memOk_eofSeven (memOk_tecDown h6)
    · exact h6
    · exact memOk_txError h6
  exact memOk_skipSched (memStable.modChan _ _ (memOk_noteEnd h7))

theorem memOk_lateBellSent {c lag : Nat} (hd : MemOk d) : MemOk (lateBellSent d c lag) := by
  unfold lateBellSent
  extract_lets d1
  have h1 : MemOk d1 := memStable.ist _ _ (memStable.set _ _ (memStable.inc _ hd))
  exact memStable.set _ _ h1

theorem memOk_bellMiss {c : Nat} (hd : MemOk d) : MemOk (bellMiss d c) :=
  memStable.raise _ _ (memStable.modChan _ _ (memStable.ist _ _ (memStable.inc _ hd)))

theorem memOk_bellUnsent {c : Nat} (hd : MemOk d) : MemOk (bellUnsent d c) :=
  memStable.modChan _ _ (memStable.inc _ hd)

theorem memOk_endBell {c : Nat} (hd : MemOk d) : MemOk (endBell d c) :=
  memOk_ite hd (memOk_ite (memOk_bellUnsent hd) (memOk_bellMiss hd))

theorem memOk_lateBell {lag : Nat} {l : BellLine} (hd : MemOk d) : MemOk (lateBell d lag l) := by
  unfold lateBell
  extract_lets c x
  exact memOk_ite (memOk_sendBell (memOk_lateBellSent (memOk_advanceTo hd))) hd

theorem memOk_bellMissed {c : Nat} (hd : MemOk d) : MemOk (bellMissed d c) :=
  memOk_ite (memOk_endBell (memOk_advanceTo hd)) hd

theorem memOk_offerTo {n t : Nat} (hd : MemOk d) : MemOk (offerTo d n t) := by
  unfold offerTo
  extract_lets d1
  have h1 : MemOk d1 := memOk_iff (memStable.inc _) hd
  exact memStable.set _ _ (memStable.set _ _ (memOk_incWrap h1))

theorem memOk_deliverHost {n t : Nat} (hd : MemOk d) : MemOk (deliverHost d n t) := by
  unfold deliverHost
  extract_lets r d1 x
  have h1 : MemOk d1 := memStable.post _ _ hd
  exact memOk_mk h1

theorem memOk_deliver {n : Nat} (hd : MemOk d) : MemOk (deliver d n) := by
  unfold deliver
  refine memOk_ite hd ?_
  split
  · exact memOk_ite (memOk_offerTo hd) (memOk_deliverHost hd)
  · extract_lets el g x
    exact memOk_ite (memOk_offerTo (memOk_mk hd)) hd

theorem memOk_releaseGroup {g : Nat} (hd : MemOk d) : MemOk (releaseGroup d g) := by
  unfold releaseGroup
  extract_lets d1 x
  have h1 : MemOk d1 := memStable.set _ _ hd
  exact memOk_mk h1

theorem memOk_holdRaise {g : Nat} (hd : MemOk d) : MemOk (holdRaise d g) := by
  unfold holdRaise
  extract_lets x d1 d2
  have h1 : MemOk d1 := memOk_ite (memOk_mk hd) hd
  have h2 : MemOk d2 := memStable.inc _ h1
  exact memOk_ite (memOk_releaseGroup h2) h2

theorem memOk_intcRaise {n data : Nat} (hd : MemOk d) : MemOk (intcRaise d n data) := by
  unfold intcRaise
  refine memOk_ite (memStable.ist _ _ (memStable.inc _ hd)) ?_
  extract_lets x d1
  have h1 : MemOk d1 := memOk_mk hd
  exact memOk_ite (memOk_holdRaise h1) h1

theorem memOk_takeSource {n t : Nat} (hd : MemOk d) : MemOk (takeSource d n t) := memOk_mk hd

theorem memOk_claimOp {t src tag : Nat} (hd : MemOk d) : MemOk (claimOp d t src tag) :=
  memOk_ite (memOk_takeSource (memStable.set _ _ (memStable.set _ _ hd))) (memStable.inc _ (memStable.set _ _ hd))

theorem memOk_completeOp {t src : Nat} (hd : MemOk d) : MemOk (completeOp d t src) :=
  memOk_ite (memOk_mk hd) (memStable.ist _ _ (memStable.inc _ hd))

theorem memOk_withdraw {n : Nat} (hd : MemOk d) : MemOk (withdraw d n) :=
  memOk_ite hd (memOk_forEach (fun he => memOk_iff (memStable.set _ _) he) hd)

theorem memOk_retractOffer {t : Nat} (hd : MemOk d) : MemOk (retractOffer d t) :=
  memOk_iff (fun he => memStable.inc _ (memStable.set _ _ he)) hd

theorem memOk_retractIneligible {old : Dev} (hd : MemOk d) : MemOk (retractIneligible old d) :=
  memOk_forEach (fun he => memOk_iff memOk_retractOffer he) hd

theorem memOk_retraction {t : Nat} (hd : MemOk d) : MemOk (retraction d t) := by
  unfold retraction
  refine memOk_ite hd ?_
  refine memOk_ite (memOk_retractOffer hd) ?_
  extract_lets d1 x
  have h1 : MemOk d1 := memOk_retractOffer hd
  exact memOk_mk h1

theorem memOk_stewardWakes {t : Nat} (hd : MemOk d) : MemOk (stewardWakes d t) := memOk_mk hd
theorem memOk_coalesce {g : Nat} (hd : MemOk d) : MemOk (coalesce d g) := memOk_ite hd (memOk_releaseGroup hd)
theorem memOk_flipHeldAt (hd : MemOk d) : MemOk (flipHeldAt d) := memOk_mk hd

theorem memOk_hostClaim {s n : Nat} (hd : MemOk d) : MemOk (hostClaim d s n) :=
  memOk_ite (memOk_takeSource (memOk_mk hd)) hd

theorem memOk_hostRetract {s : Nat} (hd : MemOk d) : MemOk (hostRetract d s) := by
  unfold hostRetract
  extract_lets n d1 x
  have h1 : MemOk d1 := memStable.add _ _ hd
  exact memOk_mk h1

theorem memOk_vigilRetract (hd : MemOk d) : MemOk (vigilRetract d) := memOk_forEach (memStable.set _ _) hd

theorem memOk_useKey {c k n : Nat} (hd : MemOk d) : MemOk (useKey d c k n) := by
  unfold useKey
  extract_lets up
  exact memStable.modChan _ _ hd

theorem memOk_fixMasks {c : Nat} {f : RxFrame} (hd : MemOk d) : MemOk (fixMasks d c f) := memOk_forEach memOk_useKey hd

theorem memOk_rxError {c src : Nat} {attributed : Bool} (hd : MemOk d) : MemOk (rxError d c src attributed) := by
  unfold rxError
  extract_lets d1
  have h1 : MemOk d1 := memOk_ite hd (memOk_recUp hd)
  exact memOk_ite (memOk_scoreEvent h1) h1

theorem memOk_countLineErr {c k : Nat} (hd : MemOk d) : MemOk (countLineErr d c k) :=
  memOk_ite (memStable.inc _ hd) (memOk_ite (memStable.inc _ hd) (memOk_ite (memStable.inc _ hd) (memOk_ite
      (memStable.inc _ hd) (memStable.ist _ _ (memStable.inc _ (memStable.inc _ hd))))))

theorem memOk_shadow {key mask val : Nat} (hd : MemOk d) : MemOk (d.shadow key mask val) := by
  unfold Dev.shadow
  extract_lets old
  exact memOk_mk hd

theorem memOk_groupsWake {c : Nat} (hd : MemOk d) : MemOk (groupsWake d c) := memOk_ite (memOk_shadow hd) hd

theorem memOk_crierCounts {c src : Nat} (hd : MemOk d) : MemOk (crierCounts d c src) := by
  unfold crierCounts
  extract_lets g d1 d2 x d3
  have h1 : MemOk d1 := memStable.set _ _ hd
  have h2 : MemOk d2 := memStable.ist _ _ (memStable.set _ _ h1)
  have h3 : MemOk d3 := memOk_ite (memOk_ite (memOk_groupsWake (memOk_setChan h2)) h2) h1
  exact memStable.curfewCause _ _ h3

theorem memOk_offerHold {c : Nat} {h : Held} (hd : MemOk d) : MemOk (offerHold d c h) :=
  memOk_ite (memStable.ist _ _ (memStable.inc _ hd)) (memStable.modChan _ _ hd)

theorem memOk_tagDelivered {c src seq t : Nat} {kt : Nat × Nat} (hd : MemOk d) :
    MemOk (tagDelivered d c src seq t kt) := by
  unfold tagDelivered
  extract_lets d1 d2 d3
  have h1 : MemOk d1 := memStable.modChan _ _ hd
  have h2 : MemOk d2 := memStable.inc _ h1
  have h3 : MemOk d3 := memOk_iff (memStable.inc _) h2
  exact memOk_iff (memStable.inc _) h3

theorem memOk_delivered {c : Nat} {f : RxFrame} {v : Nat × Option (Nat × Nat)} {guard holdover : Bool} (hd : MemOk d) :
    MemOk (delivered d c f v guard holdover) := by
  unfold delivered
  extract_lets h d1 d2 refusedUp d3 d4 d5
  have h1 : MemOk d1 := memOk_iff memOk_eofSeven hd
  have h2 : MemOk d2 := memOk_recDown h1
  have h3 : MemOk d3 := memOk_ite (memOk_scoreEvent h2) (memOk_ite (memOk_scoreEvent h2) h2)
  have h4 : MemOk d4 := by
    unfold d4
    split
    · exact memOk_tagDelivered h3
    · exact h3
  have h5 : MemOk d5 := memOk_ite (memOk_crierCounts h4) h4
  exact memOk_offerHold h5

theorem memOk_markFlight {c : Nat} (hd : MemOk d) : MemOk (markFlight d c) := by
  unfold markFlight
  split
  · exact hd
  · extract_lets d1
    have h1 : MemOk d1 := memStable.modChan _ _ hd
    split
    · exact h1
    · exact memOk_ite (memStable.putEntry _ _ h1) (memStable.endEntry _ _ _ h1)

theorem memOk_observeHead {c : Nat} {f : RxFrame} (hd : MemOk d) : MemOk (observeHead d c f) :=
  memOk_ite (memStable.modChan _ _ hd) (memOk_markFlight hd)

theorem memOk_lineError {c src : Nat} {attributed : Bool} {start : FlagAt} (hd : MemOk d) :
    MemOk (lineError d c src attributed start) := memOk_rxError (memOk_iff memOk_errorFlag hd)

theorem memOk_forgedAuth {c : Nat} {f : RxFrame} {guard : Bool} (hd : MemOk d) : MemOk (forgedAuth d c f guard) := by
  unfold forgedAuth
  extract_lets d1 d2 d3
  have h1 : MemOk d1 := memOk_iff memOk_errorFlag hd
  have h2 : MemOk d2 := memOk_authForge (memStable.inc _ h1)
  have h3 : MemOk d3 := memOk_ite h2 (memOk_recUp h2)
  exact memOk_iff memOk_scoreEvent h3

theorem memOk_tailOf {c : Nat} {f : RxFrame} {v : Nat × Option (Nat × Nat)} {guard holdover : Bool} (hd : MemOk d) :
    MemOk (tailOf d c f v guard holdover) := by
  unfold tailOf
  extract_lets drive d1 d2 d3
  have h1 : MemOk d1 := memOk_iff memOk_emit hd
  have h2 : MemOk d2 := memOk_advanceTo h1
  have h3 : MemOk d3 := memOk_delivered (memOk_noteEnd h2)
  refine memOk_ite (memOk_forgedAuth h1) ?_
  split
  · exact memOk_lineError (memStable.inc _ h1)
  · exact memOk_ite (memOk_observeHead h3) h3

theorem memOk_receive {c : Nat} {g : RxFrame} (hd : MemOk d) : MemOk (receive d c g) := by
  unfold receive
  refine memOk_ite hd ?_
  extract_lets f d1 holdover guard d2 v
  have h1 : MemOk d1 := memOk_advanceTo hd
  have h2 : MemOk d2 := memOk_iff (memStable.inc _) h1
  split
  · extract_lets begun d3 d4 d5
    have h3 : MemOk d3 := memOk_iff memOk_fixMasks h2
    have h4 : MemOk d4 := memOk_iff (memStable.modChan _ _) h3
    have h5 : MemOk d5 := memOk_iff (fun he => memStable.raise _ _ (memStable.ist _ _ he)) h4
    exact memOk_ite (memOk_lineError (memOk_countLineErr h5)) (memOk_tailOf h5)

/-- A piece of work passes cycles and turns the wheel. -/
theorem memOk_serve {e : Dev} {c : Nat} {p : Piece} (hs : serve d c p = some e) (hd : MemOk d) : MemOk e := by
  simp only [serve] at hs
  split at hs
  · cases hs
  · split at hs
    · cases hs
    · split at hs
      · rw [← Option.some.inj hs]
        exact hd
      · cases hs

theorem memOk_noteSlots {h : Nat} (hd : MemOk d) : MemOk (noteSlots d h) := by
  unfold noteSlots
  extract_lets w m x d1 d2 load
  have h1 : MemOk d1 := memStable.setHam _ _ hd
  have h2 : MemOk d2 := memStable.set _ _ h1
  exact memOk_ite h2 (memStable.set _ _ (memStable.set _ _ h2))

theorem memOk_refusalEvent {c w0 w1 : Nat} (hd : MemOk d) : MemOk (refusalEvent d c w0 w1) := memStable.postAll _ _ hd

theorem memOk_writePf {h i : Nat} {ws : List Nat} (hd : MemOk d) : MemOk (writePf d h i ws) :=
  memOk_forEach (memStable.setW _ _) hd

theorem memOk_pinfold {c : Nat} {x : Held} (hd : MemOk d) : MemOk (pinfold d c x) := by
  unfold pinfold
  extract_lets h f d1 full d2 d3 i w0 w1 tag d4
  have h1 : MemOk d1 := memOk_ite (memStable.inc _ hd) (memOk_ite (memStable.inc _ hd) (memOk_ite
      (memStable.inc _ hd) (memStable.inc _ hd)))
  have h2 : MemOk d2 := memOk_iff (fun he => memStable.ist _ _ (memStable.inc _ he)) h1
  have h3 : MemOk d3 := memOk_ite (memStable.set _ _ (memStable.set _ _ h2)) h2
  have h4 : MemOk d4 := memOk_writePf h3
  exact memOk_ite h1 (memOk_ite h2 (memOk_refusalEvent (memStable.ist _ _ (memStable.set _ _ h4))))

theorem memOk_putPayload {g : Nat} {l : List Byte} (hd : MemOk d) : MemOk (putPayload d g l) := by
  unfold putPayload
  extract_lets n fill
  exact memOk_ite (memOk_setMemB hd) (memOk_next (memOk_setMemB hd))

theorem memOk_placeBuf {c i : Nat} {x : Held} {ecc : Bool} (hd : MemOk d) : MemOk (placeBuf d c i x ecc).1 := by
  unfold placeBuf
  extract_lets w0 maxlen depth sg gran w3 wr full ovf d1 rd fill f l d2 d3 head d4 d5 d6
  have h1 : MemOk d1 := memOk_iff (fun he => memStable.ist _ _ (memStable.inc _ he)) hd
  have h2 : MemOk d2 := memOk_iff (memStable.inc _) h1
  have h6 : MemOk d6 := memStable.inc _ (memStable.desc _ _ _ _ (memOk_setMemB (memOk_putPayload h2)))
  split
  · exact memStable.raise _ _ hd
  · split
    · exact memStable.raise _ _ hd
    · split
      · exact memStable.desc _ _ _ _ h1
      · exact memOk_iff (memStable.ist _ _) h6

theorem memOk_writeRecord {h r v qual tick ns : Nat} (hd : MemOk d) : MemOk (writeRecord d h r v qual tick ns) := by
  unfold writeRecord
  extract_lets front back same d1 x d2
  have h1 : MemOk d1 := memOk_setMemW (memOk_setMemW (memOk_setMemW (memOk_setMemW hd)))
  have h2 : MemOk d2 := memOk_mk h1
  exact memStable.inc _ h2

theorem memOk_piAction {c m : Nat} {x : Held} (hd : MemOk d) : MemOk (piAction d c m x) := by
  unfold piAction
  split
  · exact memStable.inc _ hd
  · exact memOk_forEach (fun he => memOk_ite (memStable.inc _ he) (by
      split
      · exact memOk_writeRecord he)) hd

theorem memOk_soeAction {c : Nat} {x : Held} (hd : MemOk d) : MemOk (soeAction d c x) := by
  unfold soeAction
  extract_lets full d1 d2 i f b d3 d4 d5 x
  have h1 : MemOk d1 := memOk_iff (fun he => memStable.ist _ _ (memStable.inc _ he)) hd
  have h2 : MemOk d2 := memOk_ite (memStable.set _ _ (memStable.set _ _ h1)) h1
  have h3 : MemOk d3 := memOk_setMemB h2
  have h4 : MemOk d4 := memStable.set _ _ (memStable.set _ _ h3)
  have h5 : MemOk d5 := memStable.ist _ _ (memStable.inc _ h4)
  exact memOk_ite h1 (memOk_mk h5)

theorem memOk_uplAction {src uplq w0 w3 : Nat} (hd : MemOk d) : MemOk (uplAction d src uplq w0 w3) :=
  memOk_forEach (memStable.post _ _) hd

theorem memOk_actions {c aw0 aw1 : Nat} {x : Held} {ecc : Bool} (hd : MemOk d) : MemOk (actions d c aw0 aw1 x ecc) := by
  unfold actions
  extract_lets i
  have hp : MemOk (if bitOf aw0 16 = true then placeBuf d c i x ecc else (d, none)).1 :=
    memOk_ite_fst (memOk_placeBuf hd) hd
  split
  next d1 slot heq =>
  have h1 : MemOk d1 := memOk_of_fst heq hp
  extract_lets d2 d3 w3 d4
  have h2 : MemOk d2 := memOk_ite (memOk_piAction h1) h1
  have h3 : MemOk d3 := memOk_ite (memOk_soeAction h2) h2
  have h4 : MemOk d4 := memOk_ite (memOk_uplAction h3) h3
  exact memOk_ite (memOk_intcRaise h4) h4

theorem memOk_confirm {c : Nat} {f : RxFrame} (hd : MemOk d) : MemOk (confirm d c f) := by
  unfold confirm
  refine memOk_ite ?_ hd
  extract_lets before d1
  have h1 : MemOk d1 := memStable.setBit _ _ _ hd
  exact memOk_iff (memStable.ist _ _) h1

theorem memOk_placeAccepted {c : Nat} {x : Held} {e : MemErr} (hd : MemOk d) : MemOk (placeAccepted d c x e) := by
  unfold placeAccepted
  refine memOk_ite (memStable.inc _ hd) ?_
  refine memOk_ite (memOk_confirm hd) ?_
  refine memOk_ite (memStable.raise _ _ hd) ?_
  split
  · refine memOk_ite ?_ ?_
    · extract_lets d1
      have h1 : MemOk d1 := memStable.ist _ _ (memStable.inc _ hd)
      exact memOk_ite (memOk_placeBuf h1) h1
    · extract_lets d2
      have h2 : MemOk d2 := memOk_ite (memStable.inc _ hd) (memStable.inc _ (memStable.inc _ hd))
      exact memOk_ite (memStable.inc _ h2) (memOk_actions h2)

theorem memOk_placeHeld {c : Nat} {e : MemErr} (hd : MemOk d) : MemOk (placeHeld d c e) := by
  unfold placeHeld
  split
  · exact hd
  · extract_lets d1 d2 x
    have h1 : MemOk d1 := memStable.modChan _ _ hd
    have h2 : MemOk d2 := memOk_ite (memOk_pinfold h1) (memOk_placeAccepted h1)
    exact memOk_mk h2

theorem memOk_placement {c : Nat} {e : MemErr} (hd : MemOk d) : MemOk (placement d c e) := by
  unfold placement
  refine memOk_ite hd ?_
  split
  · next hs => exact memOk_placeHeld (memOk_serve hs hd)
  · exact hd

theorem memOk_rxrelOp {c i n : Nat} (hd : MemOk d) : MemOk (rxrelOp d c i n) := by
  unfold rxrelOp
  refine memOk_ite hd ?_
  extract_lets w3 depth n
  exact memOk_ite hd (memStable.desc _ _ _ _ hd)

theorem memOk_pfpopOp {h n : Nat} (hd : MemOk d) : MemOk (pfpopOp d h n) := by
  unfold pfpopOp
  extract_lets n
  exact memStable.set _ _ (memStable.set _ _ hd)

theorem memOk_soerelOp {n : Nat} (hd : MemOk d) : MemOk (soerelOp d n) := by
  unfold soerelOp
  extract_lets n
  exact memStable.set _ _ (memStable.set _ _ hd)

theorem memOk_copyBad {c : Nat} {e : TxEntry} (hd : MemOk d) : MemOk (copyBad d c e) :=
  memStable.raise _ _ (memStable.ist _ _ (memStable.endEntry _ _ _ hd))

theorem memOk_copyEntry {c : Nat} {e : TxEntry} {ecc : Bool} (hd : MemOk d) : MemOk (copyEntry d c e ecc) := by
  unfold copyEntry
  extract_lets i w0 w1 w2 cp x
  refine memOk_ite (memStable.raise _ _ (memStable.endEntry _ _ _ hd)) ?_
  refine memOk_ite (memOk_copyBad hd) ?_
  split
  · exact memOk_ite (memStable.scopeRefused memRaised _ _ _ _ (memStable.endEntry _ _ _ hd)) (memStable.modChan _ _ hd)
  · exact memStable.modChan _ _ hd

theorem memOk_transmitCopy {c i : Nat} {ecc : Bool} (hd : MemOk d) : MemOk (transmitCopy d c i ecc) := by
  unfold transmitCopy
  split
  · exact hd
  · split
    · next hs => exact memOk_copyEntry (memOk_serve hs hd)
    · exact hd

theorem memOk_toDelivered {e : TxEntry} (hd : MemOk d) : MemOk (toDelivered d e) := by
  unfold toDelivered
  split
  · exact hd
  · split
    · exact memOk_toEnd hd
    · exact hd

theorem memOk_toAborted {e : TxEntry} (hd : MemOk d) : MemOk (toAborted d e) := by
  unfold toAborted
  split
  · exact hd
  · split
    · exact memOk_ite (memOk_toEnd hd) hd
    · exact hd

theorem memOk_entrySent {c t : Nat} {e : TxEntry} (hd : MemOk d) : MemOk (entrySent d c t e) := by
  unfold entrySent
  extract_lets d1
  have h1 : MemOk d1 := memStable.inc _ hd
  exact memOk_ite (memOk_iff (memStable.ist _ _) (memStable.putEntry _ _ h1)) (memOk_toDelivered
      (memStable.endEntry _ _ _ h1))

theorem memOk_entryError {c t : Nat} {e : TxEntry} (hd : MemOk d) : MemOk (entryError d c t e) := by
  unfold entryError
  extract_lets e
  exact memOk_ite (memOk_toAborted (memStable.endEntry _ _ _ hd)) (memOk_ite (memStable.inc _ (memStable.ist _ _
      (memStable.putEntry _ _ hd))) (memOk_ite (memStable.endEntry _ _ _ hd) (memOk_ite
      (memStable.endEntry _ _ _ hd) (memStable.putEntry _ _ hd))))

theorem memOk_entryLost {c fin : Nat} {e : TxEntry} (hd : MemOk d) : MemOk (entryLost d c fin e) := by
  unfold entryLost
  extract_lets d1
  have h1 : MemOk d1 := memStable.inc _ hd
  exact memOk_ite (memOk_toAborted (memStable.endEntry _ _ _ h1)) (memOk_ite (memStable.endEntry _ _ _ h1)
      (memStable.putEntry _ _ h1))

theorem memOk_noteFlight {c i outcome : Nat} (hd : MemOk d) : MemOk (noteFlight d c i outcome) :=
  memStable.modChan _ _ hd

theorem memOk_sendEntry {c sof : Nat} {e : TxEntry} {cp : TxCopy} (hd : MemOk d) : MemOk (sendEntry d c sof e cp) := by
  unfold sendEntry
  extract_lets w0 mid ft seq d1 dps
  have h1 : MemOk d1 := memStable.modChan _ _ hd
  have hp : MemOk (if entryTagged d1 c cp = true then headTag d1 c e.ec mid ft dps seq cp.payload else (d1, none)).1 :=
    memOk_ite_fst (memOk_headTag h1) h1
  generalize (if entryTagged d1 c cp = true then headTag d1 c e.ec mid ft dps seq cp.payload else (d1, none)) = q at hp
  obtain ⟨d2, tag⟩ := q
  have h2 : MemOk d2 := hp
  exact memOk_noteFlight (memStable.modChan _ _ (memOk_notePhase (memOk_emit h2)))

theorem memOk_markActive {c i : Nat} (hd : MemOk d) : MemOk (markActive d c i) := by
  unfold markActive
  split
  · exact memStable.putEntry _ _ hd
  · exact hd

theorem memOk_endAttempt {c i : Nat} {f : Dev → Nat → TxEntry → Dev} (hf : ∀ {x b e}, MemOk x → MemOk (f x b e))
    (hd : MemOk d) : MemOk (endAttempt d c i f) := by
  unfold endAttempt
  split
  · exact hf hd
  · exact hd

theorem memOk_skipPassed {c t : Nat} (hd : MemOk d) : MemOk (skipPassed d c t) := by
  unfold skipPassed
  extract_lets d1
  have h1 : MemOk d1 := memOk_skipSched hd
  exact memOk_ite (memOk_skipSched h1) h1

theorem memOk_startAttempt {c : Nat} {t : Attempt} (hd : MemOk d) : MemOk (startAttempt d c t) := by
  unfold startAttempt
  refine memOk_ite hd ?_
  extract_lets d1 sof
  have h1 : MemOk d1 := memOk_skipPassed hd
  split
  · exact h1
  · split
    · exact h1
    · extract_lets d2 d3
      have h2 : MemOk d2 := memOk_markActive (memOk_advanceTo h1)
      have h3 : MemOk d3 := memOk_advanceTo (memOk_endAttempt memOk_entryLost h2)
      exact memOk_ite (memOk_noteEnd h3) (memOk_sendEntry h2)

theorem memOk_settleEntry {c i t : Nat} {o : TxLine} (hd : MemOk d) : MemOk (settleEntry d c i t o) := by
  cases o with
  | delivered => exact memOk_endAttempt memOk_entrySent hd
  | _ => exact memOk_endAttempt memOk_entryError hd

theorem memOk_finishAttempt {c : Nat} {t : Attempt} (hd : MemOk d) : MemOk (finishAttempt d c t) := by
  unfold finishAttempt
  split
  · exact hd
  · exact hd
  · extract_lets fin d1 d2 d3
    have h1 : MemOk d1 := memOk_advanceTo hd
    have h2 : MemOk d2 := by
      unfold d2
      split
      · exact memOk_noteFlight (memOk_txError h1)
      · exact memOk_iff memOk_eofSeven (memOk_noteFlight (memOk_tecDown h1))
    have h3 : MemOk d3 := memOk_noteEnd h2
    exact memOk_ite (memOk_settleEntry (memStable.modChan _ _ h3)) (memStable.modChan _ _ h3)

theorem memOk_settleHeld {c : Nat} (hd : MemOk d) : MemOk (settleHeld d c) := by
  unfold settleHeld
  split
  · exact memOk_settleEntry (memStable.modChan _ _ hd)
  · exact hd

theorem memOk_attempt {c : Nat} {t : Attempt} (hd : MemOk d) : MemOk (attempt d c t) := by
  unfold attempt
  split
  · exact memOk_startAttempt hd
  · exact memOk_finishAttempt hd
  · exact memOk_ite hd (memOk_finishAttempt (memOk_startAttempt hd))

theorem memOk_oneShotEnd {c i : Nat} (hd : MemOk d) : MemOk (oneShotEnd d c i) := by
  unfold oneShotEnd
  split
  · exact hd
  · exact memOk_ite (memStable.endEntry _ _ _ (memOk_advanceTo hd)) hd

theorem memOk_outMissed {o : TimedOut} (hd : MemOk d) : MemOk (outMissed d o) := by
  unfold outMissed
  extract_lets d1
  have h1 : MemOk d1 := by
    unfold d1
    split
    · exact memOk_endAttempt (memStable.abortEntry _ _) hd
    · exact hd
  exact memOk_toEnd h1

theorem memOk_toMissed {h : Nat} (hd : MemOk d) : MemOk (toMissed d h) := by
  unfold toMissed
  split
  · exact hd
  · exact memOk_ite (memOk_outMissed (memOk_advanceTo hd)) hd

theorem memOk_txdTimeout {c : Nat} (hd : MemOk d) : MemOk (txdTimeout d c) :=
  memOk_ite (memStable.raise _ _ (memStable.ist _ _ (memStable.inc _ hd))) hd

theorem memOk_ageEntry {c : Nat} {e : TxEntry} (hd : MemOk d) : MemOk (ageEntry d c e) :=
  memOk_ite (memStable.ist _ _ (memStable.inc _ (memStable.desc _ _ _ _ (memStable.modChan _ _ hd))))
      (memStable.modChan _ _ hd)

theorem memOk_ageDue {c i : Nat} (hd : MemOk d) : MemOk (ageDue d c i) :=
  memOk_forEach (fun he => memOk_endAttempt memOk_ageEntry he) hd

theorem memOk_applyDesc {r : RxDescInit} (hd : MemOk d) : MemOk (applyDesc d r) :=
  memStable.desc _ _ _ _ (memStable.desc _ _ _ _ (memStable.desc _ _ _ _ (memStable.desc _ _ _ _ hd)))

theorem memOk_boundWork {c : Nat} (hd : MemOk d) : MemOk (boundWork d c) := by
  unfold boundWork
  extract_lets d1 d2 d3
  have h1 : MemOk d1 := memOk_forEach memOk_ageDue hd
  have h2 : MemOk d2 := memOk_forEach memOk_applyDesc h1
  have h3 : MemOk d3 := memOk_forEach (memStable.abortEntry _ _) h2
  exact memStable.modChan _ _ h3

theorem memOk_tickWork {c : Nat} (hd : MemOk d) : MemOk (tickWork d c) := by
  unfold tickWork
  refine memOk_ite hd ?_
  split
  · next hs => exact memOk_boundWork (memOk_serve hs hd)
  · exact hd

theorem memOk_restartOp {c : Nat} (hd : MemOk d) : MemOk (restartOp d c) := memOk_ite (memStable.busOffEnd _ hd) hd
theorem memOk_rclrOp {c : Nat} (hd : MemOk d) : MemOk (rclrOp d c) := memStable.set _ _ hd

theorem memOk_autoRecovery {c : Nat} (hd : MemOk d) : MemOk (autoRecovery d c) :=
  memOk_ite (memStable.modChan _ _ (memStable.busOffEnd _ hd)) hd

theorem memOk_busOffSeq {c : Nat} (hd : MemOk d) : MemOk (busOffSeq d c) := by
  unfold busOffSeq
  extract_lets n
  exact memOk_ite hd (memOk_ite (memOk_autoRecovery hd) (memStable.set _ _ hd))

theorem memOk_recessive {c : Nat} (hd : MemOk d) : MemOk (recessive d c) :=
  memOk_ite (memOk_ite (memOk_busOffSeq hd) (memOk_ite (memStable.modChan _ _ (memOk_advanceTo hd)) hd)) hd

theorem memOk_stuckDom {c : Nat} (hd : MemOk d) : MemOk (stuckDom d c) := by
  unfold stuckDom
  refine memOk_ite ?_ hd
  extract_lets d1
  have h1 : MemOk d1 := memStable.ist _ _ (memStable.set _ _ (memOk_recUp hd))
  exact memStable.curfewCause _ _ (memStable.raise _ _ (memStable.inc _ h1))

theorem memOk_stuckEnd {c us : Nat} (hd : MemOk d) : MemOk (stuckEnd d c us) := by
  unfold stuckEnd
  refine memOk_ite ?_ hd
  extract_lets d1 d2
  have h1 : MemOk d1 := memStable.set _ _ hd
  have h2 : MemOk d2 := memStable.set _ _ h1
  exact memStable.condEnd _ _ (memStable.waitAfter _ _ h2)

theorem memOk_autoUnfence {c a : Nat} (hd : MemOk d) : MemOk (autoUnfence d c a) := memOk_ite (memOk_unfence hd) hd

theorem memOk_abortOp {c i : Nat} (hd : MemOk d) : MemOk (abortOp d c i) := by
  unfold abortOp
  split
  · exact memStable.abortEntry _ _ hd
  · exact hd

theorem memOk_testAfterFault {m : Nat} (hd : MemOk d) : MemOk (testAfterFault d m) :=
  memStable.setMill _ _ (memStable.set _ _ (memStable.set _ _ hd))

theorem memOk_millHalts {m s : Nat} (hd : MemOk d) : MemOk (millHalts d m s) := by
  unfold millHalts
  extract_lets h d1
  have h1 : MemOk d1 := memStable.raiseImm _ _ _ _ hd
  exact memOk_ite (memStable.isolateHam memRaised _ _ (memOk_testAfterFault h1)) h1

theorem memOk_lockstep {m port ch : Nat} (hd : MemOk d) : MemOk (lockstep d m port ch) := by
  unfold lockstep
  extract_lets st d1 d2 d3 d4 d5
  have h1 : MemOk d1 := memStable.setW _ _ (memStable.inc _ hd)
  have h2 : MemOk d2 := memStable.ist _ _ h1
  have h3 : MemOk d3 := memStable.raise _ _ h2
  have h4 : MemOk d4 := memOk_testAfterFault h3
  have h5 : MemOk d5 := memStable.set _ _ h3
  refine memOk_ite hd ?_
  refine memOk_ite (memOk_millHalts h2) ?_
  refine memOk_ite ?_ (memOk_ite (memStable.latchOff _ h5) (memStable.set _ _ h5))
  split
  · exact memStable.isolateHam memRaised _ _ h4
  · exact h3

theorem memOk_lockstepAll {l : List (Nat × Nat × Nat)} (hd : MemOk d) : MemOk (lockstepAll d l) := by
  unfold lockstepAll
  extract_lets key
  exact memOk_forEach memOk_lockstep hd

theorem memOk_migrateOp {h : Nat} (hd : MemOk d) : MemOk (migrateOp d h) :=
  memOk_ite (memStable.ist _ _ hd) (memStable.startMigration memRaised _ _ hd)

theorem memOk_migrationDone {h ns : Nat} (hd : MemOk d) : MemOk (migrationDone d h ns) := by
  unfold migrationDone
  split
  · exact hd
  · extract_lets d1 d2 d3 d4 d5 w x x7 d6 d7
    have h1 : MemOk d1 := memStable.set _ _ (memStable.set _ _ hd)
    have h2 : MemOk d2 := memOk_ite (memStable.set _ _ h1) h1
    have h3 : MemOk d3 := memStable.set _ _ (memStable.set _ _ h2)
    have h4 : MemOk d4 := memStable.inc _ h3
    have h5 : MemOk d5 := memStable.set _ _ (memStable.set _ _ h4)
    have h6 : MemOk d6 := memStable.setHam _ _ (memStable.ist _ _ h5)
    have h7 : MemOk d7 := memOk_forEach memOk_settleHeld h6
    exact memStable.quietAfter _ h7

theorem memOk_migTime {h : Nat} (hd : MemOk d) : MemOk (migTime d h) := memOk_ite (memStable.raise _ _ hd) hd

theorem memOk_ctxMem {h : Nat} (hd : MemOk d) : MemOk (ctxMem d h) := by
  unfold ctxMem
  refine memOk_ite hd ?_
  extract_lets m d1
  have h1 : MemOk d1 := memStable.set _ _ (memStable.set _ _ hd)
  exact memStable.isolateHam memRaised _ _ h1

theorem memOk_bistWrite {m : Nat} (hd : MemOk d) : MemOk (bistWrite d m) :=
  memOk_ite (memStable.setMill _ _ (memStable.set _ _ hd)) hd

theorem memOk_bistRepeat {m : Nat} (hd : MemOk d) : MemOk (bistRepeat d m) := memOk_ite (memStable.set _ _ hd) hd

theorem memOk_bistPass {m : Nat} (hd : MemOk d) : MemOk (bistPass d m) :=
  memOk_ite (memOk_ite (memStable.setMill _ _ (memStable.set _ _ hd)) (memStable.setMill _ _ hd)) hd

theorem memOk_bistFail {m : Nat} (hd : MemOk d) : MemOk (bistFail d m) := by
  unfold bistFail
  extract_lets st d1
  have h1 : MemOk d1 := memStable.set _ _ (memStable.set _ _ hd)
  refine memOk_ite (memStable.raise _ _ (memStable.latchOff _ hd)) ?_
  refine memOk_ite ?_ (memOk_ite (memStable.condEnd _ _ (memOk_millHalts hd)) (memStable.raise _ _
      (memStable.set _ _ hd)))
  split
  · extract_lets d2
    have h2 : MemOk d2 := memStable.isolateHam memRaised _ _ h1
    exact memStable.raise _ _ h2
  · exact hd

theorem memOk_bistEnd {m : Nat} {pass : Bool} (hd : MemOk d) : MemOk (bistEnd d m pass) := by
  unfold bistEnd
  refine memOk_ite hd ?_
  extract_lets d1 x d2
  have h1 : MemOk d1 := memStable.ist _ _ (memStable.inc _ hd)
  have h2 : MemOk d2 := memStable.setMill _ _ (memStable.set _ _ h1)
  exact memOk_ite (memOk_bistPass h2) (memOk_bistFail h2)

theorem memOk_millSpare {m : Nat} (hd : MemOk d) : MemOk (millSpare d m) := by
  unfold millSpare
  extract_lets x d1
  have h1 : MemOk d1 := memStable.modPage _ _ (memStable.inc _ hd)
  exact memOk_ite (memOk_ite (memOk_ite (memStable.latchOff _ h1) (memStable.setMill _ _ (memStable.set _ _ h1)))
      (memStable.setMill _ _ (memStable.set _ _ hd))) hd

theorem memOk_releaseMill {m : Nat} (hd : MemOk d) : MemOk (releaseMill d m) :=
  memOk_ite (memStable.condEnd _ _ (memStable.setMill _ _ (memStable.set _ _ (memStable.set _ _ hd)))) hd

theorem memOk_releaseHam {h : Nat} (hd : MemOk d) : MemOk (releaseHam d h) := by
  unfold releaseHam
  refine memOk_ite ?_ hd
  extract_lets x d1
  have h1 : MemOk d1 := memStable.condEnd _ _ (memStable.condEnd _ _ (memStable.setHam _ _ hd))
  exact memStable.startMigration memRaised _ _ (memOk_forEach (memStable.waitAfter _ _) h1)

theorem memOk_timerExpiry {p : Nat} (hd : MemOk d) : MemOk (timerExpiry d p) := by
  unfold timerExpiry
  split
  · exact hd
  · extract_lets d1
    have h1 : MemOk d1 := memStable.modPage _ _ (memOk_pass hd)
    exact memOk_ite h1 (memStable.react memRaised _ _ _ h1)

theorem memOk_shadowEndOp {p : Nat} (hd : MemOk d) : MemOk (shadowEndOp d p) := by
  unfold shadowEndOp
  split
  · exact hd
  · exact memStable.shadowDone _ (memOk_pass hd)

theorem memOk_quietEnd {p : Nat} (hd : MemOk d) : MemOk (quietEnd d p) := by
  unfold quietEnd
  split
  · exact hd
  · exact memOk_ite (memStable.stranded memRaised _ (memStable.recover _ hd)) hd

theorem memOk_pulseEnd {k : Nat} (hd : MemOk d) : MemOk (pulseEnd d k) := by
  unfold pulseEnd
  refine memOk_ite ?_ hd
  extract_lets d1 x
  have h1 : MemOk d1 := memOk_pass hd
  exact memOk_mk h1

theorem memOk_leaveSafe (hd : MemOk d) : MemOk (leaveSafe d) :=
  memOk_ite hd (memStable.set _ _ (memOk_forEach (fun he => memOk_forEach (memStable.abortEntry _ _) he) hd))

theorem memOk_releaseChan {p : Nat} (hd : MemOk d) : MemOk (releaseChan d p) := by
  unfold releaseChan
  extract_lets c held d1
  have h1 : MemOk d1 := memOk_iff (memStable.waitAfter _ _) hd
  exact memStable.modChan _ _ h1

theorem memOk_releasePage {p : Nat} (hd : MemOk d) : MemOk (releasePage d p) := by
  unfold releasePage
  extract_lets d1 d2 d3
  have h1 : MemOk d1 := memStable.modPage _ _ hd
  have h2 : MemOk d2 := memStable.softReset _ (memStable.set _ _ h1)
  have h3 : MemOk d3 := memOk_ite (memOk_releaseChan h2) (memOk_ite (memOk_releaseHam h2) (memOk_ite
      (memOk_releaseMill h2) (memOk_ite (memOk_leaveSafe h2) h2)))
  exact memStable.fltEvent _ _ h3

theorem memOk_domTo {x st : Nat} (hd : MemOk d) : MemOk (domTo d x st) := by
  unfold domTo
  extract_lets was side ask
  exact memOk_iff (fun he => memOk_emit (memStable.inc _ he)) (memStable.set _ _ hd)

theorem memOk_loadTime {ns by' : Nat} (hd : MemOk d) : MemOk (loadTime d ns by') := by
  unfold loadTime
  extract_lets step shift x x3 x4 d1
  have h1 : MemOk d1 := memOk_mk hd
  exact memStable.ist _ _ (memStable.set _ _ h1)

theorem memOk_enterHoldover (hd : MemOk d) : MemOk (enterHoldover d) := by
  unfold enterHoldover
  extract_lets d1 x x2
  have h1 : MemOk d1 := memStable.set _ _ (memStable.ist _ _ (memStable.inc _ (memStable.set _ _
      (memStable.set _ _ hd))))
  exact memOk_mk h1

theorem memOk_leaveHoldover (hd : MemOk d) : MemOk (leaveHoldover d) :=
  memStable.condEnd _ _ (memStable.ist _ _ (memStable.set _ _ (memStable.set _ _ hd)))

theorem memOk_reselect {x : Nat} (hd : MemOk d) : MemOk (reselect d x) := by
  unfold reselect
  refine memOk_ite hd ?_
  split
  · exact memOk_ite (memOk_ite hd (memStable.set _ _ (memStable.inc _ (memStable.ist _ _ (memStable.set _ _ hd)))))
      (memStable.set _ _ (memStable.set _ _ (memOk_leaveHoldover hd)))
  · exact memOk_ite (memOk_enterHoldover hd) hd

theorem memOk_steer {x : Nat} (hd : MemOk d) : MemOk (steer d x) := by
  unfold steer
  refine memOk_ite hd ?_
  extract_lets o rates d1 corr d2 learned rate x d3 d4
  have h1 : MemOk d1 := memOk_next hd
  have h2 : MemOk d2 := memOk_next h1
  have h3 : MemOk d3 := memOk_mk h2
  have h4 : MemOk d4 := memStable.set _ _ h3
  exact memOk_ite (memStable.set _ _ h4) h4

theorem memOk_clearSuspicion {x : Nat} (hd : MemOk d) : MemOk (clearSuspicion d x) :=
  memStable.condEnd _ _ (memStable.set _ _ (memStable.set _ _ hd))

theorem memOk_domAbsent {x : Nat} (hd : MemOk d) : MemOk (domAbsent d x) := by
  unfold domAbsent
  extract_lets st d1 x d2 d3
  have h1 : MemOk d1 := memOk_domTo (memOk_clearSuspicion hd)
  have h2 : MemOk d2 := memOk_setDom h1
  have h3 : MemOk d3 := memOk_ite (memStable.raise _ _ (memStable.inc _ (memStable.ist _ _ h2))) h2
  exact memOk_ite hd (memOk_reselect h3)

theorem memOk_acquire {x : Nat} {o : Int} (hd : MemOk d) : MemOk (acquire d x o) := by
  unfold acquire
  extract_lets acq x d1 d2 x4
  have h1 : MemOk d1 := memOk_setDom hd
  have h2 : MemOk d2 := memStable.ist _ _ (memOk_domTo h1)
  exact memOk_ite (memOk_setDom h2) h1

theorem memOk_firstLock (hd : MemOk d) : MemOk (firstLock d) := by
  unfold firstLock
  refine memOk_ite hd ?_
  split
  · exact memStable.set _ _ (memStable.set _ _ (memOk_loadTime hd))
  · exact hd

theorem memOk_suspect {x : Nat} (hd : MemOk d) : MemOk (suspect d x) := by
  unfold suspect
  extract_lets d1
  have h1 : MemOk d1 := memStable.set _ _ (memStable.set _ _ (memOk_domTo hd))
  exact memStable.raise _ _ (memStable.ist _ _ (memStable.inc _ h1))

theorem memOk_suspectEval {x : Nat} {stable : Bool} (hd : MemOk d) : MemOk (suspectEval d x stable) := by
  unfold suspectEval
  extract_lets n d1
  have h1 : MemOk d1 := memStable.set _ _ hd
  exact memOk_ite (memStable.condEnd _ _ (memStable.ist _ _ (memStable.set _ _ (memOk_domTo h1)))) h1

theorem memOk_evalDom {x : Nat} {m : SyncMsg} (hd : MemOk d) : MemOk (evalDom d x m).1 := by
  unfold evalDom
  extract_lets top t o y rel r old st dr dpd comparable stepped moved d1 d2 absent d3
  have h2 : MemOk d2 := memStable.set _ _ (memStable.set _ _ (memOk_setDom hd))
  have h3 : MemOk d3 := memOk_ite (memOk_acquire (memStable.condEnd _ _ (memOk_setDom (memOk_domTo h2))))
    (memOk_ite (memOk_acquire h2) (memOk_ite (memOk_ite (memOk_suspect h2) h2) (memOk_suspectEval h2)))
  exact memOk_ite h3 (memStable.set _ _ h3)

theorem memOk_countStep {x : Nat} (hd : MemOk d) : MemOk (countStep d x) := by
  unfold countStep
  extract_lets d1
  have h1 : MemOk d1 := memStable.inc _ hd
  exact memOk_ite (memStable.set _ _ h1) h1

theorem memOk_evalHeard {x : Nat} {m : Option SyncMsg} (hd : MemOk d) : MemOk (evalHeard d x m).1 := by
  unfold evalHeard
  split
  · exact memOk_ite_fst (memOk_evalDom (memStable.inc _ hd)) hd
  · exact hd

theorem memOk_syncBoth {x : Nat} {m : SyncMsg} {also : Option SyncMsg} (hd : MemOk d) : MemOk
    (syncBoth d x m also) := by
  unfold syncBoth
  extract_lets y evalX evalY was a b calm d1
  have hb : MemOk b.1 := memOk_evalHeard (memOk_evalHeard hd)
  have h1 : MemOk d1 := memOk_iff memOk_countStep (memOk_iff memOk_countStep hb)
  exact memOk_iff memOk_steer (memOk_iff memOk_steer (memOk_reselect (memOk_firstLock h1)))

theorem memOk_sync {x : Nat} {m : SyncMsg} {also : Option SyncMsg} (hd : MemOk d) : MemOk (sync d x m also) :=
  memOk_ite (memOk_syncBoth hd) hd

theorem memOk_announce {x gm utc steps : Nat} (hd : MemOk d) : MemOk (announce d x gm utc steps) := by
  unfold announce
  refine memOk_ite hd ?_
  extract_lets d1 x m d2 d3 d4 d5 x7
  have h1 : MemOk d1 := memStable.inc _ hd
  have h2 : MemOk d2 := memStable.setW _ _ (memStable.setW _ _ (memStable.set _ _ h1))
  have h3 : MemOk d3 := memOk_setDom h2
  have h4 : MemOk d4 := memStable.inc _ (memStable.ist _ _ h3)
  have h5 : MemOk d5 := memOk_domTo (memOk_clearSuspicion h4)
  split
  · exact h3
  · exact memOk_ite h3 (memOk_ite (memOk_reselect (memOk_setDom h5)) h4)

theorem memOk_syncLost {x : Nat} {why : SyncLoss} (hd : MemOk d) : MemOk (syncLost d x why) := by
  unfold syncLost
  extract_lets d1
  have h1 : MemOk d1 := by
    unfold d1
    split
    · exact hd
    · exact memStable.set _ _ hd
    · exact memStable.set _ _ hd
  exact memOk_domAbsent h1

theorem memOk_pdelayDone {x mld : Nat} {ppm : Int} (hd : MemOk d) : MemOk (pdelayDone d x mld ppm) := by
  unfold pdelayDone
  extract_lets ok x d1 d2
  have h1 : MemOk d1 := memOk_setDom hd
  have h2 : MemOk d2 := memStable.setB _ _ (memStable.set _ _ h1)
  exact memOk_ite h2 (memOk_domAbsent h2)

theorem memOk_holdLimit (hd : MemOk d) : MemOk (holdLimit d) := by
  unfold holdLimit
  extract_lets lim d1 x
  have h1 : MemOk d1 := memOk_advanceTo hd
  exact memOk_ite (memStable.raise _ _ (memOk_mk h1)) hd

theorem memOk_captureNow (hd : MemOk d) : MemOk (captureNow d) := by
  unfold captureNow
  extract_lets d1
  have h1 : MemOk d1 := memStable.setW _ _ (memStable.setW _ _ hd)
  exact memStable.setW _ _ (memStable.setW _ _ h1)

theorem memOk_epochRequest {c : Nat} (hd : MemOk d) : MemOk (epochRequest d c) :=
  memOk_ite hd (memStable.modChan _ _ hd)

theorem memOk_epochAnew {c : Nat} (hd : MemOk d) : MemOk (epochAnew d c) := by
  unfold epochAnew
  split
  · exact memStable.modChan _ _ hd
  · exact memOk_epochRequest hd

theorem memOk_epochStart {c : Nat} {key : BitVec 256} (hd : MemOk d) : MemOk (epochStart d c key) := by
  unfold epochStart
  refine memOk_ite ?_ hd
  extract_lets d1 id dl
  have h1 : MemOk d1 := memOk_draw hd
  exact memStable.curfewCause _ _ (memStable.modChan _ _ (memStable.zero _ h1))

theorem memOk_keyLife {c : Nat} (hd : MemOk d) : MemOk (keyLife d c) := memOk_ite (memOk_epochRequest hd) hd

theorem memOk_keyUseCheck {c : Nat} (hd : MemOk d) : MemOk (keyUseCheck d c) := by
  unfold keyUseCheck
  refine memOk_ite hd ?_
  extract_lets x use d1 n d2 d3
  have h1 : MemOk d1 := memOk_ite (memOk_epochRequest (memStable.ist _ _ (memStable.set _ _ hd))) hd
  have h2 : MemOk d2 := memOk_ite (memStable.set _ _ h1) h1
  have h3 : MemOk d3 := memStable.add _ _ (memStable.modChan _ _ h2)
  exact memOk_ite h1 (memStable.raise _ _ h3)

theorem memOk_keyGen {c : Nat} (hd : MemOk d) : MemOk (keyGen d c) :=
  memOk_ite (memStable.raise _ _ (memStable.modChan _ _ hd)) hd

theorem memOk_deadlineOp {c t : Nat} (hd : MemOk d) : MemOk (deadlineOp d c t) := by
  unfold deadlineOp
  extract_lets x d1
  have h1 : MemOk d1 := memStable.ist _ _ hd
  exact memOk_ite hd (memOk_ite (memStable.modChan _ _ hd) (memOk_ite (memStable.modChan _ _ (memStable.inc _
      (memStable.inc _ h1))) (memStable.modChan _ _ h1)))

theorem memOk_epochDeadline {c : Nat} (hd : MemOk d) : MemOk (epochDeadline d c) := memOk_ite (memOk_deadlineOp hd) hd
theorem memOk_eraseOld {c t : Nat} (hd : MemOk d) : MemOk (eraseOld d c t) := memOk_ite (memStable.modChan _ _ hd) hd

theorem memOk_activate {c t : Nat} (hd : MemOk d) : MemOk (activate d c t) := by
  unfold activate
  extract_lets d1 d2
  have h1 : MemOk d1 := memStable.modChan _ _ hd
  have h2 : MemOk d2 := memStable.set _ _ (memStable.zero _ h1)
  exact memStable.ist _ _ (memStable.inc _ h2)

theorem memOk_epochCommit {c t : Nat} (hd : MemOk d) : MemOk (epochCommit d c t) := by
  unfold epochCommit
  extract_lets d1 d2
  have h1 : MemOk d1 := memOk_eraseOld hd
  have h2 : MemOk d2 := memOk_deadlineOp h1
  exact memOk_ite h1 (memOk_ite (memOk_activate h2) h2)

theorem memOk_oldErase {c : Nat} (hd : MemOk d) : MemOk (oldErase d c) := memOk_ite (memOk_eraseOld hd) hd

theorem memOk_keyPush {c a i : Nat} (hd : MemOk d) : MemOk (keyPush d c a i) := by
  unfold keyPush
  split
  · split
    · exact hd
    · refine memOk_ite hd ?_
      extract_lets d1 d2 d3
      have h1 : MemOk d1 := memStable.desc _ _ _ _ (memStable.desc _ _ _ _ hd)
      have h2 : MemOk d2 := memOk_setMemB h1
      have h3 : MemOk d3 := memStable.modChan _ _ h2
      exact memStable.pushOp memRaised _ _ _ h3
  · exact hd

theorem memOk_curfewCommitAt {c t : Nat} (hd : MemOk d) : MemOk (curfewCommitAt d c t) :=
  memOk_ite (memStable.modChan _ _ (memStable.ist _ _ (memStable.set _ _ hd))) hd

theorem memOk_curfewCallAt {c t idle cfg : Nat} (hd : MemOk d) : MemOk (curfewCallAt d c t idle cfg) :=
  memOk_ite (memStable.modChan _ _ (memStable.ist _ _ (memStable.inc _ (memStable.set _ _ hd)))) hd

theorem memOk_curfewCall {c : Nat} (hd : MemOk d) : MemOk (curfewCall d c) := memOk_ite (memOk_curfewCallAt hd) hd

theorem memOk_curfewCommit {c : Nat} (hd : MemOk d) : MemOk (curfewCommit d c) :=
  memOk_ite (memOk_curfewCommitAt hd) hd

theorem memOk_sleepOp {c : Nat} (hd : MemOk d) : MemOk (sleepOp d c) := by
  unfold sleepOp
  refine memOk_ite ?_ hd
  extract_lets fin
  exact memStable.ist _ _ (memStable.inc _ (memStable.set _ _ (memOk_advanceTo hd)))

theorem memOk_wakePattern {c : Nat} (hd : MemOk d) : MemOk (wakePattern d c) := by
  unfold wakePattern
  refine memOk_ite hd ?_
  extract_lets d1
  have h1 : MemOk d1 := memOk_ite (memOk_rxError (memOk_countLineErr hd)) hd
  exact memOk_ite (memStable.curfewCause _ _ h1) h1

theorem memOk_falseWake {c : Nat} (hd : MemOk d) : MemOk (falseWake d c) :=
  memOk_ite (memStable.ist _ _ (memStable.inc _ hd)) hd

theorem memOk_vetoSetOp {c s : Nat} (hd : MemOk d) : MemOk (vetoSetOp d c s) :=
  memStable.curfewCause _ _ (memStable.set _ _ hd)

theorem memOk_vetoClearOp {c s : Nat} (hd : MemOk d) : MemOk (vetoClearOp d c s) := memStable.set _ _ hd

theorem memOk_curfewTick {c t : Nat} (hd : MemOk d) : MemOk (curfewTick d c t) := by
  unfold curfewTick
  extract_lets d1 d2 d3 d4 d5 st
  have h1 : MemOk d1 := memOk_ite (memStable.curfewCause _ _ hd) hd
  have h2 : MemOk d2 := memStable.add _ _ h1
  have h3 : MemOk d3 := memOk_ite (memStable.modChan _ _ h2) h2
  have h4 : MemOk d4 := memOk_curfewCommitAt h3
  have h5 : MemOk d5 := memOk_curfewCallAt h4
  exact memStable.modChan _ _ h5

theorem memOk_markRecord {r bits : Nat} (hd : MemOk d) : MemOk (markRecord d r bits) := by
  unfold markRecord
  extract_lets front back dirty d1 w q changed d2 x d3 x10 d4
  have h1 : MemOk d1 := memOk_ite hd (memOk_forEach memOk_setMemW hd)
  have h2 : MemOk d2 := memOk_setMemW h1
  have h3 : MemOk d3 := memOk_ite h2 (memOk_mk h2)
  have h4 : MemOk d4 := memOk_ite (memOk_mk h3) h3
  exact memStable.inc _ h4

theorem memOk_applyMarks {n : Nat} {atBell : List Nat} (hd : MemOk d) : MemOk (applyMarks d n atBell) := by
  unfold applyMarks
  exact memOk_forEach (fun he => by
    extract_lets m bits
    exact memOk_ite he (memOk_forEach memOk_markRecord he)) hd

theorem memOk_svcPost {s : Nat} {soe : Bool} {r : EvRec} (hd : MemOk d) : MemOk (svcPost d s soe r) := by
  unfold svcPost
  refine memOk_ite hd ?_
  refine memOk_ite ?_ ?_
  · extract_lets d1
    have h1 : MemOk d1 := memOk_modSes hd
    exact memOk_ite h1 (memStable.inc _ h1)
  · extract_lets d2
    have h2 : MemOk d2 := memStable.inc _ hd
    exact memOk_ite (memStable.set _ _ h2) (memStable.set _ _ h2)

theorem memOk_publishRecord {s r : Nat} {k : SvcWork} {late : Bool} (hd : MemOk d) :
    MemOk (publishRecord d s k late r) := by
  unfold publishRecord
  split
  · exact hd
  · refine memOk_ite hd ?_
    extract_lets a w2 d1
    have h1 : MemOk d1 := memOk_svcPost hd
    exact memOk_ite (memOk_svcPost h1) h1

theorem memOk_publishSoe {s i : Nat} {k : SvcWork} {late : Bool} (hd : MemOk d) : MemOk (publishSoe d s k late i) := by
  unfold publishSoe
  refine memOk_ite hd ?_
  extract_lets a w1 w2
  exact memOk_svcPost hd

theorem memOk_resync {s n : Nat} (hd : MemOk d) : MemOk (resync d s n) := by
  unfold resync
  extract_lets room d1
  have h1 : MemOk d1 := memOk_ite (memOk_svcPost (memStable.set _ _ hd)) hd
  exact memOk_ite (memOk_svcPost (memStable.set _ _ h1)) h1

theorem memOk_publishTo {k : SvcWork} {late : Bool} {s : Nat} (hd : MemOk d) : MemOk (publishTo d k late s) := by
  unfold publishTo
  extract_lets d1 d2
  have h1 : MemOk d1 := memOk_resync hd
  have h2 : MemOk d2 := memOk_forEach memOk_publishRecord h1
  exact memOk_forEach memOk_publishSoe h2

theorem memOk_tickServices (hd : MemOk d) : MemOk (tickServices d) := by
  unfold tickServices
  split
  · exact hd
  · refine memOk_ite hd ?_
    extract_lets late d1 d2 x x4 d3 load
    have h1 : MemOk d1 := memOk_ite hd (memOk_applyMarks hd)
    have h2 : MemOk d2 := memOk_forEach memOk_publishTo h1
    have h3 : MemOk d3 := memOk_mk h2
    exact memStable.set _ _ (memStable.set _ _ (memOk_next h3))

theorem memOk_modOut {h : Nat} {f : TimedOut → TimedOut} (hd : MemOk d) : MemOk (modOut d h f) := memOk_mk hd
theorem memOk_toRefuse {s ch st : Nat} (hd : MemOk d) : MemOk (toRefuse d s ch st) := memOk_toStatus hd

theorem memOk_toQueue {s ch mid t tick : Nat} {policy late : Bool} {data : List Byte} (hd : MemOk d) :
    MemOk (toQueue d s ch mid t tick policy late data) := by
  unfold toQueue
  extract_lets h o d1 x d2
  have h1 : MemOk d1 := memOk_next hd
  have h2 : MemOk d2 := memStable.inc _ (memOk_toCount (memOk_mk h1))
  exact memStable.curfewCause _ _ (memOk_toStatus h2)

theorem memOk_toRequest {s w7 : Nat} (hd : MemOk d) : MemOk (toRequest d s w7) := by
  unfold toRequest
  extract_lets w ch mid policy ns dlen t data d1
  have h1 : MemOk d1 := memStable.inc _ hd
  exact memOk_ite (memOk_toRefuse hd) (memOk_ite (memOk_toRefuse hd) (memOk_ite (memOk_toRefuse hd) (memOk_ite
      (memOk_toQueue hd) (memOk_ite (memOk_toRefuse (memStable.ist _ _ h1)) (memOk_toQueue h1)))))

theorem memOk_toCancel {s h : Nat} (hd : MemOk d) : MemOk (toCancel d s h) := by
  unfold toCancel
  split
  · exact hd
  · split
    · exact memOk_toEnd hd
    · extract_lets d1
      have h1 : MemOk d1 := memOk_abortOp (memOk_modOut hd)
      exact memOk_ite h1 (memOk_toEnd h1)

theorem memOk_toPush {o : TimedOut} (hd : MemOk d) : MemOk (toPush d o) := by
  unfold toPush
  extract_lets free pl
  split
  · exact memOk_toEnd hd
  · extract_lets g d1 d2
    have h1 : MemOk d1 := memOk_setMemB (memStable.desc _ _ _ _ (memStable.desc _ _ _ _ (memStable.desc _ _ _ _ hd)))
    have h2 : MemOk d2 := memOk_modOut h1
    exact memStable.pushOp memRaised _ _ _ h2

theorem memOk_toPushDue (hd : MemOk d) : MemOk (toPushDue d) := by
  unfold toPushDue
  extract_lets d1 due
  have h1 : MemOk d1 := memOk_forEach memOk_toEnd hd
  exact memOk_forEach memOk_toPush h1

theorem memOk_toRecompute (hd : MemOk d) : MemOk (toRecompute d) := by
  unfold toRecompute
  exact memOk_forEach (fun he => by
    extract_lets a d1
    have h1 : MemOk d1 := memStable.inc _ he
    exact memOk_ite (memOk_modOut he) (memOk_ite (memOk_toEnd (memStable.ist _ _ h1)) (memOk_modOut h1))) hd

theorem memOk_discard {u : Nat} {f : Fld} (hd : MemOk d) : MemOk (discard d u f) :=
  memStable.ist _ _ (memStable.inc _ hd)

theorem memOk_noteCopy {mac prp : Nat} (hd : MemOk d) : MemOk (noteCopy d mac prp) := memOk_mk hd

theorem memOk_refuse {type auth reason sess seq : Nat} (hd : MemOk d) : MemOk (refuse d type auth reason sess seq) := by
  unfold refuse
  extract_lets w d1 d2
  have h1 : MemOk d1 := memStable.inc _ (memStable.setW _ _ (memStable.setW _ _ hd))
  have h2 : MemOk d2 := memStable.ist _ _ h1
  exact memStable.postAll _ _ h2

theorem memOk_refuseHello {h : Hello} {reason : Nat} (hd : MemOk d) : MemOk (refuseHello d h reason) :=
  memOk_send (memOk_refuse hd)

theorem memOk_endSession {s : Nat} {keep : OpReq → Bool} (hd : MemOk d) : MemOk (endSession d s keep) := by
  unfold endSession
  refine memOk_ite hd ?_
  extract_lets opened d1 d2 d3 x d4 d5
  have h1 : MemOk d1 := memOk_hostRetract hd
  have h2 : MemOk d2 := memOk_setSes h1
  have h3 : MemOk d3 := memOk_forEach (memStable.set _ _) h2
  have h4 : MemOk d4 := memOk_mk h3
  have h5 : MemOk d5 := memOk_forEach memOk_vetoClearOp h4
  exact memOk_ite (memStable.ist _ _ h5) h5

theorem memOk_closeSession {s : Nat} (hd : MemOk d) : MemOk (closeSession d s) := memOk_endSession hd

theorem memOk_pxmFragment {o : Otp} {f : PxmFrag} (hd : MemOk d) : MemOk (pxmFragment o d f) := by
  unfold pxmFragment
  extract_lets u d1 d2 old got rest d3 x
  have h1 : MemOk d1 := memOk_noteCopy (memOk_mk hd)
  have h2 : MemOk d2 := memStable.inc _ h1
  have h3 : MemOk d3 := memOk_mk h2
  refine memOk_ite (memOk_discard hd) ?_
  refine memOk_ite (memOk_discard hd) ?_
  refine memOk_ite ?_ (memOk_mk h2)
  split
  · exact h3
  · exact memOk_mk h3

theorem memOk_pxmTimeout {u mac xid : Nat} (hd : MemOk d) : MemOk (pxmTimeout d u mac xid) :=
  memOk_ite (memOk_discard (memOk_mk hd)) hd

theorem memOk_setBodies {l : List PxmBody} (hd : MemOk d) : MemOk (setBodies d l) := memOk_mk hd

theorem memOk_helloOp (hd : MemOk d) : MemOk (helloOp d) := by
  unfold helloOp
  refine memOk_ite hd ?_
  split
  · extract_lets d1 p x
    have h1 : MemOk d1 := memOk_setBodies hd
    exact memOk_ite (memOk_refuseHello h1) (memOk_ite (memOk_refuseHello h1) (memOk_ite (memOk_refuseHello h1)
        (memOk_mk h1)))
  · exact hd

theorem memOk_acceptSession {o : Otp} {h : Hello} {s : Nat} (hd : MemOk d) : MemOk (acceptSession o d h s) := by
  unfold acceptSession
  extract_lets p n d1 x
  have h1 : MemOk d1 := memOk_draw hd
  exact memOk_sendFrames (memOk_setSes h1)

theorem memOk_acceptOp {o : Otp} (hd : MemOk d) : MemOk (acceptOp o d) := by
  unfold acceptOp
  refine memOk_ite hd ?_
  split
  · exact hd
  · extract_lets x d1 p reason d2
    have h1 : MemOk d1 := memOk_mk hd
    have h2 : MemOk d2 := memOk_forEach (fun he => memOk_ite (memOk_closeSession he) he) h1
    refine memOk_ite (memOk_refuseHello h1) ?_
    refine memOk_ite (memOk_refuseHello h1) ?_
    split
    · exact memOk_acceptSession h2
    · exact memOk_refuseHello h2

theorem memOk_openTimeout {s : Nat} (hd : MemOk d) : MemOk (openTimeout d s) := memOk_ite (memOk_closeSession hd) hd
theorem memOk_liveTimeout {s : Nat} (hd : MemOk d) : MemOk (liveTimeout d s) := memOk_ite (memOk_closeSession hd) hd
theorem memOk_livenessLost {s : Nat} (hd : MemOk d) : MemOk (livenessLost d s) := memOk_modSes hd

theorem memOk_sessionExpiry {s : Nat} (hd : MemOk d) : MemOk (sessionExpiry d s) :=
  memOk_ite (memOk_closeSession hd) hd

theorem memOk_rollover {s u : Nat} {deviceSends : Bool} (hd : MemOk d) : MemOk (rollover d s u deviceSends) :=
  memOk_ite hd (memOk_ite (memOk_modSes hd) (memOk_ite hd (memOk_modSes hd)))

theorem memOk_sakRetire {s u : Nat} (hd : MemOk d) : MemOk (sakRetire d s u) := memOk_modSes hd

theorem memOk_opQueue {s : Nat} {p : Pennant} (hd : MemOk d) : MemOk (opQueue d s p) := by
  unfold opQueue
  refine memOk_ite (memOk_refuse hd) ?_
  extract_lets d1 x
  have h1 : MemOk d1 := memStable.setW _ _ hd
  exact memOk_ite (memOk_refuse (memStable.set _ _ (memStable.set _ _ h1))) (memOk_mk h1)

theorem memOk_opGo {o : Otp} {s len : Nat} (hd : MemOk d) : MemOk (opGo o d s len) := memOk_opQueue hd

theorem memOk_opState {s st reason : Nat} (hd : MemOk d) : MemOk (opState d s st reason) :=
  memStable.set _ _ (memStable.set _ _ hd)

theorem memOk_opDone {s : Nat} (hd : MemOk d) : MemOk (opDone d s) := memStable.ist _ _ (memOk_opState hd)

theorem memOk_opRefuse {r : OpReq} {reason : Nat} (hd : MemOk d) : MemOk (opRefuse d r reason) :=
  memOk_refuse (memOk_opState hd)

theorem memOk_debugClose (hd : MemOk d) : MemOk (debugClose d) := memOk_ite (memStable.set _ _ hd) hd

theorem memOk_rngHealth {apt : Bool} (hd : MemOk d) : MemOk (rngHealth d apt) := by
  unfold rngHealth
  extract_lets d1
  have h1 : MemOk d1 := memStable.inc _ hd
  exact memStable.raise _ _ (memStable.set _ _ h1)

theorem memOk_rngRecovery (hd : MemOk d) : MemOk (rngRecovery d) := memStable.condEnd _ _ (memStable.set _ _ hd)

theorem memOk_gateRefuse {err a b : Nat} (hd : MemOk d) : MemOk (gateRefuse d err a b) :=
  memStable.ist _ _ (memStable.set _ _ (memStable.set _ _ (memStable.set _ _ hd)))

theorem memOk_startDrain {l : List (Nat × Word × Word)} {byGo : Bool} (hd : MemOk d) : MemOk (startDrain d l byGo) :=
  memStable.set _ _ (memOk_mk hd)

theorem memOk_dropPermit (hd : MemOk d) : MemOk (dropPermit d) := memStable.set _ _ (memOk_mk hd)

theorem memOk_tryCommit {entry : Nat → Nat × Nat} {l : List (Nat × Word × Word)} {byGo : Bool} (hd : MemOk d) :
    MemOk (tryCommit d entry l byGo) := by
  unfold tryCommit
  split
  · exact memOk_startDrain hd
  · exact memStable.raise _ _ (memOk_gateRefuse hd)

theorem memOk_gateGo (hd : MemOk d) : MemOk (gateGo d) := by
  unfold gateGo
  refine memOk_ite (memOk_gateRefuse hd) ?_
  refine memOk_ite (memOk_gateRefuse hd) ?_
  extract_lets d1
  have h1 : MemOk d1 := memOk_tryCommit hd
  exact memOk_ite (memOk_dropPermit h1) h1

theorem memOk_writeTable {l : List (Nat × Word × Word)} (hd : MemOk d) : MemOk (writeTable d l) := by
  unfold writeTable
  exact memOk_forEach (fun he => by
    extract_lets e
    exact memStable.setW _ _ (memStable.setW _ _ he)) hd

theorem memOk_drainDone (hd : MemOk d) : MemOk (drainDone d) := by
  unfold drainDone
  split
  · exact hd
  · extract_lets d1 x
    have h1 : MemOk d1 := memOk_incWrap (memOk_writeTable hd)
    exact memStable.ist _ _ (memStable.set _ _ (memOk_mk h1))

theorem memOk_settle {addr len : Nat} (hd : MemOk d) : MemOk (settle d addr len) := memOk_ite (memOk_drainDone hd) hd
theorem memOk_modFlash {f : Flash → Flash} (hd : MemOk d) : MemOk (d.modFlash f) := memOk_mk hd
theorem memOk_modCfg {f : CfgSt → CfgSt} (hd : MemOk d) : MemOk (d.modCfg f) := memOk_mk hd
theorem memOk_lastErr {code : Nat} (hd : MemOk d) : MemOk (lastErr d code) := memStable.set _ _ hd

theorem memOk_rejectStaged {code : Nat} (hd : MemOk d) : MemOk (rejectStaged d code) :=
  memStable.set _ _ (memStable.ist _ _ (memStable.set _ _ hd))

theorem memOk_clearMem {a n : Nat} (hd : MemOk d) : MemOk (clearMem d a n) := wf_clearMem d a n hd

theorem memOk_expand {pkg : Package} {a : Nat} (hd : MemOk d) : MemOk (expand d pkg a) := by
  unfold expand
  extract_lets d1
  have h1 : MemOk d1 := memOk_forEach memOk_setMemB (memOk_clearMem hd)
  exact memOk_forEach memOk_setMemB h1

theorem memOk_freeStaged (hd : MemOk d) : MemOk (freeStaged d) := memStable.set _ _ (memOk_modCfg (memOk_modFlash hd))

theorem memOk_loadFirst {s len : Nat} (hd : MemOk d) : MemOk (loadFirst d s len) :=
  memOk_ite (memOk_lastErr hd) (memOk_ite (memOk_lastErr hd) (memStable.set _ _ (memOk_modCfg (memOk_freeStaged hd))))

theorem memOk_loadNext {s len : Nat} (hd : MemOk d) : MemOk (loadNext d s len) :=
  memOk_ite (memOk_lastErr hd) (memOk_ite (memOk_lastErr hd) (memOk_ite (memOk_lastErr hd) (memOk_modCfg hd)))

theorem memOk_keepLoaded {l : List Byte} (hd : MemOk d) : MemOk (keepLoaded d l) := memOk_modCfg (memOk_modFlash hd)

theorem memOk_chunkDone {flashOk : Bool} (hd : MemOk d) : MemOk (chunkDone d flashOk) := by
  unfold chunkDone
  split
  · exact hd
  · extract_lets l d1
    have h1 : MemOk d1 := memStable.set _ _ (memOk_modCfg hd)
    exact memOk_ite (memStable.raise _ _ (memOk_rejectStaged (memOk_keepLoaded hd))) (memOk_ite (memOk_rejectStaged
        (memOk_keepLoaded hd)) (memOk_ite (memStable.ist _ _ (memStable.set _ _ (memOk_keepLoaded h1))) h1))

theorem memOk_verifyStart (hd : MemOk d) : MemOk (verifyStart d) :=
  memOk_ite (memStable.set _ _ (memOk_modCfg hd)) (memOk_lastErr hd)

theorem memOk_verifyDone {o : Otp} (hd : MemOk d) : MemOk (verifyDone o d) := by
  unfold verifyDone
  refine memOk_ite hd ?_
  split
  · exact hd
  · extract_lets reason a
    exact memOk_ite (memOk_rejectStaged hd) (memStable.ist _ _ (memStable.set _ _ (memOk_modFlash (memOk_expand hd))))

theorem memOk_disarmOp (hd : MemOk d) : MemOk (disarmOp d) := memOk_ite (memStable.set _ _ hd) (memOk_lastErr hd)

theorem memOk_eraseOp (hd : MemOk d) : MemOk (eraseOp d) := by
  unfold eraseOp
  extract_lets st d1
  have h1 : MemOk d1 := memStable.set _ _ (memOk_freeStaged hd)
  exact memOk_ite (memOk_lastErr hd) (memOk_ite hd (memOk_ite (memOk_lastErr h1) h1))

theorem memOk_cfgCommand {cmd : Nat} (hd : MemOk d) : MemOk (cfgCommand d cmd) :=
  memOk_ite (memOk_verifyStart hd) (memOk_ite (memOk_disarmOp hd) (memOk_ite (memOk_eraseOp hd) hd))

theorem memOk_dropShadow {r : RegRow} {k : Nat} (hd : MemOk d) : MemOk (dropShadow d r k) := by
  unfold dropShadow
  split
  · exact hd
  · extract_lets n
    exact memStable.add _ _ (memOk_mk hd)

theorem memOk_applyPair {boot : Bool} {a v : Nat} (hd : MemOk d) : MemOk (applyPair boot d a v) := by
  unfold applyPair
  extract_lets p off k old
  refine memOk_ite hd ?_
  split
  · exact hd
  · refine memOk_ite hd ?_
    extract_lets new d1 x d2
    have h1 : MemOk d1 := memStable.setW _ _ (memOk_dropShadow hd)
    have h2 : MemOk d2 := memOk_ite (memOk_setDom h1) h1
    exact memOk_ite (memStable.softReset _ h2) h2

theorem memOk_genPages {pkg : Package} (hd : MemOk d) : MemOk (genPages d pkg) := by
  unfold genPages
  exact memOk_forEach (fun he => by
    extract_lets p
    exact memOk_ite (memStable.setW _ _ he) he) hd

theorem memOk_applyDescSection {old : Option Package} {pkg : Package} {boot : Bool} {c : Nat} (hd : MemOk d) :
    MemOk (applyDescSection old pkg boot d c) := by
  unfold applyDescSection
  extract_lets e d1 d2 left work
  have h1 : MemOk d1 := memStable.setW _ _ (memStable.set _ _ (memStable.set _ _ hd))
  have h2 : MemOk d2 := memStable.setW _ _ (memStable.set _ _ (memStable.set _ _ h1))
  exact memOk_ite (memOk_forEach memOk_applyDesc h2) (memStable.modChan _ _ h2)

theorem memOk_applyNodes {pkg : Package} {c : Nat} (hd : MemOk d) : MemOk (applyNodes pkg d c) := by
  unfold applyNodes
  extract_lets n was d1
  have h1 : MemOk d1 := memStable.modChan _ _ hd
  exact memOk_forEach (fun he => by
    extract_lets d2 d3
    have h2 : MemOk d2 := memStable.set _ _ (memStable.set _ _ (memStable.setBit _ _ _ he))
    have h3 : MemOk d3 := memStable.setBit _ _ _ (memStable.set _ _ h2)
    exact memStable.modChan _ _ h3) h1

theorem memOk_applySvcRange {pkg : Package} {c : Nat} (hd : MemOk d) : MemOk (applySvcRange pkg d c) := by
  unfold applySvcRange
  extract_lets e
  exact memStable.set _ _ (memStable.set _ _ hd)

theorem memOk_markGranules (hd : MemOk d) : MemOk (markGranules d) := memOk_forEach (memStable.setBit _ _ _) hd

theorem memOk_stageTable {entry : Nat → Nat × Nat} (hd : MemOk d) : MemOk (stageTable d entry) :=
  memOk_forEach (fun he => memStable.setW _ _ (memStable.setW _ _ he)) hd

theorem memOk_applyGate {pkg : Package} {boot : Bool} (hd : MemOk d) : MemOk (applyGate pkg boot d) := by
  unfold applyGate
  split
  · exact memOk_stageTable hd
  · extract_lets e x d1 d2 d3
    have h1 : MemOk d1 := memOk_ite (memOk_gateRefuse (memStable.set _ _ (memOk_mk hd))) hd
    have h2 : MemOk d2 := memOk_ite (memOk_dropPermit h1) h1
    have h3 : MemOk d3 := memOk_stageTable h2
    exact memOk_ite (memOk_ite (memOk_writeTable h3) h3) (memOk_tryCommit h3)

theorem memOk_takeForce {old : Option Package} {pkg : Package} {area : Option Nat} {boot : Bool} (hd : MemOk d) :
    MemOk (takeForce d old pkg area boot) := by
  unfold takeForce
  extract_lets d1 d2 d3 x d4
  have h1 : MemOk d1 := memOk_forEach memOk_applyPair hd
  have h2 : MemOk d2 := by
    unfold d2
    split
    · exact memOk_forEach (memStable.setW _ _) h1
    · exact h1
  have h3 : MemOk d3 := memOk_forEach (fun he => memOk_applySvcRange (memOk_applyNodes (memOk_applyDescSection he))) h2
  have h4 : MemOk d4 := memOk_ite h3 (memOk_mk h3)
  exact memOk_applyGate (memOk_markGranules h4)

theorem memOk_raiseGen (hd : MemOk d) : MemOk (raiseGen d) := memOk_ite hd (memOk_modCfg (memOk_incWrap hd))

theorem memOk_setRoles {act prev staged : Option Package} {slots : List Nat} {areas : List (Option Nat)}
    (hd : MemOk d) :
    MemOk (setRoles d act prev staged slots areas) := memOk_modFlash hd

theorem memOk_startProbation {n : Nat} (hd : MemOk d) : MemOk (startProbation d n) := by
  unfold startProbation
  extract_lets d1
  have h1 : MemOk d1 := memOk_modCfg hd
  exact memOk_ite (memStable.ist _ _ h1) (memStable.set _ _ (memStable.set _ _ h1))

theorem memOk_endProbation (hd : MemOk d) : MemOk (endProbation d) :=
  memOk_modCfg (memStable.set _ _ (memStable.set _ _ hd))

theorem memOk_countCommit (hd : MemOk d) : MemOk (countCommit d) := memStable.ist _ _ (memStable.inc _ hd)

theorem memOk_commitPackage (hd : MemOk d) : MemOk (commitPackage d) := by
  unfold commitPackage
  split
  · exact hd
  · extract_lets old d1 d2 d3 d4 d5
    have h1 : MemOk d1 := memOk_setRoles hd
    have h2 : MemOk d2 := memOk_modCfg (memStable.set _ _ (memStable.set _ _ h1))
    have h3 : MemOk d3 := memOk_takeForce h2
    have h4 : MemOk d4 := memOk_genPages (memOk_raiseGen h3)
    have h5 : MemOk d5 := memOk_startProbation h4
    exact memStable.condEnd _ _ (memOk_countCommit h5)

theorem memOk_recordReturn {cause : Nat} (hd : MemOk d) : MemOk (recordReturn d cause) :=
  memStable.ist _ _ (memStable.inc _ (memStable.setW _ _ hd))

theorem memOk_returnRoles {act : Option Package} (hd : MemOk d) : MemOk (returnRoles d act) := by
  unfold returnRoles
  refine memOk_ite (memOk_setRoles hd) ?_
  extract_lets failed d1
  have h1 : MemOk d1 := memOk_freeStaged hd
  exact memOk_lastErr (memStable.set _ _ (memOk_setRoles h1))

theorem memOk_returnOp {cause : Nat} (hd : MemOk d) : MemOk (returnOp d cause) := by
  unfold returnOp
  split
  · exact memStable.raise _ _ (memOk_recordReturn (memOk_endProbation hd))
  · extract_lets old d1 d2 d3
    have h1 : MemOk d1 := memOk_endProbation (memOk_returnRoles hd)
    have h2 : MemOk d2 := memOk_takeForce h1
    have h3 : MemOk d3 := memOk_countCommit (memOk_genPages (memOk_raiseGen h2))
    exact memStable.raise _ _ (memOk_recordReturn h3)

theorem memOk_exchangeOp (hd : MemOk d) : MemOk (exchangeOp d) := by
  unfold exchangeOp
  split
  · exact hd
  · extract_lets old d1 d2 d3 d4
    have h1 : MemOk d1 := memOk_setRoles hd
    have h2 : MemOk d2 := memOk_ite (memStable.set _ _ h1) h1
    have h3 : MemOk d3 := memOk_takeForce h2
    have h4 : MemOk d4 := memOk_countCommit (memOk_genPages (memOk_raiseGen h3))
    exact memOk_recordReturn h4

theorem memOk_manualReturnOp (hd : MemOk d) : MemOk (manualReturnOp d) := by
  unfold manualReturnOp
  extract_lets d1
  have h1 : MemOk d1 := memOk_modCfg hd
  exact memOk_ite (memOk_returnOp h1) (memOk_exchangeOp h1)

theorem memOk_noteFailure {t : Nat} (hd : MemOk d) : MemOk (noteFailure d t) := memOk_ite (memOk_modCfg hd) hd

theorem memOk_probationTick (hd : MemOk d) : MemOk (probationTick d) := by
  unfold probationTick
  refine memOk_ite hd ?_
  extract_lets live d1 left d2
  have h1 : MemOk d1 := memOk_ite (memOk_modCfg hd) hd
  have h2 : MemOk d2 := memOk_noteFailure (memStable.set _ _ h1)
  exact memOk_ite (memStable.ist _ _ (memOk_endProbation h2)) h2

theorem memOk_packageTick (hd : MemOk d) : MemOk (packageTick d) := by
  unfold packageTick
  extract_lets d1
  have h1 : MemOk d1 := memOk_ite (memOk_manualReturnOp hd) (memOk_ite (memOk_returnOp hd) hd)
  exact memOk_ite (memOk_commitPackage h1) h1

theorem memOk_writeRoles (hd : MemOk d) : MemOk (writeRoles d) := memOk_modFlash hd
theorem memOk_modPwr {f : PwrSt → PwrSt} (hd : MemOk d) : MemOk (d.modPwr f) := memOk_mk hd

theorem memOk_noteProbation {prob : Bool} (hd : MemOk d) : MemOk (noteProbation d prob) :=
  memStable.setB _ _ (memOk_modFlash hd)

/-- A restart zeroes the memory. -/
theorem memOk_clearDev {o : Otp} {d : Dev} {st : Straps} {aon : Aon} : MemOk (clearDev o d st aon) := memOk_mk rfl

theorem memOk_bootPackage {pkg : Package} {prev : Option Package} (hd : MemOk d) : MemOk (bootPackage d pkg prev) := by
  unfold bootPackage
  extract_lets d1 d2 d3 d4
  have h1 : MemOk d1 := memOk_expand hd
  have h2 : MemOk d2 := by
    unfold d2
    split
    · exact memOk_expand h1
    · exact h1
  have h3 : MemOk d3 := memOk_modFlash h2
  have h4 : MemOk d4 := memOk_takeForce h3
  exact memOk_forEach memOk_enablePage h4

theorem memOk_bootReturn (hd : MemOk d) : MemOk (bootReturn d) := by
  unfold bootReturn
  split
  · exact memStable.raise _ _ (memOk_recordReturn hd)
  · extract_lets failed d1
    have h1 : MemOk d1 := memOk_lastErr (memStable.set _ _ (memOk_setRoles hd))
    exact memStable.raise _ _ (memOk_recordReturn (memOk_countCommit h1))

theorem memOk_bootPackages {o : Otp} {probation : Bool} (hd : MemOk d) : MemOk (bootPackages o d probation) := by
  unfold bootPackages
  extract_lets d1 good d2
  have h1 : MemOk d1 := memOk_ite (memOk_bootReturn hd) hd
  have h2 : MemOk d2 := memStable.raise _ _ h1
  split
  · refine memOk_ite (memOk_bootPackage h1) ?_
    split
    · exact memOk_ite (memOk_bootPackage (memOk_setRoles h2)) (memStable.raise _ _ (memStable.set _ _ h2))
    · exact memStable.raise _ _ (memStable.set _ _ h2)
  · split
    · exact memOk_ite (memOk_bootPackage (memOk_setRoles h1)) (memStable.raise _ _ (memStable.set _ _ h1))
    · exact memStable.raise _ _ (memStable.set _ _ h1)

theorem memOk_certStart (hd : MemOk d) : MemOk (certStart d) :=
  memOk_ite (memOk_forEach (memStable.setBit _ _ _) hd) hd

theorem memOk_startUp {o : Otp} {probation : Bool} (hd : MemOk d) : MemOk (startUp o d probation) := by
  unfold startUp
  extract_lets d1 d2 d3 x x4 x5 d4
  have h1 : MemOk d1 := memStable.setB _ _ hd
  have h2 : MemOk d2 := memOk_forEach (memStable.set _ _) h1
  have h3 : MemOk d3 := memStable.set _ _ h2
  have h4 : MemOk d4 := memOk_ite (memOk_mk h3) h2
  exact memOk_certStart (memOk_bootPackages (memOk_loadVault h4))

theorem memOk_keepPower {old : Dev} (hd : MemOk d) : MemOk (keepPower old d) :=
  memStable.set _ _ (memStable.set _ _ (memStable.set _ _ hd))

theorem memOk_startGasp (hd : MemOk d) : MemOk (startGasp d) := by
  unfold startGasp
  extract_lets d1 d2
  have h1 : MemOk d1 := memOk_modFlash (memOk_modPwr hd)
  have h2 : MemOk d2 := memStable.ist _ _ (memStable.set _ _ h1)
  exact memOk_ite (memStable.raise _ _ h2) h2

theorem memOk_inputLostOp {a b : Bool} (hd : MemOk d) : MemOk (inputLostOp d a b) := by
  unfold inputLostOp
  extract_lets lostA lostB old d1 d2 d3
  have h1 : MemOk d1 := memOk_modPwr hd
  have h2 : MemOk d2 := memStable.ist _ _ (memStable.inc _ (memOk_modPwr h1))
  have h3 : MemOk d3 := memStable.inc _ h1
  exact memOk_ite h1 (memOk_ite h1 (memOk_ite (memOk_startGasp h1) (memOk_ite (memOk_ite
      (memStable.raise _ _ h2) h2) (memOk_ite (memStable.raise _ _ h3) h3))))

theorem memOk_gaspSend (hd : MemOk d) : MemOk (gaspSend d) := memOk_send hd
theorem memOk_inputValidOp {x : Side} (hd : MemOk d) : MemOk (inputValidOp d x) := memOk_ite hd (memOk_modPwr hd)

theorem memOk_revertOp (hd : MemOk d) : MemOk (revertOp d) := by
  unfold revertOp
  extract_lets m
  exact memOk_ite hd (memStable.ist _ _ (memStable.inc _ (memOk_modPwr hd)))

theorem memOk_holdLowOp {cap : Nat} (hd : MemOk d) : MemOk (holdLowOp d cap) :=
  memStable.raise _ _ (memStable.set _ _ (memStable.set _ _ hd))

theorem memOk_holdChargedOp {cap : Nat} (hd : MemOk d) : MemOk (holdChargedOp d cap) :=
  memOk_ite hd (memStable.condEnd _ _ (memStable.set _ _ (memStable.set _ _ hd)))

theorem memOk_vauxOcOp (hd : MemOk d) : MemOk (vauxOcOp d) :=
  memOk_ite hd (memStable.raise _ _ (memStable.inc _ (memStable.ist _ _ (memStable.set _ _ (memStable.set _ _ hd)))))

theorem memOk_vauxSet {on : Bool} (hd : MemOk d) : MemOk (vauxSet d on) :=
  memStable.condEnd _ _ (memStable.setB _ _ hd)

theorem memOk_vauxRetryOp (hd : MemOk d) : MemOk (vauxRetryOp d) := memOk_ite (memOk_vauxSet hd) hd

theorem memOk_railDevOp {r : Nat} (hd : MemOk d) : MemOk (railDevOp d r) :=
  memOk_ite hd (memStable.raise _ _ (memStable.set _ _ hd))

theorem memOk_railBackOp {r : Nat} (hd : MemOk d) : MemOk (railBackOp d r) := by
  unfold railBackOp
  refine memOk_ite hd ?_
  extract_lets d1
  have h1 : MemOk d1 := memStable.set _ _ hd
  exact memOk_ite (memStable.condEnd _ _ h1) h1

theorem memOk_readEffect {p off : Nat} (hd : MemOk d) : MemOk (readEffect d p off) :=
  memOk_ite (memStable.setW _ _ hd) (memOk_ite (memOk_captureNow hd) (memOk_ite (memOk_next hd) hd))

theorem memOk_setEnable {p : Nat} {en : Bool} (hd : MemOk d) : MemOk (setEnable d p en) := by
  unfold setEnable
  extract_lets was d1
  have h1 : MemOk d1 := memStable.setB _ _ hd
  exact memOk_ite (memStable.modChan _ _ (memOk_enablePage (memStable.set _ _ h1))) h1

theorem memOk_setFreeze {o : Otp} {p : Nat} {on : Bool} (hd : MemOk d) : MemOk (setFreeze o d p on) := by
  unfold setFreeze
  extract_lets was d1
  have h1 : MemOk d1 := memStable.setB _ _ hd
  exact memOk_ite (memOk_ite h1 (memOk_mk h1)) (memOk_mk h1)

theorem memOk_writeCtl {o : Otp} {p v : Nat} (hd : MemOk d) : MemOk (writeCtl o d p v) := by
  unfold writeCtl
  extract_lets d1
  have h1 : MemOk d1 := memOk_setEnable (memOk_setFreeze hd)
  exact memOk_ite (memStable.softReset _ h1) h1

theorem memOk_forceIst {p v : Nat} (hd : MemOk d) : MemOk (forceIst d p v) := memStable.setW _ _ hd

theorem memOk_forceFaults {p v : Nat} (hd : MemOk d) : MemOk (forceFaults d p v) :=
  memOk_forEach (memStable.raiseForced _ _) hd

theorem memOk_wrIgnored {p : Nat} (hd : MemOk d) : MemOk (wrIgnored d p) := memStable.raise _ _ (memStable.set _ _ hd)

theorem memOk_writeFields {p off v : Nat} (hd : MemOk d) : MemOk (writeFields d p off v) := by
  unfold writeFields
  split
  · exact hd
  · extract_lets k blocked v wm cm sm sv d1 d2
    have h1 : MemOk d1 := memStable.setW _ _ hd
    have h2 : MemOk d2 := memOk_ite h1 (memOk_shadow h1)
    exact memOk_ite (memOk_wrIgnored h2) h2

theorem memOk_qpush {w : Who} {c i : Nat} (hd : MemOk d) : MemOk (qpush d w c i) := memStable.pushOp memRaised _ _ _ hd

theorem memOk_abortWrite {c v : Nat} (hd : MemOk d) : MemOk (abortWrite d c v) :=
  memOk_ite (memStable.abortAllOf _ hd) (memOk_abortOp hd)

theorem memOk_vetoWrite {w : Who} {c : Nat} {on : Bool} (hd : MemOk d) : MemOk (vetoWrite d w c on) := by
  unfold vetoWrite
  split
  · exact memOk_ite (memOk_vetoSetOp hd) (memOk_vetoClearOp hd)
  · exact hd

theorem memOk_penCloseOp {w : Who} {v : Nat} (hd : MemOk d) : MemOk (penCloseOp d w v) := by
  unfold penCloseOp
  refine memOk_ite hd ?_
  split
  · exact memOk_closeSession hd
  · exact hd

theorem memOk_toreqWrite {s v : Nat} (hd : MemOk d) : MemOk (toreqWrite d s v) := by
  unfold toreqWrite
  extract_lets d1
  have h1 : MemOk d1 := memOk_writeFields hd
  exact memOk_ite (memOk_toRequest h1) h1

theorem memOk_tgtWrite {w : Who} {off v : Nat} (hd : MemOk d) : MemOk (tgtWrite d w off v) := by
  unfold tgtWrite
  extract_lets t j d1
  have h1 : MemOk d1 := by
    unfold d1
    split
    · exact memOk_ite (memOk_stewardWakes hd) hd
    · exact hd
  exact memOk_ite h1 (memOk_ite (memOk_claimOp h1) (memOk_ite (memOk_completeOp h1) (memOk_retractIneligible
      (memOk_writeFields h1))))

theorem memOk_penWrite {o : Otp} {w : Who} {off v : Nat} (hd : MemOk d) : MemOk (penWrite o d w off v) := by
  unfold penWrite
  refine memOk_ite (memOk_penCloseOp hd) ?_
  refine memOk_ite ?_ hd
  split
  · exact memOk_opGo hd
  · exact hd

theorem memOk_cfgWrite {w : Who} {off v : Nat} (hd : MemOk d) : MemOk (cfgWrite d w off v) := by
  unfold cfgWrite
  refine memOk_ite (memOk_cfgCommand hd) ?_
  refine memOk_ite ?_ (memOk_writeFields hd)
  split
  · exact memOk_ite (memOk_loadFirst hd) (memOk_loadNext hd)
  · exact hd

theorem memOk_abdicateReq (hd : MemOk d) : MemOk (abdicateReq d) :=
  memOk_ite (memStable.releaseHead (memStable.ist _ _ (memStable.inc _ (memOk_twinSend hd)))) (memStable.ist _ _ hd)

theorem memOk_writeHeader {o : Otp} {p off v : Nat} (hd : MemOk d) : MemOk (writeHeader o d p off v) := by
  unfold writeHeader
  refine memOk_ite (memOk_writeCtl hd) ?_
  refine memOk_ite (memOk_forceIst hd) ?_
  refine memOk_ite (memOk_forceFaults hd) ?_
  refine memOk_ite (memOk_ite (memStable.ackPage _ hd) hd) ?_
  extract_lets d1
  have h1 : MemOk d1 := memOk_writeFields hd
  exact memOk_ite (memOk_withdraw h1) (memOk_ite (memStable.modPage _ _ h1) h1)

theorem memOk_writeChan {w : Who} {p off v : Nat} (hd : MemOk d) : MemOk (writeChan d w p off v) := by
  unfold writeChan
  extract_lets c d1 d2
  have h1 : MemOk d1 := memOk_writeFields hd
  have h2 : MemOk d2 := memOk_ite (memOk_rclrOp hd) hd
  exact memOk_ite (memOk_ite (memStable.curfewCause _ _ hd) hd) (memOk_ite (memOk_vetoWrite hd) (memOk_ite
      (memOk_groupsWake (memOk_writeFields hd)) (memOk_ite (memOk_ite (memStable.waitAfter _ _ h1) (memOk_ite
      (memStable.waitAfter _ _ h1) h1)) (memOk_ite (memOk_qpush hd) (memOk_ite (memOk_abortWrite hd) (memOk_ite
      (memOk_rxrelOp hd) (memOk_ite (memOk_ite (memOk_restartOp h2) h2) (memOk_writeFields hd))))))))

theorem memOk_writeReg {o : Otp} {w : Who} {p off v : Nat} (hd : MemOk d) : MemOk (writeReg o d w p off v) := by
  unfold writeReg
  refine memOk_ite (memOk_writeHeader hd) ?_
  refine memOk_ite (memOk_writeChan hd) ?_
  refine memOk_ite (memOk_ite (memOk_ite (memOk_migrateOp hd) hd) (memOk_ite (memOk_pfpopOp hd)
      (memOk_writeFields hd))) ?_
  refine memOk_ite (memOk_ite (memOk_ite (memOk_bistWrite hd) hd) (memOk_writeFields hd)) ?_
  refine memOk_ite (memOk_ite (memStable.set _ _ hd) hd) ?_
  refine memOk_ite ?_ ?_
  · extract_lets d1
    have h1 : MemOk d1 := memOk_writeFields hd
    exact memOk_ite h1 (memOk_vauxSet h1)
  · refine memOk_ite ?_ ?_
    · extract_lets d2 x
      have h2 : MemOk d2 := memOk_writeFields hd
      exact memOk_ite h2 (memOk_setDom h2)
    · refine memOk_ite (memOk_penWrite hd) ?_
      refine memOk_ite (memOk_intcRaise hd) ?_
      refine memOk_ite (memOk_tgtWrite hd) ?_
      refine memOk_ite (memOk_retractIneligible (memOk_withdraw (memOk_writeFields hd))) ?_
      refine memOk_ite (memOk_ite (memOk_gateGo hd) hd) ?_
      refine memOk_ite hd ?_
      refine memOk_ite (memOk_soerelOp hd) ?_
      refine memOk_ite ?_ (memOk_ite (memOk_toreqWrite hd) (memOk_ite (memOk_cfgWrite hd) (memOk_ite (memOk_ite
          (memOk_abdicateReq hd) hd) (memOk_writeFields hd))))
      split
      · exact memOk_ite (memOk_toCancel hd) hd
      · exact hd

theorem memOk_respond {u : UrtHdr} {op status addr : Nat} {data : List Nat} (hd : MemOk d) :
    MemOk (respond d u op status addr data) := memOk_ite (memOk_send hd) hd

theorem memOk_markLive {n : Nat} (hd : MemOk d) : MemOk (markLive d n) := by
  unfold markLive
  extract_lets d1
  have h1 : MemOk d1 := memOk_ite (memStable.inc _ (memStable.ist _ _ hd)) hd
  exact memOk_modSes h1

theorem memOk_macsecTake {u : UrtHdr} {e : Dev} (hs : macsecTake d u = some e) (hd : MemOk d) : MemOk e := by
  unfold macsecTake at hs
  split at hs
  · rwa [← Option.some.inj hs]
  · split at hs
    · rwa [← Option.some.inj hs]
    · obtain ⟨x, -, rfl⟩ := Option.map_eq_some_iff.mp hs
      exact memOk_setSes hd

theorem memOk_urtArrive {u : UrtHdr} (hd : MemOk d) : MemOk (urtArrive d u).1 := by
  unfold urtArrive
  refine memOk_ite_fst hd ?_
  split
  · exact memOk_discard hd
  · next hs =>
    have h1 := memOk_macsecTake hs hd
    exact memOk_ite_fst (memOk_discard h1) (memOk_ite_fst (memOk_discard (memOk_noteCopy h1))
      (memOk_markLive (memStable.inc _ (memOk_mk (memOk_noteCopy h1)))))

theorem memOk_urtEvack {u : UrtHdr} {seq : Nat} (hd : MemOk d) : MemOk (urtEvack d u seq) := by
  unfold urtEvack
  refine memOk_ite (memOk_respond hd) ?_
  extract_lets n done d1 d2
  have h1 : MemOk d1 := memOk_modSes hd
  have h2 : MemOk d2 := memOk_forEach (fun he => by
    split
    · exact memOk_hostClaim he
    · exact he) h1
  exact memOk_respond h2

theorem memOk_urtPing {u : UrtHdr} {addr : Nat} (hd : MemOk d) : MemOk (urtPing d u addr) := memOk_respond hd

theorem memOk_sendEvent {s n : Nat} (hd : MemOk d) : MemOk (sendEvent d s n) := by
  unfold sendEvent
  extract_lets x recs
  exact memOk_ite hd (memOk_send (memOk_modSes hd))

theorem memOk_resendEvent {s : Nat} (hd : MemOk d) : MemOk (resendEvent d s) := by
  unfold resendEvent
  split
  · exact hd
  · exact memOk_send hd

theorem memOk_linkUpOp {u : Nat} (hd : MemOk d) : MemOk (linkUpOp d u) :=
  memOk_ite hd (memStable.condEnd _ _ (memStable.ist _ _ (memOk_mk hd)))

theorem memOk_linkDownOp {u : Nat} (hd : MemOk d) : MemOk (linkDownOp d u) := by
  unfold linkDownOp
  refine memOk_ite hd ?_
  extract_lets d1
  have h1 : MemOk d1 := memStable.raise _ _ (memStable.ist _ _ (memStable.inc _ (memOk_mk hd)))
  exact memOk_domAbsent (memStable.set _ _ h1)

theorem memOk_frameDiscard {u : Nat} {k : DiscardKind} (hd : MemOk d) : MemOk (frameDiscard d u k) := by
  unfold frameDiscard
  refine memOk_ite hd ?_
  split
  · exact memOk_discard hd
  · exact memOk_discard hd

theorem memOk_vigilBegin (hd : MemOk d) : MemOk (vigilBegin d) := memOk_vigilRetract (memStable.set _ _ hd)
theorem memOk_vigilEntry (hd : MemOk d) : MemOk (vigilEntry d) := memOk_ite (memOk_vigilBegin hd) hd
theorem memOk_vigilStore (hd : MemOk d) : MemOk (vigilStore d) := memOk_forEach memOk_setMemB (memOk_next hd)

theorem memOk_vigilEntered (hd : MemOk d) : MemOk (vigilEntered d) := by
  unfold vigilEntered
  refine memOk_ite hd ?_
  extract_lets d1
  have h1 : MemOk d1 := memStable.ist _ _ (memStable.inc _ (memStable.set _ _ (memOk_vigilStore hd)))
  exact memOk_flipHeldAt (memOk_mk h1)

theorem memOk_vigilWake {v : VigilCause} (hd : MemOk d) : MemOk (vigilWake d v) := by
  unfold vigilWake
  split
  · exact memOk_ite (memStable.curfewCause _ _ hd) hd
  · exact hd

theorem memOk_vigilAbort {v : VigilCause} (hd : MemOk d) : MemOk (vigilAbort d v) :=
  memOk_vigilWake (memStable.inc _ (memStable.set _ _ hd))

theorem memOk_vigilAwake {v : VigilCause} (hd : MemOk d) : MemOk (vigilAwake d v) := by
  unfold vigilAwake
  extract_lets d1
  have h1 : MemOk d1 := memStable.ist _ _ (memStable.set _ _ (memStable.set _ _ hd))
  exact memOk_vigilWake (memOk_flipHeldAt (memOk_mk h1))

theorem memOk_hbSend (hd : MemOk d) : MemOk (hbSend d) := by
  unfold hbSend
  refine memOk_ite hd ?_
  extract_lets head recs d1 st
  have h1 : MemOk d1 := memOk_ite (memOk_mk hd) hd
  exact memOk_twinSend h1

theorem memOk_toJoining (hd : MemOk d) : MemOk (toJoining d) := memOk_modTwin (memStable.set _ _ hd)

theorem memOk_split {o : Otp} (hd : MemOk d) : MemOk (split o d) := by
  unfold split
  extract_lets d1
  have h1 : MemOk d1 := memStable.inc _ (memStable.raise _ _ hd)
  split
  · exact memOk_ite (memStable.releaseHead h1) h1
  · exact h1

theorem memOk_hbTake {o : Otp} {f : HbFrame} (hd : MemOk d) : MemOk (hbTake o d f) := by
  unfold hbTake
  extract_lets d1 d2 role
  have h1 : MemOk d1 := memOk_modTwin (memStable.setB _ _ (memStable.set _ _ hd))
  have h2 : MemOk d2 := memOk_forEach (memStable.modChan _ _) h1
  exact memOk_ite h2 (memOk_ite (memOk_toJoining h2) (memOk_ite (memOk_split h2) h2))

theorem memOk_hbMissed (hd : MemOk d) : MemOk (hbMissed d) := by
  unfold hbMissed
  extract_lets d1
  have h1 : MemOk d1 := memStable.inc _ hd
  exact memOk_ite (memStable.raise _ _ h1) h1

theorem memOk_resumeChan {c : Nat} (hd : MemOk d) : MemOk (resumeChan d c) := by
  unfold resumeChan
  extract_lets d1
  have h1 : MemOk d1 := memStable.modChan _ _ hd
  split
  · exact h1
  · refine memOk_ite h1 ?_
    split
    · exact h1
    · exact memStable.putEntry _ _ h1

theorem memOk_takeHeadship (hd : MemOk d) : MemOk (takeHeadship d) := by
  unfold takeHeadship
  refine memOk_ite hd ?_
  extract_lets d1 d2
  have h1 : MemOk d1 := memOk_modTwin (memStable.ist _ _ (memStable.inc _ (memStable.set _ _ hd)))
  have h2 : MemOk d2 := memOk_forEach memOk_resumeChan h1
  exact memOk_ite h2 (memStable.raise _ _ h2)

theorem memOk_abdicateArrives (hd : MemOk d) : MemOk (abdicateArrives d) := memOk_ite hd (memOk_takeHeadship hd)
theorem memOk_startTimeout (hd : MemOk d) : MemOk (startTimeout d) := memOk_ite (memStable.set _ _ (memOk_pass hd)) hd
theorem memOk_headshipLow (hd : MemOk d) : MemOk (headshipLow d) := memOk_ite (memOk_toJoining hd) hd

theorem memOk_safeAbdication (hd : MemOk d) : MemOk (safeAbdication d) := by
  unfold safeAbdication
  extract_lets done
  exact memOk_ite (memStable.set _ _ (memStable.releaseHead (memStable.ist _ _ (memStable.inc _
      (memOk_twinSend hd))))) hd

theorem memOk_resync' {phase : Nat} (hd : MemOk d) : MemOk (resync' d phase) :=
  memOk_modTwin (memStable.set _ _ (memStable.set _ _ hd))

theorem memOk_twinUp (hd : MemOk d) : MemOk (twinUp d) := memOk_ite hd (memOk_twinSend (memOk_modTwin hd))

theorem memOk_pairDone {m : PairMsg} (hd : MemOk d) : MemOk (pairDone d m) := by
  unfold pairDone
  extract_lets d1
  have h1 : MemOk d1 := memOk_modTwin (memStable.set _ _ (memStable.set _ _ hd))
  exact memOk_ite h1 (memOk_resync' h1)

theorem memOk_pairOp {m : PairMsg} (hd : MemOk d) : MemOk (pairOp d m) :=
  memOk_ite (memOk_twinSend hd) (memOk_ite (memOk_pairDone hd) (memStable.raise _ _ hd))

theorem memOk_twinDown (hd : MemOk d) : MemOk (twinDown d) := by
  unfold twinDown
  refine memOk_ite hd ?_
  extract_lets d1
  have h1 : MemOk d1 := memStable.ist _ _ (memStable.inc _ (memStable.set _ _ hd))
  exact memOk_modTwin (memOk_resync' (memStable.set _ _ h1))

theorem memOk_twinRekey (hd : MemOk d) : MemOk (twinRekey d) := memOk_ite (memOk_modTwin hd) hd
theorem memOk_joinStops (hd : MemOk d) : MemOk (joinStops d) := memStable.raise _ _ (memOk_resync' hd)
theorem memOk_joinTimeout (hd : MemOk d) : MemOk (joinTimeout d) := memOk_ite (memOk_joinStops (memOk_pass hd)) hd

theorem memOk_twinShadow {k m v : Nat} (hd : MemOk d) : MemOk (twinShadow d k m v) := by
  unfold twinShadow
  split
  · exact hd
  · extract_lets m
    exact memOk_ite (memOk_shadow hd) (memStable.setW _ _ hd)

theorem memOk_twinConfine {c t r fence : Nat} {scores : List (Nat × Nat)} (hd : MemOk d) :
    MemOk (twinConfine d c t r fence scores) := by
  unfold twinConfine
  extract_lets was d1 d2 d3 d4
  have h1 : MemOk d1 := memStable.set _ _ (memStable.set _ _ (memStable.set _ _ hd))
  have h2 : MemOk d2 := memStable.setB _ _ h1
  have h3 : MemOk d3 := memStable.setW _ _ h2
  have h4 : MemOk d4 := memOk_forEach (fun he => memOk_ite he (memStable.setBit _ _ _ (memStable.set _ _
      (memStable.set _ _ he)))) h3
  exact memOk_forEach (fun he => memOk_ite he (by
    extract_lets d5 hold
    have h5 : MemOk d5 := memStable.set _ _ he
    exact memStable.modChan _ _ h5)) h4

theorem memOk_twinCurfew {c st awake veto : Nat} (hd : MemOk d) : MemOk (twinCurfew d c st awake veto) := by
  unfold twinCurfew
  extract_lets was d1
  have h1 : MemOk d1 := memStable.set _ _ (memStable.set _ _ (memStable.set _ _ hd))
  exact memOk_ite h1 (memStable.modChan _ _ (memOk_ite (memStable.waitAfter _ _ h1) h1))

theorem memOk_twinDesc {c i : Nat} {w0 w1 w2 w3 : Word} {queued : Bool} {payload : List Byte} (hd : MemOk d) :
    MemOk (twinDesc d c i w0 w1 w2 w3 queued payload) := by
  unfold twinDesc
  extract_lets d1 d2 d3
  have h1 : MemOk d1 := memStable.desc _ _ _ _ (memStable.desc _ _ _ _ (memStable.desc _ _ _ _
      (memStable.desc _ _ _ _ hd)))
  have h2 : MemOk d2 := memOk_ite h1 (memOk_setMemB h1)
  have h3 : MemOk d3 := memStable.modChan _ _ h2
  exact memStable.qstat _ h3

theorem memOk_twinKeys {c : Nat} {old cur next : Option (Nat × BitVec 256)} {ep : EpochWire} (hd : MemOk d) :
    MemOk (twinKeys d c old cur next ep) := by
  unfold twinKeys
  extract_lets d1
  have h1 : MemOk d1 := memStable.set _ _ (memStable.set _ _ (memStable.set _ _ hd))
  exact memStable.modChan _ _ h1

theorem memOk_twinEnroll {c a : Nat} {k : Option (BitVec 256)} (hd : MemOk d) : MemOk (twinEnroll d c a k) :=
  memStable.setBit _ _ _ (memOk_storeKey hd)

theorem memOk_twinOut {o : TimedOut} {ended : Bool} (hd : MemOk d) : MemOk (twinOut d o ended) := by
  unfold twinOut
  extract_lets rest x
  exact memOk_toCount (memOk_mk hd)

theorem memOk_synced (hd : MemOk d) : MemOk (synced d) := by
  unfold synced
  extract_lets d1
  have h1 : MemOk d1 := memStable.set _ _ (memStable.set _ _ hd)
  exact memStable.ist _ _ (memStable.inc _ (memStable.set _ _ h1))

theorem memOk_commitDone (hd : MemOk d) : MemOk (commitDone d) := by
  unfold commitDone
  extract_lets d1
  have h1 : MemOk d1 := memOk_modTwin hd
  exact memOk_ite (memOk_synced h1) h1

theorem memOk_twinCommit {n : Nat} {digest : Option (BitVec 384)} (hd : MemOk d) : MemOk (twinCommit d n digest) := by
  unfold twinCommit
  extract_lets d1
  have h1 : MemOk d1 := memOk_modTwin hd
  exact memOk_ite (memOk_commitDone h1) h1

theorem memOk_countDelta (hd : MemOk d) : MemOk (countDelta d) := by
  unfold countDelta
  refine memOk_ite (memOk_modTwin hd) ?_
  extract_lets d1
  have h1 : MemOk d1 := memOk_modTwin hd
  exact memOk_ite (memOk_commitDone h1) h1

theorem memOk_twinDamage {badTag : Bool} {phase : Nat} (hd : MemOk d) : MemOk (twinDamage d badTag phase) :=
  memStable.raise _ _ (memOk_resync' (memOk_iff (memStable.inc _) hd))

theorem memOk_applyDelta {m : Delta} (hd : MemOk d) : MemOk (applyDelta d m) := by
  unfold applyDelta
  split
  · exact memOk_twinShadow hd
  · exact memOk_ite (memOk_twinConfine hd) hd
  · exact memOk_ite (memOk_twinCurfew hd) hd
  · exact memOk_ite (memOk_twinDesc hd) hd
  · exact memOk_ite (memOk_twinKeys hd) hd
  · exact memOk_twinEnroll hd
  · exact memOk_modFlash hd
  · exact memOk_ite hd (memOk_enterHoldover (memOk_loadTime hd))
  · exact memOk_twinOut hd
  · exact hd
  · exact hd

theorem memOk_deltaOp {m : Delta} (hd : MemOk d) : MemOk (deltaOp d m) := by
  unfold deltaOp
  refine memOk_ite hd ?_
  split
  · exact memOk_twinDamage hd
  · exact memOk_ite (memOk_twinCommit hd) hd
  · exact memOk_ite (memOk_countDelta (memOk_applyDelta hd)) hd

theorem memOk_joinFails (hd : MemOk d) : MemOk (joinFails d) := memStable.raise _ _ (memOk_modTwin hd)

theorem memOk_joinActive {o : Otp} {p : Package} (hd : MemOk d) : MemOk (joinActive o d p) := by
  unfold joinActive
  extract_lets d1 d2 a old d3 d4
  have h1 : MemOk d1 := memOk_modTwin hd
  have h2 : MemOk d2 := memStable.set _ _ h1
  have h3 : MemOk d3 := memOk_setRoles (memOk_expand h2)
  have h4 : MemOk d4 := memOk_takeForce h3
  exact memOk_ite h2 (memOk_ite (memOk_joinStops h2) (memStable.condEnd _ _ (memOk_forEach memOk_enablePage h4)))

theorem memOk_joinPrevious {o : Otp} {p : Package} (hd : MemOk d) : MemOk (joinPrevious o d p) := by
  unfold joinPrevious
  refine memOk_ite (memOk_joinStops hd) ?_
  extract_lets d1 a d2
  have h1 : MemOk d1 := memOk_setRoles hd
  have h2 : MemOk d2 := memOk_modFlash (memOk_expand h1)
  exact memStable.set _ _ (memStable.set _ _ h2)

theorem memOk_twinStaged {o : Otp} {p : Package} {headOk : Bool} (hd : MemOk d) : MemOk (twinStaged o d p headOk) := by
  unfold twinStaged
  extract_lets d1 d2
  have h1 : MemOk d1 := memOk_modFlash (memOk_freeStaged hd)
  have h2 : MemOk d2 := memOk_verifyDone (memStable.set _ _ (memStable.set _ _ h1))
  exact memOk_ite h2 (memOk_joinFails h2)

theorem memOk_twinArm {t : Nat} (hd : MemOk d) : MemOk (twinArm d t) :=
  memOk_ite (memStable.ist _ _ (memStable.setW _ _ (memStable.setW _ _ (memStable.set _ _ hd)))) hd

theorem memOk_bulkOp {o : Otp} {m : Bulk} (hd : MemOk d) : MemOk (bulkOp o d m) := by
  unfold bulkOp
  refine memOk_ite hd ?_
  split
  · exact memOk_joinActive hd
  · exact memOk_ite (memOk_joinPrevious hd) hd
  · exact memOk_twinStaged hd
  · exact memOk_twinArm hd
  · exact memOk_disarmOp hd
  · exact memOk_eraseOp hd
  · exact memOk_ite hd (memOk_modCfg hd)
  · exact memOk_ite (memOk_modTwin (memStable.set _ _ (memOk_storeKeys hd))) hd
  · exact memOk_ite (memOk_modTwin (memStable.set _ _ (memOk_forEach memOk_applyDelta hd))) hd
  · exact memOk_twinDamage hd

theorem memOk_noteSlack {ns : Nat} (hd : MemOk d) : MemOk (noteSlack d ns) := memStable.set _ _ hd

theorem memOk_staleRecords {late : List Nat} (hd : MemOk d) : MemOk (staleRecords d late) := by
  unfold staleRecords
  exact memOk_forEach (fun he => by
    extract_lets a
    exact memOk_setMemW he) hd

theorem memOk_checkWork {cn : Nat} (hd : MemOk d) : MemOk (checkWork d cn) := by
  unfold checkWork
  extract_lets late svc x d1 d2 d3 d4 x7 d5
  have h1 : MemOk d1 := memOk_mk hd
  have h2 : MemOk d2 := memOk_mk h1
  have h3 : MemOk d3 := memOk_staleRecords (memOk_noteSlack h2)
  have h4 : MemOk d4 := memStable.setW _ _ (memStable.inc _ h3)
  have h5 : MemOk d5 := memOk_mk h4
  exact memOk_ite (memOk_noteSlack h2) (memStable.raise _ _ (memStable.ist _ _ h5))

theorem memOk_endTick {c : Nat} (hd : MemOk d) : MemOk (endTick d c) := by
  unfold endTick
  extract_lets d1 d2 d3
  have h1 : MemOk d1 := memOk_endBell hd
  have h2 : MemOk d2 := memOk_forEach memOk_outMissed h1
  have h3 : MemOk d3 := memOk_forEach (memStable.endEntry _ _ _) h2
  exact memOk_skipSched h3

theorem memOk_renewSched {c : Nat} (hd : MemOk d) : MemOk (renewSched d c) := memOk_forEach (memStable.putEntry _ _) hd

theorem memOk_advanceTick (hd : MemOk d) : MemOk (advanceTick d) := by
  unfold advanceTick
  extract_lets b n d1 x
  have h1 : MemOk d1 := memOk_ite hd (memOk_mk hd)
  exact memOk_mk h1

theorem memOk_placeNext (hd : MemOk d) : MemOk (placeNext d) := memOk_mk hd

theorem memOk_commitShadow {e : Nat × Nat × Word} (hd : MemOk d) : MemOk (commitShadow d e) := by
  unfold commitShadow
  extract_lets k p off old new d1
  have h1 : MemOk d1 := memStable.setW _ _ (memStable.setW _ _ hd)
  exact memOk_ite (memOk_domAbsent h1) h1

theorem memOk_commitShadows (hd : MemOk d) : MemOk (commitShadows d) := by
  unfold commitShadows
  refine memOk_ite hd ?_
  extract_lets l
  exact memOk_forEach memOk_commitShadow (memOk_raiseGen (memOk_mk hd))

theorem memOk_certLocks (hd : MemOk d) : MemOk (certLocks d) :=
  memOk_ite hd (memOk_forEach (memStable.setBit _ _ _) (memStable.set _ _ (memOk_mk hd)))

theorem memOk_holdFences {c : Nat} (hd : MemOk d) : MemOk (holdFences d c) := memStable.modChan _ _ hd

theorem memOk_unfences {c : Nat} (hd : MemOk d) : MemOk (unfences d c) := by
  unfold unfences
  extract_lets d1 d2
  have h1 : MemOk d1 := memOk_forEach memOk_unfence hd
  have h2 : MemOk d2 := memStable.modChan _ _ h1
  exact memOk_ite (memOk_forEach memOk_unfence h2) h2

theorem memOk_unfenceDone (hd : MemOk d) : MemOk (unfenceDone d) :=
  memOk_forEach (fun he => memOk_ite (memOk_opDone he) he) hd

theorem memOk_settleOffers {old : Dev} (hd : MemOk d) : MemOk (settleOffers old d) :=
  memOk_retractIneligible (memOk_forEach (fun he => memOk_iff memOk_withdraw he) hd)

theorem memOk_commitChan {c : Nat} (hd : MemOk d) : MemOk (commitChan d c) := by
  unfold commitChan
  extract_lets d1 d2 d3 d4 d5
  have h1 : MemOk d1 := memOk_lineCommit hd
  have h2 : MemOk d2 := memOk_unfences (memOk_holdFences h1)
  have h3 : MemOk d3 := memOk_epochCommit h2
  have h4 : MemOk d4 := memOk_ite h3 (memOk_ite (memOk_curfewTick h3) (memStable.add _ _ h3))
  have h5 : MemOk d5 := memOk_renewSched h4
  exact memStable.modChan _ _ h5

theorem memOk_switchImage (hd : MemOk d) : MemOk (switchImage d) := by
  unfold switchImage
  extract_lets flip recs todo x d1 d2
  have h1 : MemOk d1 := memOk_mk hd
  have h2 : MemOk d2 := memStable.ist _ _ h1
  exact memOk_forEach (fun he => by
    extract_lets d3 x
    have h3 : MemOk d3 := memOk_markRecord he
    exact memOk_mk h3) h2

theorem memOk_ringChan {c : Nat} {l : BellLine} (hd : MemOk d) : MemOk (ringChan d c l) := by
  unfold ringChan
  refine memOk_ite hd ?_
  refine memOk_ite (memStable.modChan _ _ hd) ?_
  refine memOk_ite (memOk_bellUnsent hd) ?_
  refine memOk_ite hd ?_
  extract_lets d1
  have h1 : MemOk d1 := memStable.modChan _ _ hd
  exact memOk_ite h1 (memOk_sendBell h1)

theorem memOk_firstBell (hd : MemOk d) : MemOk (firstBell d) := by
  unfold firstBell
  refine memOk_ite hd ?_
  extract_lets x x1 d1
  have h1 : MemOk d1 := memOk_mk hd
  exact memStable.set _ _ h1

theorem memOk_commitNotice (hd : MemOk d) : MemOk (commitNotice d) := by
  unfold commitNotice
  extract_lets d1
  have h1 : MemOk d1 := memOk_modTwin hd
  exact memOk_ite (memOk_twinSend h1) h1

theorem memOk_commitAll (hd : MemOk d) : MemOk (commitAll d) := by
  unfold commitAll
  extract_lets later d1 d2 d3 d4 d5 d6 d7 d8 d9 d10 d11
  have h2 : MemOk d2 := memOk_forEach (memStable.modChan _ _) hd
  have h3 : MemOk d3 := memOk_certLocks (memOk_commitShadows (memOk_packageTick (memOk_mk h2)))
  have h4 : MemOk d4 := memOk_placeNext (memOk_mk h3)
  have h5 : MemOk d5 := memOk_forEach memOk_commitChan h4
  have h6 : MemOk d6 := memOk_settleOffers (memOk_unfenceDone (memOk_probationTick h5))
  have h7 : MemOk d7 := memOk_forEach memOk_millSpare h6
  have h8 : MemOk d8 := memOk_forEach memOk_sessionExpiry h7
  have h9 : MemOk d9 := memOk_ite (memOk_toRecompute h8) h8
  have h10 : MemOk d10 := memOk_ite (memOk_toPushDue h9) h9
  have h11 : MemOk d11 := memOk_ite (memOk_forEach (memStable.safePush memRaised _) h10) h10
  exact memOk_commitNotice h11

theorem memOk_passTick (hd : MemOk d) : MemOk (passTick d) := memOk_advanceTo (memOk_advanceTick hd)

theorem memOk_betweenPiece {b c : Nat} (hd : MemOk d) : MemOk (betweenPiece b d c) := by
  unfold betweenPiece
  extract_lets d1
  have h1 : MemOk d1 := by
    unfold d1
    split
    · exact memOk_tickWork hd
    · exact memOk_transmitCopy hd
    · exact memOk_placement hd
    · exact hd
  exact memOk_ite h1 hd

theorem memOk_commitPoint {l : List BellLine} {between : List Nat} (hd : MemOk d) : MemOk
    (commitPoint d l between) := by
  unfold commitPoint
  refine memOk_ite hd ?_
  refine memOk_ite (memOk_passTick hd) ?_
  extract_lets b d1 d2 d3 d4 d5 d6
  have h1 : MemOk d1 := memOk_advanceTo hd
  have h2 : MemOk d2 := memOk_ite (memOk_forEach memOk_endTick h1) h1
  have h3 : MemOk d3 := memOk_ite (memOk_checkWork h2) h1
  have h4 : MemOk d4 := memOk_commitAll (memOk_advanceTick (memOk_forEach memOk_noteSlots h3))
  have h5 : MemOk d5 := memOk_switchImage (memOk_forEach memOk_betweenPiece h4)
  have h6 : MemOk d6 := memOk_firstBell (memStable.ist _ _ (memOk_advanceTo h5))
  exact memOk_forEach memOk_ringChan h6

theorem memOk_atNextTick {f : Dev → Dev} (hf : ∀ {x}, MemOk x → MemOk (f x)) (hd : MemOk d) : MemOk (atNextTick d f) :=
  memOk_mk (hf (memOk_mk hd))

theorem memOk_probationEnd (hd : MemOk d) : MemOk (probationEnd d) :=
  memOk_ite (memStable.ist _ _ (memOk_endProbation hd)) hd

theorem memOk_sesswaitExpiry (hd : MemOk d) : MemOk (sesswaitExpiry d) := memOk_ite (memOk_modCfg hd) hd
theorem memOk_returnNow (hd : MemOk d) : MemOk (returnNow d) := memOk_ite (memOk_atNextTick memOk_returnOp hd) hd

theorem memOk_manualReturnNow (hd : MemOk d) : MemOk (manualReturnNow d) :=
  memOk_ite (memOk_atNextTick memOk_manualReturnOp hd) hd

end operations

end Sys2Proof.Machine
end

section
/-! What every command keeps, walked once: the queue is left to the step, fuses are only ever blown, and the memory stays in its
canonical form. -/

namespace Sys2Proof.Machine

open Sys2Proof

/-! ### Fuses -/

theorem fusesBlow_refl (o : Otp) : FusesBlow o o :=
  ⟨rfl, rfl, fun _ => ⟨rfl, rfl⟩, id, fun _ => ⟨fun h => ⟨h, rfl⟩, id⟩⟩

theorem fusesBlow_trans {a b c : Otp} (h : FusesBlow a b) (g : FusesBlow b c) : FusesBlow a c := by
  obtain ⟨hvar, hstep, hid, hcert, hslot⟩ := h
  obtain ⟨gvar, gstep, gid, gcert, gslot⟩ := g
  refine ⟨gvar.trans hvar, gstep.trans hstep, fun hne => ?_, gcert ∘ hcert, fun k => ⟨fun hp => ?_, (gslot k).2 ∘ (hslot k).2⟩⟩
  · obtain ⟨hpriv, hpub⟩ := hid hne
    obtain ⟨gpriv, gpub⟩ := gid (hpub ▸ hne)
    exact ⟨gpriv.trans hpriv, gpub.trans hpub⟩
  · obtain ⟨hprog, hhash⟩ := (hslot k).1 hp
    obtain ⟨gprog, ghash⟩ := (gslot k).1 hprog
    exact ⟨gprog, ghash.trans hhash⟩

/-- Nothing is written outside the list. -/
theorem putAt_of_length_le {α : Type} {l : List α} {i : Nat} {a : α} (h : l.length ≤ i) : putAt l i a = l := by
  induction l generalizing i with
  | nil => rfl
  | cons b l ih =>
    cases i with
    | zero => simp at h
    | succ i => rw [putAt, ih (by simpa using h)]

/-- An authority slot after one was written. -/
theorem slot_putAt (o : Otp) (k j : Nat) (x : AuthSlot) :
    ({ o with slots := putAt o.slots k x } : Otp).slot j = if j = k ∧ k < o.slots.length then x else o.slot j := by
  unfold Otp.slot
  by_cases hj : j = k
  · subst hj
    by_cases hk : j < o.slots.length
    · rw [if_pos ⟨rfl, hk⟩, elemAt_putAt_same _ _ _ _ hk]
    · rw [if_neg (fun h => hk h.2), putAt_of_length_le (Nat.le_of_not_lt hk)]
  · rw [if_neg (fun h => hj h.1), elemAt_putAt_ne _ _ _ _ _ hj]

/-- A slot written with what may be blown in it: a programmed slot keeps its hash, a revocation stays. -/
theorem fusesBlow_slot {o : Otp} {k : Nat} {x : AuthSlot}
    (hprog : (o.slot k).prog = true → x.prog = true ∧ x.hash = (o.slot k).hash)
    (hrev : (o.slot k).revoked = true → x.revoked = true) : FusesBlow o { o with slots := putAt o.slots k x } := by
  refine ⟨rfl, rfl, fun _ => ⟨rfl, rfl⟩, id, fun j => ?_⟩
  rw [slot_putAt]
  split
  · next hj => exact hj.1 ▸ ⟨hprog, hrev⟩
  · exact ⟨fun h => ⟨h, rfl⟩, id⟩

theorem fusesBlow_certify (o : Otp) : FusesBlow o { o with cert := true } :=
  ⟨rfl, rfl, fun _ => ⟨rfl, rfl⟩, fun _ => rfl, fun _ => ⟨fun h => ⟨h, rfl⟩, id⟩⟩

/-- Nothing is programmed when no listed slot is. -/
theorem slot_blank {o : Otp} (h : ¬ o.slots.any (fun k => k.prog) = true) (k : Nat) : (o.slot k).prog = false := by
  unfold Otp.slot
  generalize o.slots = l at h
  induction l generalizing k with
  | nil => rfl
  | cons a l ih =>
    simp only [List.any_cons, Bool.or_eq_true, not_or, Bool.not_eq_true] at h
    cases k with
    | zero => exact h.1
    | succ k => exact ih k (by simpa using h.2)

/-! ### The relation of a state to the next -/

/-- The queue, the fuses and the memory of the next state. -/
structure Sound (s t : State) : Prop where
  pending : t.pending = s.pending
  fuses : FusesBlow s.otp t.otp
  mem : MemOk s.dev → MemOk t.dev

namespace Sound

variable {s t u : State} {d : Dev}

theorem refl (s : State) : Sound s s := ⟨rfl, fusesBlow_refl _, id⟩

theorem trans (h : Sound s t) (g : Sound t u) : Sound s u :=
  ⟨g.pending.trans h.pending, fusesBlow_trans h.fuses g.fuses, g.mem ∘ h.mem⟩

/-- A command that acts on the part alone. -/
theorem part (h : MemOk s.dev → MemOk d) : Sound s { s with dev := d } := ⟨rfl, fusesBlow_refl _, h⟩

/-- A command that acts on the part and blows a fuse. -/
theorem fused {o : Otp} (ho : FusesBlow s.otp o) (hd : MemOk s.dev → MemOk d) : Sound s { s with otp := o, dev := d } :=
  ⟨rfl, ho, hd⟩

/-- The part changed again. -/
theorem andPart (h : Sound s t) (hd : MemOk t.dev → MemOk d) : Sound s { t with dev := d } := h.trans (part hd)

/-- A command that zeroes the memory. -/
theorem afresh (hd : MemOk d) : Sound s { s with dev := d } := part fun _ => hd

theorem ite {p : Prop} [Decidable p] (ht : Sound s t) (hu : Sound s u) : Sound s (if p then t else u) := by
  split <;> assumption

end Sound

/-! ### Power and resets (19) -/

theorem sound_firstPower (s : State) : Sound s (firstPower s) := by
  unfold firstPower
  split
  · next hid =>
    exact ⟨rfl, ⟨rfl, rfl, fun hne => absurd hid hne, id, fun _ => ⟨fun h => ⟨h, rfl⟩, id⟩⟩, memOk_draw⟩
  · exact .refl s

theorem sound_powerOn (s : State) (st : Straps) : Sound s (powerOn s st) :=
  (sound_firstPower s).trans (.afresh (memStable.setB _ _ (memOk_startUp memOk_clearDev)))

theorem sound_restart (s : State) (st : Straps) (cause : Nat) : Sound s (restart s st cause) :=
  (sound_firstPower s).trans (.afresh (memOk_keepPower (memOk_startUp memOk_clearDev)))

theorem sound_holdReset (s : State) : Sound s (holdReset s) :=
  .afresh (memOk_noteProbation (memOk_modPwr (memOk_keepPower memOk_clearDev)))

theorem sound_powerOff (s : State) (b : Bool) : Sound s (powerOff s b) := .afresh (memOk_noteProbation (memOk_modPwr memOk_clearDev))

theorem sound_powerGood (s : State) (st : Straps) : Sound s (powerGood s st) := .ite (.refl s) (sound_powerOn s st)

theorem sound_rstN (s : State) (st : Straps) : Sound s (rstN s st) := .ite (sound_restart s st 1) (.refl s)

theorem sound_tapOp (s : State) (i : TapOp) (st : Straps) : Sound s (tapOp s i st) := by
  unfold tapOp
  extract_lets holds
  exact .ite (.refl s) (.ite (.ite (.refl s) (sound_holdReset s)) (.ite (sound_restart s st 1) (.refl s)))

theorem sound_tripOp (s : State) : Sound s (tripOp s) := .ite (.refl s) (sound_powerOff s true)

theorem sound_tripEnd (s : State) (st : Straps) : Sound s (tripEnd s st) :=
  .ite ((Sound.part memOk_modPwr).trans (sound_powerGood _ st)) (.refl s)

theorem sound_gaspDone (s : State) : Sound s (gaspDone s) := by
  unfold gaspDone
  extract_lets d d1 d2
  have h2 : MemOk s.dev → MemOk d2 := fun hd => memOk_modPwr (memOk_gaspSend (memOk_modFlash hd))
  refine .ite (.refl s) ?_
  split
  · exact (Sound.part fun hd => memOk_modPwr (h2 hd)).trans (sound_restart _ _ 4)
  · exact .part h2

theorem sound_holdEmpty (s : State) : Sound s (holdEmpty s) := .ite (sound_powerOff s false) (.refl s)

theorem sound_inputBack (s : State) (x : Side) (st : Straps) : Sound s (inputBack s x st) :=
  .ite (.refl s) ((Sound.part memOk_modPwr).trans (.ite ((Sound.part memOk_modPwr).trans (sound_restart _ st 4)) (.part memOk_modPwr)))

theorem sound_deviceRst (s : State) (v : Nat) (st : Straps) : Sound s (deviceRst s v st) := .ite (sound_restart s st 2) (.refl s)

/-! ### Accesses (02, 17) -/

theorem sound_writeWord (s : State) (w : Who) (a v : Nat) : Sound s (writeWord s w a v) :=
  .ite (.ite (.refl s) (.ite (sound_deviceRst s v _) (.part memOk_writeReg))) (.part memOk_setMemW)

theorem sound_writeWords (s : State) (w : Who) (a : Nat) (l : List Nat) : Sound s (writeWords s w a l) := by
  induction l generalizing s a with
  | nil => exact .refl s
  | cons v l ih => exact (sound_writeWord s w a v).trans (ih _ _)

theorem sound_readWord (s : State) (a : Nat) : Sound s (readWord s a).1 := by
  unfold readWord
  split
  · exact .part memOk_readEffect
  · split <;> exact .refl s

theorem sound_readWords (s : State) (a n : Nat) : Sound s (readWords s a n).1 := by
  induction n generalizing s a with
  | zero => exact .refl s
  | succ n ih => exact (sound_readWord s a).trans (ih _ _)

theorem sound_gatedWrite (s : State) (w : Who) (a : Nat) (vals : List Nat) {f : State → State} (hf : ∀ s, Sound s (f s)) :
    Sound s (gatedWrite s w a vals f).1 := by
  unfold gatedWrite
  extract_lets d
  have hset : MemOk s.dev → MemOk d := memOk_settle
  have hrun : Sound s (f { s with dev := d }) := (Sound.part hset).trans (hf _)
  split
  · exact .part fun hd => memStable.violation _ _ _ _ _ (hset hd)
  · split
    · split
      · exact .part fun hd => memStable.pushScoped memRaised _ _ _ _ (hset hd)
      · exact hrun
    · exact hrun

theorem sound_accessRead (s : State) (w : Who) (a n : Nat) : Sound s (accessRead s w a n).1 := by
  unfold accessRead
  extract_lets d
  have hset : MemOk s.dev → MemOk d := memOk_settle
  split
  · exact .part fun hd => memStable.violation _ _ _ _ _ (hset hd)
  · exact (Sound.part hset).trans (sound_readWords _ a n)

/-! ### URT messages (02) -/

theorem sound_urtRead (s : State) (u : UrtHdr) (op a n : Nat) : Sound s (urtRead s u op a n) :=
  .ite (.part memOk_respond) (.ite (.part memOk_respond) ((sound_accessRead s _ a n).andPart memOk_respond))

theorem sound_urtWrite (s : State) (u : UrtHdr) (op a : Nat) (data : List Nat) : Sound s (urtWrite s u op a data) :=
  .ite (.part memOk_respond) (.ite (.part memOk_respond)
    ((sound_gatedWrite s _ a data fun s => sound_writeWords s _ a data).andPart memOk_respond))

theorem sound_urtRun (s : State) (m : HeldUrt) : Sound s (urtRun s m) :=
  .ite (sound_urtRead s _ _ _ _) (.ite (sound_urtRead s _ _ _ _) (.ite (sound_urtWrite s _ _ _ _) (.ite (.part memOk_urtEvack)
    (.ite (.part memOk_urtPing) (.part memOk_respond)))))

theorem sound_urtMessage (s : State) (m : HeldUrt) : Sound s (urtMessage s m) :=
  (Sound.part memOk_urtArrive).trans (.ite (.refl _) (.ite (.part memOk_mk) (sound_urtRun _ m)))


theorem sound_urtReplay (s : State) (l : List HeldUrt) (seen : List Nat) : Sound s (urtReplay s l seen) := by
  induction l generalizing s seen with
  | nil => exact .refl s
  | cons m l ih => exact .ite ((Sound.part memOk_respond).trans (ih _ _)) ((sound_urtRun s m).trans (ih _ _))

/-! ### Security operations (10, 11) -/

/-- COMMISSION programs slot 0 while no slot is (R261). -/
theorem sound_commission (s : State) : Sound s (commission s) := by
  unfold commission
  extract_lets d
  split
  · next rest heq =>
    refine .ite (.refl s) ?_
    extract_lets d1 k
    have h1 : MemOk s.dev → MemOk d1 := memOk_setBodies
    split
    · exact .part fun hd => memOk_refuse (memOk_next (h1 hd))
    · next hblank =>
      have hprog := slot_blank hblank 0
      exact ⟨rfl, fusesBlow_slot (fun hp => absurd hp (by simp [hprog])) id, h1⟩
  · exact .refl s

theorem sound_enrollOp {r : OpReq} {s t : State} (ht : enrollOp r s = some t) : Sound s t := by
  unfold enrollOp at ht
  split at ht
  · split at ht
    · cases ht
    · cases ht
      exact .part fun hd => memStable.modChan _ _ (memStable.setBit _ _ _ (memOk_storeKey hd))
  · cases ht

theorem sound_revokeOp {r : OpReq} {s t : State} (ht : revokeOp r s = some t) : Sound s t := by
  unfold revokeOp at ht
  split at ht
  · split at ht
    · cases ht
    · cases ht
      exact .part fun hd => memOk_epochAnew (memStable.setBit _ _ _ (memOk_storeKey hd))
  · cases ht

theorem sound_rekeyOp {r : OpReq} {s t : State} (ht : rekeyOp r s = some t) : Sound s t := by
  cases ht
  exact .part (memOk_forEach memOk_epochRequest)

theorem sound_unfenceOp {r : OpReq} {s t : State} (ht : unfenceOp r s = some t) : Sound s t := by
  unfold unfenceOp at ht
  split at ht
  · split at ht
    · cases ht
    · cases ht
      exact .part (memStable.modChan _ _)
  · cases ht

theorem sound_releaseOp {r : OpReq} {s t : State} (ht : releaseOp r s = some t) : Sound s t := by
  unfold releaseOp at ht
  split at ht
  · split at ht
    · cases ht
      exact .part memOk_releasePage
    · cases ht
  · cases ht

theorem sound_gateOp {r : OpReq} {s t : State} (ht : gateOp r s = some t) : Sound s t := by
  unfold gateOp at ht
  split at ht
  · cases ht
    exact .part fun hd => memStable.set _ _ (memOk_mk hd)
  · cases ht

theorem sound_debugOp {r : OpReq} {s t : State} (ht : debugOp r s = some t) : Sound s t := by
  cases ht
  exact .part fun hd => memStable.set _ _ (memOk_mk hd)

theorem sound_floorOp {r : OpReq} {s t : State} (ht : floorOp r s = some t) : Sound s t := by
  unfold floorOp at ht
  split at ht
  · dsimp only at ht
    split at ht
    · exact absurd ht (by simp)
    · obtain rfl := Option.some.inj ht
      refine .part fun hd => memOk_forEach (fun he => memOk_ite (memOk_closeSession he) he) ?_
      exact memOk_mk hd
  · exact absurd ht (by simp)

/-- AUTHREV sets a revocation bit (R260). -/
theorem sound_authrevOp {r : OpReq} {s t : State} (ht : authrevOp r s = some t) : Sound s t := by
  unfold authrevOp at ht
  split at ht
  · dsimp only at ht
    split at ht
    · exact absurd ht (by simp)
    · obtain rfl := Option.some.inj ht
      exact .fused (fusesBlow_slot (fun hp => ⟨hp, rfl⟩) fun _ => rfl)
        (memOk_forEach fun he => memOk_ite (memOk_endSession he) he)
  · exact absurd ht (by simp)

/-- AUTHADD programs a slot that is blank (R260). -/
theorem sound_authaddOp {r : OpReq} {s t : State} (ht : authaddOp r s = some t) : Sound s t := by
  unfold authaddOp at ht
  split at ht
  · split at ht
    · cases ht
    · next hk =>
      cases ht
      exact ⟨rfl, fusesBlow_slot (fun hp => absurd (.inr hp) hk) id, id⟩
  · cases ht

theorem sound_certifyOp {r : OpReq} {s t : State} (ht : certifyOp r s = some t) : Sound s t := by
  cases ht
  exact ⟨rfl, fusesBlow_certify _, memOk_mk⟩

theorem sound_armOp (r : OpReq) (s : State) : Sound s (armOp r s).1 := by
  unfold armOp
  split
  · extract_lets reason d
    split
    · exact .part memOk_lastErr
    · exact .part fun hd => memStable.ist _ _ (memStable.setW _ _ (memStable.setW _ _ (memStable.set _ _ hd)))
  · exact .refl s

theorem sound_rollbackOp (r : OpReq) (s : State) : Sound s (rollbackOp r s).1 := by
  unfold rollbackOp
  split
  · split
    · split
      · exact .refl s
      · exact .part memOk_modCfg
    · exact .part memOk_modCfg
  · exact .refl s

/-- An operation that passes its checks has the effect of its row; one that does not is refused (R264, R275). -/
theorem sound_runOpWith (s : State) (code : Nat) {f : OpReq → State → State × Bool} (hf : ∀ r s, Sound s (f r s).1) :
    Sound s (runOpWith s code f) := by
  unfold runOpWith
  split
  · exact .refl s
  · next r rest _ =>
    refine .ite (.refl s) ?_
    extract_lets d sec d1 reason flash d2
    have h1 : MemOk s.dev → MemOk d1 := memOk_mk
    have h2 : MemOk s.dev → MemOk d2 := fun hd => memOk_mk (h1 hd)
    refine .ite (.part fun hd => memOk_opRefuse (h1 hd)) ?_
    have hrun := hf r { s with dev := d2 }
    split
    · next t heq =>
      rw [heq] at hrun
      exact ((Sound.part h2).trans hrun).andPart memOk_opRefuse
    · next t heq =>
      rw [heq] at hrun
      exact ((Sound.part h2).trans hrun).andPart fun hd => memStable.inc _ (memOk_ite (memOk_opState hd) (memOk_opDone hd))

theorem sound_runOp (s : State) (code : Nat) {f : OpReq → State → Option State} (hf : ∀ {r s t}, f r s = some t → Sound s t) :
    Sound s (runOp s code f) :=
  sound_runOpWith s code fun r s => by
    split
    · next heq => exact hf heq
    · exact .refl s

/-! ### Vigil and the twin (14, 18) -/

theorem sound_vigilLeave (s : State) (v : VigilCause) : Sound s (vigilLeave s v) :=
  .ite (.part memOk_vigilAbort) (.ite ((Sound.part fun hd => memOk_mk (memOk_vigilAwake hd)).trans (sound_urtReplay _ _ _)) (.refl s))

theorem sound_vigilExit (s : State) (v : VigilCause) (b : Bool) (st : Straps) : Sound s (vigilExit s v b st) :=
  .ite ((Sound.part (memStable.raise _ _)).trans (sound_restart _ st 3)) (sound_vigilLeave s v)

theorem sound_wakeOp (s : State) (c : Nat) : Sound s (wakeOp s c) :=
  .ite (.part memOk_wakePattern) (.ite (sound_vigilLeave s _) (.refl s))

theorem sound_hbReceived (s : State) (f : HbFrame) : Sound s (hbReceived s f) :=
  .ite (.refl s) (.ite (.part (memStable.inc _)) ((Sound.part memOk_hbTake).trans
    (.ite (.refl _) (.ite (.ite (.part memOk_vigilBegin) (.refl _)) (.ite (sound_vigilLeave _ _) (.refl _))))))

end Sys2Proof.Machine
end

section
/-! Every command answers a next state, and what holds of that state whatever the command was. -/

namespace Sys2Proof.Machine

open Sys2Proof

/-- The outcome is a next state that the relation of `Sound` admits; where the command is none of power and reset, a part without power
stays as it is. -/
def SoundOutcome (s : State) (power : Bool) (o : Host.Outcome State Fault Refusal) : Prop :=
  ∃ t, o = .next t ∧ Sound s t ∧ (power = false → s.dev.powered = false → t = s)

namespace SoundOutcome

variable {b : Bool}

theorem next {s t : State} (h : Sound s t) : SoundOutcome s true (.next t) := ⟨t, rfl, h, nofun⟩

theorem all (s : State) {f : State → State} (h : ∀ t, Sound t (f t)) : SoundOutcome s b (actAll s f) :=
  ⟨_, rfl, .ite (h s) (.refl s), fun _ hp => if_neg (by simp [hp])⟩

theorem act (s : State) {f : Dev → Dev} (h : ∀ {d}, MemOk d → MemOk (f d)) : SoundOutcome s b (Machine.act s f) :=
  all s (f := fun s => { s with dev := f s.dev }) fun _ => .part h

theorem regCmd (s : State) (w : Who) (a v : Nat) {f : State → State} (hf : ∀ t, Sound t (f t)) :
    SoundOutcome s b (Machine.regCmd s w a v f) :=
  all s fun t => .ite (.refl t) (sound_gatedWrite t w a [v] hf)

theorem regWrite (s : State) (w : Who) (a v : Nat) : SoundOutcome s b (Machine.regWrite s w a v) :=
  regCmd s w a v fun t => sound_writeWord t w a v

theorem regRead (s : State) (w : Who) (a : Nat) : SoundOutcome s b (Machine.regRead s w a) :=
  all s fun t => .ite (.refl t) (sound_accessRead t w a 1)

end SoundOutcome

/-- The row of every command. -/
theorem soundOutcome_exec (c : Instr) (s : State) : SoundOutcome s (powerCommand c) (exec c s) := by
  cases c with
  | powerOnReset _ => exact .next (sound_powerGood s _)
  | rstN _ => exact .next (sound_rstN s _)
  | deviceReset _ _ _ => exact .regCmd s _ _ _ fun t => sound_deviceRst t _ _
  | tapInstruction _ _ => exact .next (sound_tapOp s _ _)
  | thermalTrip => exact .next (sound_tripOp s)
  | thermalRecovery _ => exact .next (sound_tripEnd s _)
  | inputLost _ _ => exact .next (.part memOk_inputLostOp)
  | lastGaspRecord => exact .next (sound_gaspDone s)
  | holdExhausted => exact .next (sound_holdEmpty s)
  | inputReturn _ _ => exact .next (sound_inputBack s _ _)
  | revert => exact .next (.part memOk_revertOp)
  | holdLow capUf => exact .act s (f := fun d => holdLowOp d capUf) memOk_holdLowOp
  | vauxOc => exact .act s memOk_vauxOcOp
  | vauxRetry => exact .act s memOk_vauxRetryOp
  | vauxSwitch _ _ => exact .regWrite s _ _ _
  | railDev r => exact .act s (f := fun d => railDevOp d r) memOk_railDevOp
  | registerWrite _ _ _ => exact .regWrite s _ _ _
  | blockEnable _ _ _ => exact .regWrite s _ _ _
  | blockSoftReset _ _ => exact .regWrite s _ _ _
  | freeze _ _ _ => exact .regWrite s _ _ _
  | interruptForce _ _ _ => exact .regWrite s _ _ _
  | faultForce _ _ _ => exact .regWrite s _ _ _
  | faultAck _ _ => exact .regWrite s _ _ _
  | escalationTimerExpiry p => exact .act s (f := fun d => timerExpiry d p) memOk_timerExpiry
  | shadowEnd p => exact .act s (f := fun d => shadowEndOp d p) memOk_shadowEndOp
  | quietPeriodEnd p => exact .act s (f := fun d => quietEnd d p) memOk_quietEnd
  | safeStateAbdication => exact .act s memOk_safeAbdication
  | faultPinPulseEnd k => exact .act s (f := fun d => pulseEnd d k) memOk_pulseEnd
  | read _ _ => exact .all s fun t => sound_urtMessage t _
  | write _ _ _ => exact .all s fun t => sound_urtMessage t _
  | bread _ _ => exact .all s fun t => sound_urtMessage t _
  | bwrite _ _ _ => exact .all s fun t => sound_urtMessage t _
  | evack _ _ => exact .all s fun t => sound_urtMessage t _
  | ping _ => exact .all s fun t => sound_urtMessage t _
  | event ses n => exact .act s (f := fun d => sendEvent d ses n) memOk_sendEvent
  | eventResend ses => exact .act s (f := fun d => resendEvent d ses) memOk_resendEvent
  | linkUp x => exact .act s (f := fun d => linkUpOp d x.num) memOk_linkUpOp
  | linkDown x => exact .act s (f := fun d => linkDownOp d x.num) memOk_linkDownOp
  | pxmFragment f => exact .act s (f := fun d => pxmFragment s.otp d f) memOk_pxmFragment
  | pxmTimeout x mac xid => exact .act s (f := fun d => pxmTimeout d x.num mac xid) memOk_pxmTimeout
  | hello => exact .act s memOk_helloOp
  | accept => exact .act s (f := fun d => acceptOp s.otp d) memOk_acceptOp
  | commission => exact .all s sound_commission
  | sessionOpenTimeout ses => exact .act s (f := fun d => openTimeout d ses) memOk_openTimeout
  | sessionLiveTimeout ses => exact .act s (f := fun d => liveTimeout d ses) memOk_liveTimeout
  | sessionExpiry ses => exact .act s (f := fun d => sessionExpiry d ses) memOk_sessionExpiry
  | penClose _ _ => exact .regWrite s _ _ _
  | keyIndexRollover ses x deviceSends => exact .act s (f := fun d => rollover d ses x.num deviceSends) memOk_rollover
  | oldSakRetire ses x => exact .act s (f := fun d => sakRetire d ses x.num) memOk_sakRetire
  | penOpgo _ _ _ => exact .regWrite s _ _ _
  | arm => exact .all s fun t => sound_runOpWith t 0x01 sound_armOp
  | rollback => exact .all s fun t => sound_runOpWith t 0x02 sound_rollbackOp
  | enroll => exact .all s fun t => sound_runOp t 0x10 (f := enrollOp) sound_enrollOp
  | revoke => exact .all s fun t => sound_runOp t 0x11 (f := revokeOp) sound_revokeOp
  | rekey => exact .all s fun t => sound_runOp t 0x12 (f := rekeyOp) sound_rekeyOp
  | unfence => exact .all s fun t => sound_runOp t 0x13 (f := unfenceOp) sound_unfenceOp
  | release => exact .all s fun t => sound_runOp t 0x20 (f := releaseOp) sound_releaseOp
  | gate => exact .all s fun t => sound_runOp t 0x30 (f := gateOp) sound_gateOp
  | debug => exact .all s fun t => sound_runOp t 0x40 (f := debugOp) sound_debugOp
  | floor => exact .all s fun t => sound_runOp t 0x50 (f := floorOp) sound_floorOp
  | authrev => exact .all s fun t => sound_runOp t 0x51 (f := authrevOp) sound_authrevOp
  | authadd => exact .all s fun t => sound_runOp t 0x52 (f := authaddOp) sound_authaddOp
  | certify => exact .all s fun t => sound_runOp t 0x60 (f := certifyOp) sound_certifyOp
  | rngHealth apt => exact .act s (f := fun d => rngHealth d apt) memOk_rngHealth
  | rngRecovery => exact .act s memOk_rngRecovery
  | cfgLoadFirst _ _ _ => exact .regWrite s _ _ _
  | cfgLoad _ _ => exact .regWrite s _ _ _
  | chunkAppended flashOk => exact .act s (f := fun d => chunkDone d flashOk) memOk_chunkDone
  | verify _ => exact .regWrite s _ _ _
  | verifyComplete => exact .act s (f := fun d => verifyDone s.otp d) memOk_verifyDone
  | disarm _ => exact .regWrite s _ _ _
  | erase _ => exact .regWrite s _ _ _
  | commitPoint line => exact .act s (f := fun d => commitPoint d line.bells line.between) memOk_commitPoint
  | roleRecordWrite => exact .act s memOk_writeRoles
  | probationEnd => exact .act s memOk_probationEnd
  | sesswaitExpiry => exact .act s memOk_sesswaitExpiry
  | returnPkg => exact .act s memOk_returnNow
  | manualReturn => exact .act s memOk_manualReturnNow
  | lateBell lag l => exact .act s (f := fun d => lateBell d lag l) memOk_lateBell
  | bellMissed c => exact .act s (f := fun d => bellMissed d c) memOk_bellMissed
  | frameAttempt c t => exact .act s (f := fun d => attempt d c t) memOk_attempt
  | oneShotExpiry c idx => exact .act s (f := fun d => oneShotEnd d c idx) memOk_oneShotEnd
  | timedOutputMissed handle => exact .act s (f := fun d => toMissed d handle) memOk_toMissed
  | txdTimeout c => exact .act s (f := fun d => txdTimeout d c) memOk_txdTimeout
  | frameReception c f => exact .act s (f := fun d => receive d c f) memOk_receive
  | framePlacement c => exact .act s (f := fun d => placement d c.ch c.err) memOk_placement
  | transmitCopy c idx => exact .act s (f := fun d => transmitCopy d c idx.idx idx.ecc) memOk_transmitCopy
  | tickBoundWork c => exact .act s (f := fun d => tickWork d c) memOk_tickWork
  | push _ _ _ => exact .regWrite s _ _ _
  | abort _ _ _ => exact .regWrite s _ _ _
  | abortAll _ _ => exact .regWrite s _ _ _
  | rxrel _ _ _ _ => exact .regWrite s _ _ _
  | pfpop _ _ _ => exact .regWrite s _ _ _
  | boctlRestart _ _ => exact .regWrite s _ _ _
  | rclr _ _ => exact .regWrite s _ _ _
  | busOffRecovery c => exact .act s (f := fun d => autoRecovery d c) memOk_autoRecovery
  | recessiveBitsSampled c => exact .act s (f := fun d => recessive d c) memOk_recessive
  | stuckDom c => exact .act s (f := fun d => stuckDom d c) memOk_stuckDom
  | stuckEnd c durUs => exact .act s (f := fun d => stuckEnd d c durUs) memOk_stuckEnd
  | autoUnfence c a => exact .act s (f := fun d => autoUnfence d c a) memOk_autoUnfence
  | lockstepMismatch m port chInHam => exact .act s (f := fun d => lockstepAll d ((m, port, chInHam.ch) :: chInHam.more)) memOk_lockstepAll
  | migrateGo _ _ => exact .regWrite s _ _ _
  | migrationComplete h durNs => exact .act s (f := fun d => migrationDone d h durNs) memOk_migrationDone
  | hamMigtime h => exact .act s (f := fun d => migTime d h) memOk_migTime
  | hamCtxmem h => exact .act s (f := fun d => ctxMem d h) memOk_ctxMem
  | bistStart w m =>
    cases w with
    | some w => exact .regWrite s w _ _
    | none => exact .act s (f := fun d => bistRepeat d m) memOk_bistRepeat
  | bistComplete m pass => exact .act s (f := fun d => bistEnd d m pass) memOk_bistEnd
  | epochChangeStart c key => exact .act s (f := fun d => epochStart d c key) memOk_epochStart
  | keyLifeExpiry c => exact .act s (f := fun d => keyLife d c) memOk_keyLife
  | keyUseCheck c => exact .act s (f := fun d => keyUseCheck d c) memOk_keyUseCheck
  | keyGen c => exact .act s (f := fun d => keyGen d c) memOk_keyGen
  | epochDeadline c => exact .act s (f := fun d => epochDeadline d c) memOk_epochDeadline
  | oldKeyErase c => exact .act s (f := fun d => oldErase d c) memOk_oldErase
  | keyFramePush c a idx => exact .act s (f := fun d => keyPush d c a idx) memOk_keyPush
  | servicesTickWork => exact .act s memOk_tickServices
  | timedOutputRequest _ _ _ => exact .regWrite s _ _ _
  | tocan _ _ => exact .regWrite s _ _ _
  | soerel _ _ => exact .regWrite s _ _ _
  | swdb _ _ => exact .regWrite s _ _ _
  | sourceMask _ _ _ => exact .regWrite s _ _ _
  | delivery n => exact .act s (f := fun d => deliver d n) memOk_deliver
  | claim _ _ _ _ => exact .regWrite s _ _ _
  | complete _ _ _ => exact .regWrite s _ _ _
  | retraction t => exact .act s (f := fun d => retraction d t) memOk_retraction
  | coalescingRelease g => exact .act s (f := fun d => coalesce d g) memOk_coalesce
  | gateCommit _ => exact .regWrite s _ _ _
  | gateDrainComplete => exact .act s memOk_drainDone
  | bslackRestart _ => exact .regWrite s _ _ _
  | devTickloRead _ => exact .regRead s _ _
  | timeNowloRead _ => exact .regRead s _ _
  | sync x m => exact .act s (f := fun d => sync d x.num m.msg m.also) memOk_sync
  | announce x gm utc => exact .act s (f := fun d => announce d x.num gm utc.utc utc.steps) memOk_announce
  | pdelayReq x =>
    exact .act s (f := fun d => d.iff (d.upOk x.num) (fun d =>
         ((d.inc (UPL_RXCNT_COUNT x.num)).inc (UPL_TXCNT_COUNT x.num)).emit (.pdelay x true)))
      (memOk_iff fun hd => memOk_emit (memStable.inc _ (memStable.inc _ hd)))
  | pdelaySend x =>
    exact .act s (f := fun d => d.iff (d.upOk x.num) (fun d => (d.inc (UPL_TXCNT_COUNT x.num)).emit (.pdelay x false)))
      (memOk_iff fun hd => memOk_emit (memStable.inc _ hd))
  | syncTimeout x why => exact .act s (f := fun d => syncLost d x.num why) memOk_syncLost
  | timeHoldlim => exact .act s memOk_holdLimit
  | curfewCall c => exact .act s (f := fun d => curfewCall d c) memOk_curfewCall
  | curfewCommit c => exact .act s (f := fun d => curfewCommit d c) memOk_curfewCommit
  | sleep c => exact .act s (f := fun d => sleepOp d c) memOk_sleepOp
  | wakePattern _ => exact .all s fun t => sound_wakeOp t _
  | falseWake c => exact .act s (f := fun d => falseWake d c) memOk_falseWake
  | curctlWake _ _ => exact .regWrite s _ _ _
  | vetoSet _ _ => exact .regWrite s _ _ _
  | vetoClear _ _ => exact .regWrite s _ _ _
  | vigilEntry => exact .act s memOk_vigilEntry
  | vigilExit _ _ _ => exact .all s fun t => sound_vigilExit t _ _ _
  | hbSend => exact .act s memOk_hbSend
  | hbReceived _ => exact .all s fun t => sound_hbReceived t _
  | hbMissed => exact .act s memOk_hbMissed
  | takeover => exact .act s memOk_takeHeadship
  | abdicateFrame => exact .act s memOk_abdicateArrives
  | abdicate _ => exact .regWrite s _ _ _
  | startTimeout => exact .act s memOk_startTimeout
  | twinLinkUp => exact .act s memOk_twinUp
  | pair m => exact .act s (f := fun d => pairOp d m) memOk_pairOp
  | delta m => exact .act s (f := fun d => deltaOp d m) memOk_deltaOp
  | bulk m => exact .act s (f := fun d => bulkOp s.otp d m) memOk_bulkOp
  | twinRekey => exact .act s memOk_twinRekey
  | joinTimeout => exact .act s memOk_joinTimeout
  | uplinkFrameDiscard x k => exact .act s (f := fun d => frameDiscard d x.num k) memOk_frameDiscard
  | unknownOp _ _ => exact .all s fun t => .ite (.refl t) (sound_urtMessage t _)
  | sessionLivenessLost ses => exact .act s (f := fun d => livenessLost d ses) memOk_livenessLost
  | pdelayResp x mld ppm =>
    exact .act s (f := fun d => d.iff (d.upOk x.num) (fun d => pdelayDone (d.inc (UPL_RXCNT_COUNT x.num)) x.num mld ppm))
      (memOk_iff fun hd => memOk_pdelayDone (memStable.inc _ hd))
  | holdCharged capUf => exact .act s (f := fun d => holdChargedOp d capUf) memOk_holdChargedOp
  | inputValid _ => exact .next (.part memOk_inputValidOp)
  | railReturn r => exact .act s (f := fun d => railBackOp d r) memOk_railBackOp
  | debugPortClose => exact .act s memOk_debugClose
  | twinLinkDown => exact .act s memOk_twinDown
  | headshipLow => exact .act s memOk_headshipLow
  | vigilEntryComplete => exact .act s memOk_vigilEntered

/-- Settles O2: every row of the commands answers a next state and leaves the queue. -/
theorem everyCommandAnswersANextState : Obligations.EveryCommandAnswersANextState := by
  intro c s
  obtain ⟨t, ht, hsound, _⟩ := soundOutcome_exec c s
  exact ⟨t, ht, hsound.pending⟩

/-- What a step leaves of the fuses and of the memory: the front command's row, or a core cycle, which changes neither. -/
theorem step_sound {s t : State} (h : step s = .next t) : FusesBlow s.otp t.otp ∧ (MemOk s.dev → MemOk t.dev) := by
  unfold step at h
  split at h
  · obtain rfl := Host.Outcome.next.inj h
    exact ⟨fusesBlow_refl _, id⟩
  · next c rest _ =>
    obtain ⟨u, hu, hsound, _⟩ := soundOutcome_exec c { s with pending := rest }
    obtain rfl := Host.Outcome.next.inj (hu.symm.trans h)
    exact ⟨hsound.fuses, hsound.mem⟩

/-- Settles O5, by the walk through the rows of all commands (`soundOutcome_exec`). -/
theorem everyStepKeepsMemoryCanonical : Obligations.EveryStepKeepsMemoryCanonical := fun _ _ h => (step_sound h).2

/-- Settles O6, by the walk through the rows of all commands (`soundOutcome_exec`). -/
theorem everyStepOnlyBlowsFuses : Obligations.EveryStepOnlyBlowsFuses := fun _ _ h => (step_sound h).1

/-- Settles O7: every other row is guarded by the part's power. -/
theorem unpoweredPartIgnoresOtherCommands : Obligations.UnpoweredPartIgnoresOtherCommands := by
  intro c s hc hp
  obtain ⟨t, ht, _, hguard⟩ := soundOutcome_exec c s
  rw [ht, hguard hc hp]

/-- Settles O1: the two branches of a step. -/
theorem stepRunsTheFrontCommand : Obligations.StepRunsTheFrontCommand := by
  refine ⟨fun s c rest hq => ?_, fun s hq => ?_⟩
  · unfold step
    rw [hq]
  · unfold step
    rw [hq]
    simp [passCycle, Dev.pass, Aon.pass, nsUnits, State.put, Int.add_assoc]

end Sys2Proof.Machine
end

section
/-! Power and resets: what a power-on reset, a restart and a part without rails hold. -/

namespace Sys2Proof.Machine

open Sys2Proof

/-! ### A command that acts on the part alone -/

theorem act_powered {s : State} (hp : s.dev.powered = true) (f : Dev → Dev) : act s f = .next (s.put (f s.dev)) :=
  congrArg Host.Outcome.next (if_pos hp)

theorem actAll_powered {s : State} (hp : s.dev.powered = true) (f : State → State) : actAll s f = .next (f s) :=
  congrArg Host.Outcome.next (if_pos hp)

/-! ### First power -/

theorem firstPower_otp_of_keys {s : State} (h : s.otp.idPub ≠ []) : (firstPower s).otp = s.otp := by
  rw [firstPower, if_neg h]

/-- The first power changes neither the rest of the fuses nor of the part but the random source's draw. -/
theorem firstPower_fields (s : State) :
    (firstPower s).otp.variant = s.otp.variant ∧ (firstPower s).otp.cert = s.otp.cert ∧ (firstPower s).pending = s.pending
      ∧ (firstPower s).dev.aon = s.dev.aon ∧ (firstPower s).dev.pwr = s.dev.pwr ∧ (firstPower s).dev.flash = s.dev.flash := by
  unfold firstPower
  split <;> simp [Dev.draw]

/-! ### The part after `clearDev` and `startUp`, field by field -/

section
variable (o : Otp) (d : Dev) (st : Straps) (aon : Aon) (b : Bool)

@[simp] theorem modPwr_pwr (f : PwrSt → PwrSt) : (d.modPwr f).pwr = f d.pwr := rfl

@[simp] theorem clearDev_straps : (clearDev o d st aon).straps = st := rfl
@[simp] theorem clearDev_part : (clearDev o d st aon).part = o.variant := rfl
@[simp] theorem clearDev_cert : (clearDev o d st aon).cert = o.cert := rfl
@[simp] theorem clearDev_aon : (clearDev o d st aon).aon = aon := rfl
@[simp] theorem clearDev_bell : (clearDev o d st aon).bell = Dev.reset.bell := rfl
@[simp] theorem clearDev_pwr : (clearDev o d st aon).pwr = { d.pwr with
    recorded := d.pwr.gasp, returned := none, src := loadInput d.pwr st, gasp := d.pwr.gasp && !d.pwr.inA && !d.pwr.inB } := by
  simp [clearDev]

@[simp] theorem startUp_part : (startUp o d b).part = d.part := by simp [startUp_fields]
@[simp] theorem startUp_straps : (startUp o d b).straps = d.straps := by simp [startUp_fields]
@[simp] theorem startUp_cert : (startUp o d b).cert = d.cert := by simp [startUp_fields]
@[simp] theorem startUp_pwr : (startUp o d b).pwr = d.pwr := by simp [startUp_fields]
@[simp] theorem startUp_aon :
    (startUp o d b).aon = if d.aon.set then { d.aon with rate := d.aon.learned } else d.aon := by simp [startUp_fields]
@[simp] theorem startUp_bell :
    (startUp o d b).bell = if d.aon.set then { d.bell with next := d.nowNs + 2000000 } else d.bell := by simp [startUp_fields]

end

/-! ### Restarts -/

/-- The always-on domain and the straps after a restart (R473), and what is left of last gasp. -/
theorem restart_fields (s : State) (st : Straps) (cause : Nat) :
    (restart s st cause).otp = (firstPower s).otp ∧ (restart s st cause).pending = s.pending
      ∧ (restart s st cause).dev.straps = st
      ∧ (restart s st cause).dev.aon = { s.dev.aon with
          cause := cause, timeKept := s.dev.aon.set, release := s.dev.aon.cycles,
          rate := if s.dev.aon.set then s.dev.aon.learned else s.dev.aon.rate }
      ∧ (restart s st cause).dev.bell.started = false
      ∧ (restart s st cause).dev.pwr = { s.dev.pwr with
          tapHold := false, recorded := s.dev.pwr.gasp, returned := none,
          src := loadInput { s.dev.pwr with tapHold := false } st,
          gasp := s.dev.pwr.gasp && !s.dev.pwr.inA && !s.dev.pwr.inB } := by
  obtain ⟨-, -, hpend, haon, hpwr, -⟩ := firstPower_fields s
  refine ⟨rfl, hpend, ?_, ?_, ?_, ?_⟩
  · simp [restart, keepPower]
  · cases hs : s.dev.aon.set <;> simp [restart, keepPower, haon, hs]
  · cases hs : s.dev.aon.set <;> simp [restart, keepPower, haon, hs, Dev.reset]
  · simp [restart, keepPower, hpwr]

/-- A part that restarts with an input present leaves last gasp, and the TAP no longer holds it. -/
theorem restart_powered (s : State) (st : Straps) (cause : Nat) (hoff : s.dev.pwr.off = false) :
    (restart s st cause).dev.powered = true := by
  obtain ⟨-, -, -, -, -, hpwr⟩ := restart_fields s st cause
  simp [Dev.powered, hpwr, hoff]

/-- A command that restarts the part with device time kept. -/
theorem restart_keepsTime (s : State) (st : Straps) (cause : Nat) :
    (restart s st cause).dev.aon.time = s.dev.aon.time ∧ (restart s st cause).dev.aon.set = s.dev.aon.set
      ∧ (restart s st cause).dev.aon.learned = s.dev.aon.learned ∧ (restart s st cause).dev.aon.cause = cause
      ∧ (restart s st cause).dev.aon.timeKept = s.dev.aon.set := by
  obtain ⟨-, -, -, haon, -, -⟩ := restart_fields s st cause
  simp [haon]

/-! ### The TAP (R488) -/

/-- An instruction that acts as BYPASS on the part, and one that holds it in reset. -/
def tapHolds (d : Dev) (i : TapOp) : Bool :=
  match i with
  | .highz => true
  | .extest | .clamp => !d.cert
  | _ => false

theorem tapOp_eq (s : State) (i : TapOp) (st : Straps) :
    tapOp s i st = if s.dev.pwr.off = true then s
      else if tapHolds s.dev i = true then (if s.dev.pwr.tapHold then s else holdReset s)
      else if s.dev.pwr.tapHold = true then restart s st 1 else s := by
  cases i <;> rfl

theorem tapHolds_false {d : Dev} {i : TapOp}
    (h : i = .bypass ∨ i = .idcode ∨ i = .sample ∨ i = .testLogicReset ∨ (d.cert = true ∧ (i = .extest ∨ i = .clamp))) :
    tapHolds d i = false := by
  rcases h with rfl | rfl | rfl | rfl | ⟨hc, rfl | rfl⟩ <;> simp [tapHolds, *]

theorem tapHolds_true {d : Dev} {i : TapOp} (h : i = .highz ∨ (d.cert = false ∧ (i = .extest ∨ i = .clamp))) :
    tapHolds d i = true := by
  rcases h with rfl | ⟨hc, rfl | rfl⟩ <;> simp [tapHolds, *]

theorem powered_iff (d : Dev) : d.powered = true ↔ d.pwr.off = false ∧ d.pwr.tapHold = false := by
  simp [Dev.powered]

/-- What a part that the TAP holds keeps: the always-on domain, with the cause. -/
theorem holdReset_fields (s : State) :
    (holdReset s).otp = s.otp ∧ (holdReset s).pending = s.pending ∧ (holdReset s).dev.pwr.tapHold = true
      ∧ (holdReset s).dev.aon = { s.dev.aon with cause := 1, timeKept := s.dev.aon.set } ∧ (holdReset s).dev.tick = 0 := by
  refine ⟨rfl, rfl, rfl, ?_, ?_⟩ <;> simp [holdReset, noteProbation, keepPower, Dev.tick, Dev.reset]

/-- Settles O9: a restart keeps the always-on domain but for the cause and the rate (`restart_fields`). -/
theorem restartKeepsDeviceTime : Obligations.RestartKeepsDeviceTime := by
  refine ⟨fun s st hp => ?_, fun s w v st ha hgo hkey => ?_, fun s w v st ha hno => ?_, fun s i st hoff hhold hi => ?_,
    fun s i st hp hi => ?_, fun s i st hp hi => ?_⟩
  · obtain ⟨hotp, hpend, hst, -, hbell, -⟩ := restart_fields s st 1
    obtain ⟨htime, hset, hlearned, hcause, hkept⟩ := restart_keepsTime s st 1
    exact ⟨restart s st 1, congrArg Host.Outcome.next (if_pos hp), hotp, hpend, hst, htime, hset, hlearned, hcause, hkept, hbell⟩
  · obtain ⟨hotp, hpend, hst, -, -, -⟩ := restart_fields s st 2
    obtain ⟨htime, hset, -, hcause, -⟩ := restart_keepsTime s st 2
    exact ⟨restart s st 2, (regCmd_admitted ha _).trans (congrArg Host.Outcome.next (if_pos ⟨hgo, hkey⟩)), hotp, hpend, hst,
      htime, hset, hcause⟩
  · exact (regCmd_admitted ha _).trans (congrArg Host.Outcome.next (if_neg hno))
  · obtain ⟨hotp, -, hst, -, -, hpwr⟩ := restart_fields s st 1
    obtain ⟨htime, -, -, hcause, -⟩ := restart_keepsTime s st 1
    refine ⟨restart s st 1, congrArg Host.Outcome.next ?_, hotp, hst, by rw [hpwr], htime, hcause⟩
    rw [tapOp_eq, if_neg (by simp [hoff]), if_neg (by simp [tapHolds_false hi]), if_pos hhold]
  · obtain ⟨hoff, hhold⟩ := (powered_iff _).mp hp
    obtain ⟨hotp, hpend, htap, haon, htick⟩ := holdReset_fields s
    refine ⟨holdReset s, congrArg Host.Outcome.next ?_, hotp, hpend, htap, by simp [Dev.powered, htap], by rw [haon],
      by rw [haon], by rw [haon], htick⟩
    rw [tapOp_eq, if_neg (by simp [hoff]), if_pos (tapHolds_true hi), if_neg (by simp [hhold])]
  · obtain ⟨hoff, hhold⟩ := (powered_iff _).mp hp
    refine congrArg Host.Outcome.next ?_
    rw [tapOp_eq, if_neg (by simp [hoff]), if_neg (by simp [tapHolds_false hi]), if_neg (by simp [hhold])]

/-! ### The rails (R464, R479) -/

/-- A part whose rails are off. -/
theorem powerOff_fields (s : State) (b : Bool) :
    (powerOff s b).otp = s.otp ∧ (powerOff s b).pending = s.pending ∧ (powerOff s b).dev.powered = false
      ∧ (powerOff s b).dev.pwr.tripped = b ∧ (powerOff s b).dev.aon = Aon.reset ∧ (powerOff s b).dev.pwr.src = 0
      ∧ (powerOff s b).dev.pwr.gasp = false :=
  ⟨rfl, rfl, rfl, rfl, rfl, rfl, rfl⟩

/-- What a power-on reset leaves outside the packages. -/
theorem powerOn_fields (s : State) (st : Straps) :
    (powerOn s st).otp = (firstPower s).otp ∧ (powerOn s st).pending = s.pending ∧ (powerOn s st).dev.straps = st
      ∧ (powerOn s st).dev.part = s.otp.variant ∧ (powerOn s st).dev.cert = s.otp.cert ∧ (powerOn s st).dev.aon = Aon.reset
      ∧ (powerOn s st).dev.bell = Dev.reset.bell ∧ (powerOn s st).dev.powered = true
      ∧ (powerOn s st).dev.pwr.tripped = false ∧ (powerOn s st).dev.get PWR_STAT_VAUXON = b2n st.vaux := by
  obtain ⟨hvar, hcert, hpend, -, -, -⟩ := firstPower_fields s
  refine ⟨rfl, hpend, ?_, ?_, ?_, ?_, ?_, ?_, ?_, ?_⟩
  · simp [powerOn]
  · simp [powerOn, hvar]
  · simp [powerOn, hcert]
  · simp [powerOn, Aon.reset]
  · simp [powerOn, Aon.reset]
  · simp [powerOn, Dev.powered]
  · simp [powerOn]
  · rw [powerOn, Dev.setB, get_set_same _ _ _ rfl]
    cases st.vaux <;> rfl

theorem powerGood_off {s : State} {st : Straps} (h : s.dev.pwr.tripped = true ∨ (s.dev.pwr.inA = false ∧ s.dev.pwr.inB = false)) :
    powerGood s st = s := if_pos h

theorem powerGood_on {s : State} {st : Straps} (ht : s.dev.pwr.tripped = false) (hin : s.dev.pwr.inA = true ∨ s.dev.pwr.inB = true) :
    powerGood s st = powerOn s st :=
  if_neg (by rcases hin with h | h <;> simp [ht, h])

/-- Settles O10: the rails off leave nothing of the always-on domain, and power good needs the trip to be over (R464, R479). -/
theorem railsOffAndThermalRecovery : Obligations.RailsOffAndThermalRecovery := by
  refine ⟨fun s hoff => ?_, fun s hg => ?_, fun s st ht hin => ?_⟩
  · obtain ⟨hotp, hpend, hpow, htrip, haon, hsrc, -⟩ := powerOff_fields s true
    exact ⟨powerOff s true, congrArg Host.Outcome.next (if_neg (by simp [hoff])), hotp, hpend, hpow, htrip, haon, hsrc⟩
  · obtain ⟨hotp, hpend, hpow, -, haon, -, hgasp⟩ := powerOff_fields s false
    exact ⟨powerOff s false, congrArg Host.Outcome.next (if_pos hg), hotp, hpend, hpow, hgasp, haon⟩
  · let u : State := { s with dev := s.dev.modPwr fun p => { p with tripped := false } }
    have hu : (firstPower u).otp = (firstPower s).otp := by unfold firstPower; split <;> rfl
    obtain ⟨hotp, hpend, hst, -, -, haon, -, hpow, htrip, -⟩ := powerOn_fields u st
    refine ⟨powerOn u st, congrArg Host.Outcome.next ?_, hotp.trans hu, hpend, hpow, htrip, hst, haon⟩
    exact (if_pos ht).trans (powerGood_on rfl hin)

end Sys2Proof.Machine
end

section
/-! Power-on reset without a package (R471 step 6), and a fault of a page that is neither quiet nor in a reset shadow. -/

namespace Sys2Proof.Machine

open Sys2Proof

/-! ### A fault that leads to no reaction -/

/-- Page `p` is neither in a quiet period nor in a reset shadow. -/
def Calm (d : Dev) (p : Nat) : Prop := (d.page p).quiet = none ∧ (d.page p).shadow = none

theorem calm_of_pages {d e : Dev} {p : Nat} (h : e.pages = d.pages) (hc : Calm d p) : Calm e p := by
  unfold Calm Dev.page at *
  rw [h]
  exact hc

/-- A detection writes the three registers of the record. -/
theorem recordFault_getW {d : Dev} {p n code sev k : Nat} {forced : Bool} (hflt : k ≠ PG_FLT p) (hfltx : k ≠ PG_FLTX p)
    (hist : k ≠ PG_IST p) : (recordFault d p n code sev forced).1.getW k = d.getW k := by
  by_cases hv : d.get (PG_FLT_VALID p) = 0
  · rw [(recordFault_first hv n code sev forced).1, getW_ist_ne _ hist, getW_setW_ne _ hflt]
  · rw [(recordFault_later hv n code sev forced).1, getW_set_ne _ _ _ hfltx, getW_inc_ne _ _ hfltx]

theorem recordFault_calm {d : Dev} {p n code sev : Nat} {forced : Bool} (hc : Calm d p) :
    Calm (recordFault d p n code sev forced).1 p := by
  unfold recordFault
  extract_lets st cause cls first d1 d2 d3
  have h1 : d1.pages = d.pages := by unfold d1; split <;> rfl
  have h2 : Calm d2 p := by
    unfold Calm d2
    rw [page_modPage_same]
    exact calm_of_pages h1 hc
  have h3 : Calm d3 p := h2
  split
  · exact h3
  · exact h3

theorem setTimer_calm {d : Dev} {p n sev before : Nat} (hc : Calm d p) : Calm (setTimer d p n sev before) p := by
  obtain ⟨hquiet, hshadow⟩ := hc
  unfold setTimer Calm
  extract_lets own
  rw [page_modPage_same]
  split
  · exact ⟨hquiet, hshadow⟩
  · split
    · exact ⟨hquiet, hshadow⟩
    · split <;> exact ⟨hquiet, hshadow⟩

/-- A fault of a calm page is recorded and may set the timer: no reaction follows at once. -/
theorem raise_of_calm {d : Dev} {p n k : Nat} (h8 : p ≠ 8) (hc : Calm d p) (hflt : k ≠ PG_FLT p) (hfltx : k ≠ PG_FLTX p)
    (hist : k ≠ PG_IST p) : (raise d p n).getW k = d.getW k ∧ Calm (raise d p n) p := by
  unfold raise
  rw [raiseWith]
  split
  · exact ⟨rfl, hc⟩
  · next code sev _ =>
    split
    · exact ⟨rfl, hc⟩
    · have hg := recordFault_getW (d := d) (n := n) (code := code) (sev := sev) (forced := false) hflt hfltx hist
      have hr := recordFault_calm (n := n) (code := code) (sev := sev) (forced := false) hc
      obtain ⟨hquiet, hshadow⟩ := hr
      simp only [h8, false_and, if_false, Option.filter_none, hquiet, hshadow, Option.isSome_none, Bool.false_eq_true, or_self]
      split
      · exact ⟨hg, hquiet, hshadow⟩
      · split
        · exact ⟨hg, hquiet, hshadow⟩
        · exact ⟨hg, setTimer_calm ⟨hquiet, hshadow⟩⟩

/-! ### Start-up without a package -/

/-- Equal words of a register give equal values of a field in it. -/
theorem get_of_getW {d e : Dev} {f : Fld} (h : e.getW f.key = d.getW f.key) : e.get f = d.get f := congrArg (bitsOf · f.hi f.lo) h

/-- A restart during probation with PREVIOUS empty only records the failure. -/
theorem bootReturn_none {d : Dev} (hp : d.flash.previous = none) (hc : Calm d 0x60) :
    (bootReturn d).getW PWR_CFG = d.getW PWR_CFG ∧ Calm (bootReturn d) 0x60 ∧ (bootReturn d).flash = d.flash := by
  unfold bootReturn
  rw [hp]
  dsimp only
  obtain ⟨hg, hcalm⟩ := raise_of_calm (d := recordReturn d 4) (n := 2) (k := PWR_CFG) (by decide) (calm_of_pages rfl hc)
    (by decide) (by decide) (by decide)
  refine ⟨hg.trans ?_, hcalm, ?_⟩
  · rw [recordReturn, getW_ist_ne _ (by decide), getW_inc_ne _ _ (by decide), getW_setW_ne _ (by decide)]
  · simp [core_fields (core_raise _ _ _), recordReturn]

/-- With neither ACTIVE nor PREVIOUS the part starts without a package. -/
theorem bootPackages_none {o : Otp} {d : Dev} (b : Bool) (ha : d.flash.active = none) (hp : d.flash.previous = none)
    (hc : Calm d 0x60) :
    (bootPackages o d b).getW PWR_CFG = d.getW PWR_CFG ∧ (bootPackages o d b).get CFG_STAT_NOPKG = 1 := by
  unfold bootPackages
  have hr := bootReturn_none hp hc
  extract_lets d1 good
  have h1 : d1.getW PWR_CFG = d.getW PWR_CFG ∧ Calm d1 0x60 ∧ d1.flash = d.flash := by
    unfold d1
    split
    · exact hr
    · exact ⟨rfl, hc, rfl⟩
  obtain ⟨hg, hcalm, hflash⟩ := h1
  clear_value d1
  rw [hflash, ha, hp]
  have hc1 : Calm (d1.set CFG_STAT_NOPKG 1) 0x60 := calm_of_pages rfl hcalm
  obtain ⟨hpwr, -⟩ := raise_of_calm (n := 0) (k := PWR_CFG) (by decide) hc1 (by decide) (by decide) (by decide)
  obtain ⟨hcfg, -⟩ := raise_of_calm (n := 0) (k := CFG_STAT) (by decide) hc1 (by decide) (by decide) (by decide)
  refine ⟨?_, ?_⟩
  · rw [hpwr, getW_set_ne _ _ _ (by decide), hg]
  · exact (get_of_getW hcfg).trans (get_set_same _ _ _ rfl)

theorem certStart_getW {d : Dev} {k : Nat} (hk : ∀ c, k ≠ CHX_AUTHCFG c) : (certStart d).getW k = d.getW k := by
  unfold certStart
  split
  · exact forEach_same (Dev.getW · k) _ _ (fun _ c => getW_setBit_ne _ _ _ (hk c)) _
  · rfl

/-- The first steps of R471: VAUX as strapped, every rail in regulation. -/
def railsUp (d : Dev) : Dev :=
  (d.setB PWR_CFG_VAUXEN d.straps.vaux).forEach (List.range 6) fun d r => d.set (PWR_RAIL_INREG r) 1

theorem railsUp_same {β : Type} (g : Dev → β) (hg : ∀ (d : Dev) (l : List (Nat × Word)), g { d with regs := l } = g d) (d : Dev) :
    g (railsUp d) = g d :=
  (forEach_same g _ _ (fun e _ => hg e _) _).trans (hg d _)

theorem railsUp_vauxen (d : Dev) : (railsUp d).get PWR_CFG_VAUXEN = b2n d.straps.vaux := by
  have hrails : (railsUp d).getW PWR_CFG = (d.setB PWR_CFG_VAUXEN d.straps.vaux).getW PWR_CFG :=
    forEach_same (Dev.getW · PWR_CFG) _ _
      (fun e _ => getW_set_ne e _ _ (by simp [PWR_CFG, PWR_RAIL_INREG, PWR_RAIL, rkey]; omega)) _
  rw [Dev.get, show PWR_CFG_VAUXEN.key = PWR_CFG from rfl, hrails]
  refine (get_set_same _ _ _ rfl).trans ?_
  cases d.straps.vaux <;> rfl

theorem startUp_unset {o : Otp} {d : Dev} (b : Bool) (hset : d.aon.set = false) :
    startUp o d b = certStart (bootPackages o ((railsUp d).loadVault (Config.storageKey o.idPriv)) b) := by
  have haon : (railsUp d).aon.set = false := (congrArg Aon.set (railsUp_same Dev.aon (fun _ _ => rfl) d)).trans hset
  unfold startUp
  extract_lets d1 d2 e aon tim bell d3
  rw [show d3 = railsUp d from if_neg (by rw [show d2 = railsUp d from rfl, haon]; decide)]

theorem loadVault_pages (d : Dev) (k : BitVec 256) : (d.loadVault k).pages = d.pages := rfl

theorem loadVault_flash (d : Dev) (k : BitVec 256) : (d.loadVault k).flash = d.flash := rfl
theorem loadVault_getW (d : Dev) (k : BitVec 256) (j : Nat) : (d.loadVault k).getW j = d.getW j := rfl
theorem vauxen_ne (c : Nat) : PWR_CFG_VAUXEN.key ≠ CHX_AUTHCFG c := by
  simp only [PWR_CFG_VAUXEN, PWR_CFG, CHX_AUTHCFG, rkey]
  omega
theorem nopkg_ne (c : Nat) : CFG_STAT_NOPKG.key ≠ CHX_AUTHCFG c := by
  simp only [CFG_STAT_NOPKG, CFG_STAT, CHX_AUTHCFG, rkey]
  omega

/-- A part that starts with device time not set and without a package. -/
theorem startUp_none {o : Otp} {d : Dev} (b : Bool) (hset : d.aon.set = false) (ha : d.flash.active = none)
    (hp : d.flash.previous = none) (hc : Calm d 0x60) :
    (startUp o d b).get PWR_CFG_VAUXEN = b2n d.straps.vaux ∧ (startUp o d b).get CFG_STAT_NOPKG = 1 := by
  have hflash : (railsUp d).flash = d.flash := railsUp_same Dev.flash (fun _ _ => rfl) d
  have hcalm : Calm (railsUp d) 0x60 := calm_of_pages (railsUp_same Dev.pages (fun _ _ => rfl) d) hc
  have hvault (k : BitVec 256) : Calm ((railsUp d).loadVault k) 0x60 := calm_of_pages (loadVault_pages _ k) hcalm
  obtain ⟨hpwr, hcfg⟩ := bootPackages_none (o := o) (d := (railsUp d).loadVault (Config.storageKey o.idPriv)) b
    (by rw [loadVault_flash, hflash, ha]) (by rw [loadVault_flash, hflash, hp]) (hvault _)
  rw [startUp_unset b hset]
  refine ⟨(get_of_getW ?_).trans (railsUp_vauxen d), (get_of_getW ?_).trans hcfg⟩
  · exact (certStart_getW vauxen_ne).trans (hpwr.trans (loadVault_getW _ _ _))
  · exact certStart_getW nopkg_ne

/-- The flash of a part that comes up, when no last gasp is left. -/
theorem clearDev_flash {o : Otp} {d : Dev} {st : Straps} {aon : Aon} (h : d.pwr.gasp = false) :
    (clearDev o d st aon).flash = restartFlash d.flash := by
  simp [clearDev, cutRecord, h]

/-- Settles O8: the part starts from what `clearDev` leaves, and without a package nothing of it overwrites VAUXEN. -/
theorem powerOnResetStartsAfresh : Obligations.PowerOnResetStartsAfresh := by
  refine ⟨fun s st ht hin => ?_, fun s st h => congrArg Host.Outcome.next (powerGood_off h)⟩
  obtain ⟨hotp, hpend, hst, hpart, hcert, haon, hbell, hpow, -, hvaux⟩ := powerOn_fields s st
  obtain ⟨-, -, -, -, -, hflash⟩ := firstPower_fields s
  refine ⟨powerOn s st, congrArg Host.Outcome.next (powerGood_on ht hin), hotp, fun hid => hotp.trans (firstPower_otp_of_keys hid),
    hpend, hst, hpart, hcert, haon, hpow, by rw [hbell]; rfl, congrArg BellSy.tick hbell, hvaux, fun ha hp => ?_⟩
  unfold powerOn
  extract_lets s1 d prob c e
  have hf : c.flash = restartFlash s.dev.flash := (clearDev_flash rfl).trans (congrArg restartFlash hflash)
  obtain ⟨hen, hno⟩ := startUp_none (o := s1.otp) (d := c) prob rfl (by rw [hf, ha]) (by rw [hf, hp]) ⟨rfl, rfl⟩
  exact ⟨(get_set_apart _ _ _ _ rfl rfl).trans hen, (get_set_apart _ _ _ _ rfl rfl).trans hno⟩

end Sys2Proof.Machine
end

section
/-! The supply inputs and last gasp (R460 to R467). -/

namespace Sys2Proof.Machine

open Sys2Proof

/-! ### Inputs (R460, R461, R464) -/

/-- The loss of the input in use, with the other present (R460). -/
theorem inputLostOp_switch {d : Dev} {a b : Bool} {src : Nat} (hp : d.powered = true) (hg : d.pwr.gasp = false)
    (hA : d.pwr.inA = true) (hB : d.pwr.inB = true) (hsrc : d.pwr.src = src)
    (hcase : (a = true ∧ b = false ∧ src = 1) ∨ (a = false ∧ b = true ∧ src = 2)) :
    inputLostOp d a b = raise (((d.modPwr (fun p =>
      { p with inA := p.inA && !a, inB := p.inB && !b, src := 3 - src })).inc PWR_CNT_SWITCH).ist 0x08 0) 0x08 0 := by
  obtain ⟨hoff, htap⟩ := (powered_iff d).mp hp
  subst hsrc
  unfold inputLostOp
  rcases hcase with ⟨rfl, rfl, hs⟩ | ⟨rfl, rfl, hs⟩ <;>
    simp [hoff, htap, hg, hA, hB, hs, Dev.powered, Dev.modPwr]

/-- The loss of the backup while the main input carries the load (R460). -/
theorem inputLostOp_backup {d : Dev} (hp : d.powered = true) (hg : d.pwr.gasp = false)
    (hA : d.pwr.inA = true) (hB : d.pwr.inB = true) (hsrc : d.pwr.src = 1) :
    inputLostOp d false true = raise ((d.modPwr (fun p => { p with inB := false })).inc PWR_CNT_BACKLOST) 0x08 1 := by
  obtain ⟨hoff, htap⟩ := (powered_iff d).mp hp
  unfold inputLostOp
  simp [hoff, htap, hg, hA, hB, hsrc, Dev.powered, Dev.modPwr]

/-- Last gasp starts (R464 steps 1 and 2). -/
theorem startGasp_powered {d : Dev} (hp : d.powered = true) :
    startGasp d = raise ((({ d with
        pwr := { d.pwr with gasp := true, recorded := false, returned := none, src := 0,
                            lgAt := (d.tick % 2 ^ 32, d.nowSec % 2 ^ 32, d.nowSub) },
        flash := { d.flash with lgrec := [] } }).set PWR_STAT_VAUXON 0).ist 0x08 2) 0x08 2 := by
  obtain ⟨hoff, htap⟩ := (powered_iff d).mp hp
  unfold startGasp
  exact if_pos ((powered_iff _).mpr ⟨hoff, htap⟩)

/-- The loss of the last input starts last gasp (R464). -/
theorem inputLostOp_last {d : Dev} {a b : Bool} (hp : d.powered = true) (hg : d.pwr.gasp = false)
    (hlost : (a = true ∧ d.pwr.inA = true) ∨ (b = true ∧ d.pwr.inB = true))
    (hA : d.pwr.inA = true → a = true) (hB : d.pwr.inB = true → b = true) :
    inputLostOp d a b = startGasp (d.modPwr fun p => { p with inA := false, inB := false }) := by
  obtain ⟨hoff, -⟩ := (powered_iff d).mp hp
  have hinA : (d.pwr.inA && !a) = false := by cases h : d.pwr.inA <;> simp_all
  have hinB : (d.pwr.inB && !b) = false := by cases h : d.pwr.inB <;> simp_all
  have hany : ¬ ((a && d.pwr.inA) = false ∧ (b && d.pwr.inB) = false) := by
    rcases hlost with ⟨rfl, h⟩ | ⟨rfl, h⟩ <;> simp [h]
  unfold inputLostOp
  simp only [modPwr_pwr, hoff, hg, hinA, hinB, hany, Bool.false_eq_true, false_or, if_false, and_self, if_true]
  simp only [Dev.modPwr, hinA, hinB]

/-- Settles O11: each loss of an input is one branch of R460 and R464. -/
theorem inputsSwitchOverGaspAndRevert : Obligations.InputsSwitchOverGaspAndRevert := by
  refine ⟨fun s hp hg hA hB hs => ?_, fun s hp hg hA hB hs => ?_, fun s hp hg hA hB hs => ?_,
    fun s a b hp hg hlost hA hB => ?_, fun s x hg => ?_, fun s hoff hg hrev hhas hsrc => ?_, fun s hrev => ?_⟩
  · refine congrArg (fun d => Host.Outcome.next (s.put d)) ((inputLostOp_switch hp hg hA hB hs (.inl ⟨rfl, rfl, rfl⟩)).trans ?_)
    simp [Dev.modPwr]
  · refine congrArg (fun d => Host.Outcome.next (s.put d)) ((inputLostOp_switch hp hg hA hB hs (.inr ⟨rfl, rfl, rfl⟩)).trans ?_)
    simp [Dev.modPwr]
  · exact congrArg (fun d => Host.Outcome.next (s.put d)) (inputLostOp_backup hp hg hA hB hs)
  · refine congrArg (fun d => Host.Outcome.next (s.put d)) ((inputLostOp_last hp hg hlost hA hB).trans ?_)
    exact startGasp_powered hp
  · exact congrArg (fun d => Host.Outcome.next (s.put d)) (if_neg (by simp [hg]))
  · exact congrArg (fun d => Host.Outcome.next (s.put d)) (if_neg (by simp [hoff, hg, hrev, hhas, hsrc]))
  · exact congrArg (fun d => Host.Outcome.next (s.put d)) (if_pos (.inr (.inr (.inl hrev))))

/-! ### Last gasp (R464, R466, R467) -/

/-- What the sending of a message leaves: all but the registers, the packet numbers, the PRP sequence number and what went out. -/
theorem sendOn_same {β : Type} (g : Dev → β)
    (hg : ∀ (d : Dev) (r : List (Nat × Word)) (ss : List Sess) (out : List Out), g { d with regs := r, sess := ss, out := out } = g d)
    (d : Dev) (x : Side) (n prp : Nat) (m : Out) : g (d.sendOn x n prp m) = g d := by
  unfold Dev.sendOn
  cases d.upOk x.num with
  | false => rfl
  | true => cases m.sess <;> exact hg d _ _ _

theorem send_same {β : Type} (g : Dev → β)
    (hg : ∀ (d : Dev) (r : List (Nat × Word)) (ss : List Sess) (out : List Out), g { d with regs := r, sess := ss, out := out } = g d)
    (hprp : ∀ (d : Dev) (n : Nat), g { d with prp := n } = g d) (d : Dev) (m : Out) : g (d.send m) = g d := by
  unfold Dev.send Dev.sendFrames
  rw [sendOn_same g hg, sendOn_same g hg, hprp]

theorem sendOn_getW (d : Dev) {x : Side} {k : Nat} (hk : k ≠ UPL_TXCNT x.num) (n prp : Nat) (m : Out) :
    (d.sendOn x n prp m).getW k = d.getW k := by
  unfold Dev.sendOn
  have hadd : (d.add (UPL_TXCNT_COUNT x.num) n).getW k = d.getW k := getW_set_ne _ _ _ hk
  cases d.upOk x.num with
  | false => rfl
  | true => cases m.sess <;> exact hadd

/-- A message counts in the transmit counters of the uplinks. -/
theorem send_getW (d : Dev) {k : Nat} (ha : k ≠ UPL_TXCNT 0) (hb : k ≠ UPL_TXCNT 1) (m : Out) : (d.send m).getW k = d.getW k := by
  unfold Dev.send Dev.sendFrames
  rw [sendOn_getW _ (x := .b) hb, sendOn_getW _ (x := .a) ha]
  rfl

/-- The state after the record of last gasp, when no input has returned (R464 step 3). -/
theorem gaspDone_waiting {s : State} (hp : s.dev.powered = true) (hg : s.dev.pwr.gasp = true) (hr : s.dev.pwr.recorded = false)
    (hret : s.dev.pwr.returned = none) :
    gaspDone s = s.put ((gaspSend (s.dev.modFlash fun f => { f with lgrec := gaspRecord s.dev })).modPwr
      fun p => { p with recorded := true }) := by
  have hpwr (d : Dev) : (gaspSend d).pwr = d.pwr := send_same Dev.pwr (fun _ _ _ _ => rfl) (fun _ _ => rfl) d _
  unfold gaspDone
  dsimp only
  rw [if_neg (by simp [hg, hr, hp])]
  simp only [modPwr_pwr, hpwr, modFlash_pwr, hret]
  rfl

/-- Settles O12: the record goes into flash and out, and an input that returns restarts the part (`restart_fields`). -/
theorem lastGaspRecordAndReturn : Obligations.LastGaspRecordAndReturn := by
  refine ⟨fun s hp hg hr hret => ?_, fun s x st hp hg hr => ?_, fun s x st hp hg hr => ?_⟩
  · let d := s.dev.modFlash fun f => { f with lgrec := gaspRecord s.dev }
    refine ⟨_, congrArg Host.Outcome.next (gaspDone_waiting hp hg hr hret), rfl, rfl, ?_, ?_, fun k ha hb => ?_, ?_⟩
    · exact send_same Dev.flash (fun _ _ _ _ => rfl) (fun _ _ => rfl) d _
    · exact congrArg (fun p : PwrSt => { p with recorded := true }) (send_same Dev.pwr (fun _ _ _ _ => rfl) (fun _ _ => rfl) d _)
    · exact send_getW d ha hb _
    · exact send_same Dev.mem (fun _ _ _ _ => rfl) (fun _ _ => rfl) d _
  · let u : State := { s with dev := (s.dev.modPwr fun p => p.put x true).modPwr fun p => { p with gasp := false } }
    have hu : (firstPower u).otp = (firstPower s).otp := by unfold firstPower; split <;> rfl
    obtain ⟨hotp, hpend, hst, -, -, hpwr⟩ := restart_fields u st 4
    obtain ⟨htime, -, -, hcause, -⟩ := restart_keepsTime u st 4
    refine ⟨restart u st 4, congrArg Host.Outcome.next ?_, hotp.trans hu, hpend, hst, ?_, by rw [hpwr]; rfl, htime, hcause⟩
    · have hput : (s.dev.pwr.put x true).recorded = true ∧ (s.dev.modPwr fun p => p.put x true).powered = true := by
        obtain ⟨hoff, htap⟩ := (powered_iff _).mp hp
        cases x <;> simp [PwrSt.put, Dev.powered, hr, hoff, htap]
      exact (if_neg (by simp [hg])).trans (if_pos hput)
    · rw [hpwr]
      cases x <;> rfl
  · refine congrArg Host.Outcome.next ?_
    unfold inputBack
    have hput : (s.dev.pwr.put x true).recorded = false := by cases x <;> exact hr
    simp [hg, hput, Dev.modPwr, State.put]

end Sys2Proof.Machine
end

section
/-! Writes of plain register words under the access codes (R7). -/

namespace Sys2Proof.Machine

open Sys2Proof

/-! ### Masks and blends, bit by bit -/

theorem testBit_maskBits (hi lo n : Nat) : (maskBits hi lo).testBit n = (decide (lo ≤ n) && decide (n ≤ hi)) := by
  rw [maskBits, Nat.testBit_mul_two_pow, Nat.testBit_two_pow_sub_one, Bool.eq_iff_iff]
  simp only [Bool.and_eq_true, decide_eq_true_eq]
  omega

/-- A bit of the mask of the fields that are picked. -/
theorem testBit_rowMask (r : RegRow) (pick : Acc × Nat × Nat → Bool) (n : Nat) :
    (rowMask r pick).testBit n = r.acc.any (fun f => pick f && decide (f.2.2 ≤ n) && decide (n ≤ f.2.1)) := by
  have hfold (l : List (Acc × Nat × Nat)) (m : Nat) :
      (l.foldl (fun m f => if pick f then m ||| maskBits f.2.1 f.2.2 else m) m).testBit n
        = (m.testBit n || l.any (fun f => pick f && decide (f.2.2 ≤ n) && decide (n ≤ f.2.1))) := by
    induction l generalizing m with
    | nil => simp
    | cons f l ih =>
      rw [List.foldl_cons, ih, List.any_cons]
      cases pick f <;> simp [testBit_maskBits, Nat.testBit_or, Bool.or_assoc]
  rw [rowMask, hfold, Nat.zero_testBit, Bool.false_or]

/-- A blend takes the bits of the mask from the second word and keeps the others. -/
theorem testBit_blend (x m v : Nat) {n : Nat} (hn : n < 32) :
    (blend x m v).testBit n = if m.testBit n then v.testBit n else x.testBit n := by
  have hneg : (2 ^ 32 - 1 - m % 2 ^ 32).testBit n = !m.testBit n := by
    rw [show 2 ^ 32 - 1 - m % 2 ^ 32 = 2 ^ 32 - (m % 2 ^ 32 + 1) by omega,
      Nat.testBit_two_pow_sub_succ (Nat.mod_lt _ (Nat.two_pow_pos 32)), Nat.testBit_mod_two_pow, decide_eq_true hn]
    rfl
  rw [blend, Nat.testBit_or, Nat.testBit_and, Nat.testBit_and, hneg]
  cases m.testBit n <;> simp

/-! ### A plain register after a write -/

/-- The part after a write of a plain word: the word itself, and the shadow of its RWS fields beside it. -/
theorem writeFields_getW {d : Dev} {p off v : Nat} {r : RegRow} (hr : regRow p off = some r) (hb : liveBlocked d p off v = false) :
    (writeFields d p off v).getW = (d.setW (rkey p off) (blend (heldAs p off (blend (d.getW (rkey p off))
        (rowMask r (fun f => f.1 == .rw || f.1 == .rwp || f.1 == .rwl)) v)) (rowMask r (fun f => f.1 == .w1c) &&& v) 0)).getW
      ∧ (writeFields d p off v).mem = d.mem := by
  unfold writeFields
  rw [hr]
  simp only [hb, Bool.false_eq_true, if_false]
  split <;> exact ⟨rfl, rfl⟩

theorem writeFields_getW_ne {d : Dev} {p off v k : Nat} (hb : liveBlocked d p off v = false) (hk : k ≠ rkey p off) :
    (writeFields d p off v).getW k = d.getW k := by
  cases hr : regRow p off with
  | none => rw [writeFields, hr]
  | some r => rw [(writeFields_getW hr hb).1, getW_setW_ne _ hk]

/-- A bit of the word after the write: a W1C bit that is written 1 clears, a writable bit takes the value that the register holds,
any other stays. -/
theorem writeFields_bit {d : Dev} {p off v n : Nat} {r : RegRow} (hr : regRow p off = some r) (hn : n < 32)
    (hb : liveBlocked d p off v = false) (hheld : ∀ x, heldAs p off x = x) :
    (writeFields d p off v).bit (rkey p off) n =
      if (r.acc.any fun f => f.1 == .w1c && decide (f.2.2 ≤ n) && decide (n ≤ f.2.1)) = true ∧ bitOf v n = true then false
      else if (r.acc.any fun f => (f.1 == .rw || f.1 == .rwp || f.1 == .rwl) && decide (f.2.2 ≤ n) && decide (n ≤ f.2.1)) = true
        then bitOf v n
      else d.bit (rkey p off) n := by
  rw [Dev.bit, (writeFields_getW hr hb).1, getW_setW_same, bitOf_eq_testBit, Nat.testBit_mod_two_pow, decide_eq_true hn, Bool.true_and,
    testBit_blend _ _ _ hn, hheld, testBit_blend _ _ _ hn, Nat.testBit_and, testBit_rowMask, testBit_rowMask, Nat.zero_testBit,
    Dev.bit, bitOf_eq_testBit, bitOf_eq_testBit]
  simp only [Bool.and_eq_true]

/-- Settles O24: the effect of an admitted write is `writeReg`, and a plain word follows its access codes bit by bit. -/
theorem registerWritesFollowTheAccessCodes : Obligations.RegisterWritesFollowTheAccessCodes := by
  refine ⟨fun s w p off v ha hp ho hr hn => regWrite_admitted ha hp ho hr hn, fun s w p off v ha hp ho hno => ?_,
    fun s w a v ha hm => ?_, fun d p off v r n hr hn hb hheld => ?_⟩
  · refine (regCmd_admitted ha _).trans (congrArg Host.Outcome.next ?_)
    unfold writeWord
    rw [if_pos (inRegs_regAddr hp ho)]
    dsimp only
    rw [regAddr_page ho, regAddr_off ho]
    exact if_pos (hno.imp_right fun h => by rw [h]; rfl)
  · refine (regCmd_admitted ha _).trans (congrArg Host.Outcome.next ?_)
    have hreg : inRegs a = false := by simp [inRegs]; omega
    exact if_neg (by simp [hreg])
  · have hcontains (f : Acc × Nat × Nat) : [Acc.rw, .rwp, .rwl].contains f.1 = (f.1 == .rw || f.1 == .rwp || f.1 == .rwl) := by
      cases f.1 <;> rfl
    have hw1c (f : Acc × Nat × Nat) : [Acc.w1c].contains f.1 = (f.1 == .w1c) := by cases f.1 <;> rfl
    have hbit := writeFields_bit hr hn hb hheld
    simp only [hcontains, hw1c]
    refine ⟨fun hc hv => ?_, fun hw hc => ?_, fun hw hc => ?_, fun k hk => writeFields_getW_ne hb hk, (writeFields_getW hr hb).2⟩
    · rw [hbit, if_pos ⟨hc, hv⟩]
    · rw [hbit, if_neg (by simp [hc]), if_pos hw]
    · rw [hbit, if_neg (by rcases hc with h | h <;> simp [h]), if_neg (by simp [hw])]

/-! ### HOLD, VAUX and the rails (R463, R468, R494) -/

/-- A field of one bit is that bit. -/
theorem get_bit (d : Dev) {f : Fld} (h : f.hi = f.lo) : d.get f = b2n (d.bit f.key f.lo) := by
  have h1 := get_lt d f
  rw [h, Nat.add_sub_cancel_left] at h1
  simp only [Dev.get, Dev.bit, bitsOf, bitOf, h, Nat.add_sub_cancel_left] at *
  generalize d.getW f.key / 2 ^ f.lo = q
  rcases Nat.mod_two_eq_zero_or_one q with hq | hq <;> simp [hq, b2n]

theorem setB_get_same (d : Dev) {f : Fld} (hf : f.ok = true) (h1 : f.hi = f.lo) (b : Bool) : (d.setB f b).get f = b2n b := by
  rw [Dev.setB, get_set_same _ _ _ hf, h1, Nat.add_sub_cancel_left]
  cases b <;> rfl

/-- The end of a condition writes PG_FLT.TRANSIENT alone among the registers. -/
theorem condEnd_getW (d : Dev) {p n k : Nat} (hk : k ≠ PG_FLT p) : (condEnd d p n).getW k = d.getW k := by
  unfold condEnd clearLive
  split
  · split
    · exact getW_set_ne _ _ _ hk
    · rfl
  · rfl

theorem condEnd_mem (d : Dev) (p n : Nat) : (condEnd d p n).mem = d.mem := by
  unfold condEnd clearLive
  split
  · split <;> rfl
  · rfl

/-- PWR_CFG: REVERT waits for the commit point, VAUXEN does not. -/
theorem regRow_pwrCfg : regRow 8 0x044 = some ⟨0x044, 0, 1, 0, 1, 0x80000000, [(.rws, 31, 31), (.rw, 30, 30)]⟩ := by decide

theorem writeReg_pwrCfg (o : Otp) (d : Dev) (w : Who) (v : Nat) :
    writeReg o d w 8 0x044 v =
      if (writeFields d 8 0x044 v).get PWR_CFG_VAUXEN = d.get PWR_CFG_VAUXEN then writeFields d 8 0x044 v
      else vauxSet (writeFields d 8 0x044 v) (bitOf v 30) := rfl

theorem writeFields_pwr {d : Dev} (p off v : Nat) (hb : liveBlocked d p off v = false) : (writeFields d p off v).pwr = d.pwr := by
  unfold writeFields
  split
  · rfl
  · simp only [hb, Bool.false_eq_true, if_false]
    split <;> rfl

/-- VAUXEN written with another value: VAUX follows it (R468). -/
theorem vauxSwitch_effect {o : Otp} {d : Dev} {w : Who} {v : Nat} {on : Bool} (hv : bitOf v 30 = on) (hg : d.pwr.gasp = false)
    (hne : d.get PWR_CFG_VAUXEN ≠ b2n on) :
    (writeReg o d w 8 0x044 v).get PWR_CFG_VAUXEN = b2n on ∧ (writeReg o d w 8 0x044 v).get PWR_STAT_VAUXON = b2n on
      ∧ (writeReg o d w 8 0x044 v).mem = d.mem := by
  have hb : liveBlocked d 8 0x044 v = false := rfl
  have hen : (writeFields d 8 0x044 v).get PWR_CFG_VAUXEN = b2n on := by
    rw [get_bit _ rfl]
    exact congrArg b2n ((writeFields_bit regRow_pwrCfg (by decide) hb fun _ => rfl).trans hv)
  rw [writeReg_pwrCfg, hen, if_neg (Ne.symm hne), hv, vauxSet, writeFields_pwr _ _ _ hb, hg, Bool.not_false, Bool.and_true]
  refine ⟨?_, ?_, ?_⟩
  · rw [get_of_getW (condEnd_getW _ (by decide)), Dev.setB, get_set_apart _ _ _ _ rfl rfl, hen]
  · rw [get_of_getW (condEnd_getW _ (by decide)), setB_get_same _ rfl rfl]
  · rw [condEnd_mem, setB_mem, (writeFields_getW regRow_pwrCfg hb).2]

/-- Settles O13: each command is one operation of the power die. -/
theorem holdVauxAndRails : Obligations.HoldVauxAndRails := by
  refine ⟨fun s cap hp => act_powered hp (holdLowOp · cap), fun s cap hp hcap => ?_, fun s hp hon => ?_, fun s hp hen hon hg => ?_,
    fun s w on ha hg hne => ?_, fun s r hp hr => ?_, fun s r hp hr hall => ?_⟩
  · exact (act_powered hp (holdChargedOp · cap)).trans (congrArg (Host.Outcome.next <| s.put ·) (if_neg (Nat.not_lt.mpr hcap)))
  · exact (act_powered hp vauxOcOp).trans (congrArg (Host.Outcome.next <| s.put ·) (if_neg (by simp [hon])))
  · refine (act_powered hp vauxRetryOp).trans (congrArg (Host.Outcome.next <| s.put ·) ?_)
    rw [vauxRetryOp, if_pos ⟨hen, hon, hg⟩, vauxSet, hg]
    rfl
  · have hbit : bitOf (putBit (s.dev.pendingW PWR_CFG) 30 on) 30 = on := (bitOf_putBit _ _ _ _).trans (if_pos rfl)
    obtain ⟨hen, hvaux, hmem⟩ := vauxSwitch_effect (o := s.otp) (w := w) hbit hg hne
    exact ⟨_, regWrite_admitted ha (by rfl) (by decide) (by rw [regRow_pwrCfg]; rfl) (by decide), rfl, rfl, hen, hvaux, hmem⟩
  · exact (act_powered hp (railDevOp · r)).trans (congrArg (Host.Outcome.next <| s.put ·) (if_neg (Nat.not_le.mpr hr)))
  · refine (act_powered hp (railBackOp · r)).trans (congrArg (Host.Outcome.next <| s.put ·) ?_)
    have hreg : ((List.range 6).all fun q => (s.dev.set (PWR_RAIL_INREG r) 1).get (PWR_RAIL_INREG q) == 1) = true := by
      rw [List.all_eq_true]
      intro q hq
      rw [beq_iff_eq]
      by_cases h : q = r
      · subst h
        exact get_set_same _ _ _ rfl
      · have hkey : (PWR_RAIL_INREG q).key ≠ (PWR_RAIL_INREG r).key := by
          simp only [PWR_RAIL_INREG, PWR_RAIL, rkey]
          omega
        exact (get_of_getW (getW_set_ne _ _ _ hkey)).trans (hall q (List.mem_range.mp hq) h)
    rw [railBackOp, if_neg (by omega)]
    exact if_pos hreg

end Sys2Proof.Machine
end

section
/-! Reads after updates of another part of the state: one rule for each read and update, so that no proof unfolds either. -/

namespace Sys2Proof.Machine

open Sys2Proof

section reads
variable (d : Dev)

/-! ### Registers, after an update beside them -/

@[simp] theorem getW_modPage (p : Nat) (f : PageX → PageX) (j : Nat) : (d.modPage p f).getW j = d.getW j := rfl
@[simp] theorem get_modPage (p : Nat) (f : PageX → PageX) (g : Fld) : (d.modPage p f).get g = d.get g := rfl
@[simp] theorem getW_setPage (p : Nat) (x : PageX) (j : Nat) : (d.setPage p x).getW j = d.getW j := rfl
@[simp] theorem get_setPage (p : Nat) (x : PageX) (g : Fld) : (d.setPage p x).get g = d.get g := rfl
@[simp] theorem getW_modChan (c : Nat) (f : Chan → Chan) (j : Nat) : (d.modChan c f).getW j = d.getW j := rfl
@[simp] theorem get_modChan (c : Nat) (f : Chan → Chan) (g : Fld) : (d.modChan c f).get g = d.get g := rfl
@[simp] theorem getW_setChan (c : Nat) (x : Chan) (j : Nat) : (d.setChan c x).getW j = d.getW j := rfl
@[simp] theorem get_setChan (c : Nat) (x : Chan) (g : Fld) : (d.setChan c x).get g = d.get g := rfl
@[simp] theorem getW_setHam (h : Nat) (x : Ham) (j : Nat) : (d.setHam h x).getW j = d.getW j := rfl
@[simp] theorem get_setHam (h : Nat) (x : Ham) (g : Fld) : (d.setHam h x).get g = d.get g := rfl
@[simp] theorem getW_setMill (m : Nat) (x : Mill) (j : Nat) : (d.setMill m x).getW j = d.getW j := rfl
@[simp] theorem get_setMill (m : Nat) (x : Mill) (g : Fld) : (d.setMill m x).get g = d.get g := rfl
@[simp] theorem getW_setSes (n : Nat) (x : Sess) (j : Nat) : (d.setSes n x).getW j = d.getW j := rfl
@[simp] theorem get_setSes (n : Nat) (x : Sess) (g : Fld) : (d.setSes n x).get g = d.get g := rfl
@[simp] theorem getW_modSes (n : Nat) (f : Sess → Sess) (j : Nat) : (d.modSes n f).getW j = d.getW j := rfl
@[simp] theorem get_modSes (n : Nat) (f : Sess → Sess) (g : Fld) : (d.modSes n f).get g = d.get g := rfl
@[simp] theorem getW_setDom (x : Nat) (m : Dom) (j : Nat) : (d.setDom x m).getW j = d.getW j := rfl
@[simp] theorem get_setDom (x : Nat) (m : Dom) (g : Fld) : (d.setDom x m).get g = d.get g := rfl
@[simp] theorem getW_emit (o : Out) (j : Nat) : (d.emit o).getW j = d.getW j := rfl
@[simp] theorem get_emit (o : Out) (g : Fld) : (d.emit o).get g = d.get g := rfl
@[simp] theorem getW_modPwr (f : PwrSt → PwrSt) (j : Nat) : (d.modPwr f).getW j = d.getW j := rfl
@[simp] theorem get_modPwr (f : PwrSt → PwrSt) (g : Fld) : (d.modPwr f).get g = d.get g := rfl
@[simp] theorem getW_modFlash (f : Flash → Flash) (j : Nat) : (d.modFlash f).getW j = d.getW j := rfl
@[simp] theorem get_modFlash (f : Flash → Flash) (g : Fld) : (d.modFlash f).get g = d.get g := rfl
@[simp] theorem getW_modTwin (f : TwinSt → TwinSt) (j : Nat) : (d.modTwin f).getW j = d.getW j := rfl
@[simp] theorem get_modTwin (f : TwinSt → TwinSt) (g : Fld) : (d.modTwin f).get g = d.get g := rfl
@[simp] theorem getW_modCfg (f : CfgSt → CfgSt) (j : Nat) : (d.modCfg f).getW j = d.getW j := rfl
@[simp] theorem get_modCfg (f : CfgSt → CfgSt) (g : Fld) : (d.modCfg f).get g = d.get g := rfl

/-! ### Pages, channels and the other tables, after a register was written -/

@[simp] theorem page_setW (k x : Nat) (q : Nat) : (d.setW k x).page q = d.page q := rfl
@[simp] theorem page_set (f : Fld) (x : Nat) (q : Nat) : (d.set f x).page q = d.page q := rfl
@[simp] theorem page_setB (f : Fld) (b : Bool) (q : Nat) : (d.setB f b).page q = d.page q := rfl
@[simp] theorem page_setBit (k i : Nat) (b : Bool) (q : Nat) : (d.setBit k i b).page q = d.page q := rfl
@[simp] theorem page_ist (p i : Nat) (q : Nat) : (d.ist p i).page q = d.page q := rfl
@[simp] theorem page_inc (f : Fld) (q : Nat) : (d.inc f).page q = d.page q := rfl
@[simp] theorem page_add (f : Fld) (n : Nat) (q : Nat) : (d.add f n).page q = d.page q := rfl
@[simp] theorem chan_setW (k x : Nat) (c : Nat) : (d.setW k x).chan c = d.chan c := rfl
@[simp] theorem chan_set (f : Fld) (x : Nat) (c : Nat) : (d.set f x).chan c = d.chan c := rfl
@[simp] theorem chan_setB (f : Fld) (b : Bool) (c : Nat) : (d.setB f b).chan c = d.chan c := rfl
@[simp] theorem chan_setBit (k i : Nat) (b : Bool) (c : Nat) : (d.setBit k i b).chan c = d.chan c := rfl
@[simp] theorem chan_ist (p i : Nat) (c : Nat) : (d.ist p i).chan c = d.chan c := rfl
@[simp] theorem chan_inc (f : Fld) (c : Nat) : (d.inc f).chan c = d.chan c := rfl
@[simp] theorem chan_add (f : Fld) (n : Nat) (c : Nat) : (d.add f n).chan c = d.chan c := rfl
@[simp] theorem ses_setW (k x : Nat) (n : Nat) : (d.setW k x).ses n = d.ses n := rfl
@[simp] theorem ses_set (f : Fld) (x : Nat) (n : Nat) : (d.set f x).ses n = d.ses n := rfl
@[simp] theorem ses_setB (f : Fld) (b : Bool) (n : Nat) : (d.setB f b).ses n = d.ses n := rfl
@[simp] theorem ses_setBit (k i : Nat) (b : Bool) (n : Nat) : (d.setBit k i b).ses n = d.ses n := rfl
@[simp] theorem ses_ist (p i : Nat) (n : Nat) : (d.ist p i).ses n = d.ses n := rfl
@[simp] theorem ses_inc (f : Fld) (n : Nat) : (d.inc f).ses n = d.ses n := rfl
@[simp] theorem ses_add (f : Fld) (n : Nat) (n' : Nat) : (d.add f n).ses n' = d.ses n' := rfl
@[simp] theorem ham_setW (k x : Nat) (h : Nat) : (d.setW k x).ham h = d.ham h := rfl
@[simp] theorem ham_set (f : Fld) (x : Nat) (h : Nat) : (d.set f x).ham h = d.ham h := rfl
@[simp] theorem ham_setB (f : Fld) (b : Bool) (h : Nat) : (d.setB f b).ham h = d.ham h := rfl
@[simp] theorem ham_setBit (k i : Nat) (b : Bool) (h : Nat) : (d.setBit k i b).ham h = d.ham h := rfl
@[simp] theorem ham_ist (p i : Nat) (h : Nat) : (d.ist p i).ham h = d.ham h := rfl
@[simp] theorem ham_inc (f : Fld) (h : Nat) : (d.inc f).ham h = d.ham h := rfl
@[simp] theorem ham_add (f : Fld) (n : Nat) (h : Nat) : (d.add f n).ham h = d.ham h := rfl
@[simp] theorem mill_setW (k x : Nat) (m : Nat) : (d.setW k x).mill m = d.mill m := rfl
@[simp] theorem mill_set (f : Fld) (x : Nat) (m : Nat) : (d.set f x).mill m = d.mill m := rfl
@[simp] theorem mill_setB (f : Fld) (b : Bool) (m : Nat) : (d.setB f b).mill m = d.mill m := rfl
@[simp] theorem mill_setBit (k i : Nat) (b : Bool) (m : Nat) : (d.setBit k i b).mill m = d.mill m := rfl
@[simp] theorem mill_ist (p i : Nat) (m : Nat) : (d.ist p i).mill m = d.mill m := rfl
@[simp] theorem mill_inc (f : Fld) (m : Nat) : (d.inc f).mill m = d.mill m := rfl
@[simp] theorem mill_add (f : Fld) (n : Nat) (m : Nat) : (d.add f n).mill m = d.mill m := rfl
@[simp] theorem dom_setW (k x : Nat) (j : Nat) : (d.setW k x).dom j = d.dom j := rfl
@[simp] theorem dom_set (f : Fld) (x : Nat) (j : Nat) : (d.set f x).dom j = d.dom j := rfl
@[simp] theorem dom_setB (f : Fld) (b : Bool) (j : Nat) : (d.setB f b).dom j = d.dom j := rfl
@[simp] theorem dom_setBit (k i : Nat) (b : Bool) (j : Nat) : (d.setBit k i b).dom j = d.dom j := rfl
@[simp] theorem dom_ist (p i : Nat) (j : Nat) : (d.ist p i).dom j = d.dom j := rfl
@[simp] theorem dom_inc (f : Fld) (j : Nat) : (d.inc f).dom j = d.dom j := rfl
@[simp] theorem dom_add (f : Fld) (n : Nat) (j : Nat) : (d.add f n).dom j = d.dom j := rfl

/-! ### Lengths of the tables -/

@[simp] theorem modChan_length (c : Nat) (f : Chan → Chan) : (d.modChan c f).chans.length = d.chans.length := length_putAt _ _ _
@[simp] theorem modSes_length (n : Nat) (f : Sess → Sess) : (d.modSes n f).sess.length = d.sess.length := length_putAt _ _ _

end reads

end Sys2Proof.Machine
end

section
/-! The state after reset, the uplinks' links, and the header registers of a page. -/

namespace Sys2Proof.Machine

open Sys2Proof

theorem elemAt_replicate {α : Type} (a : α) (n i : Nat) : elemAt a (List.replicate n a) i = a := by
  induction n generalizing i with
  | zero => rfl
  | succ n ih =>
    cases i with
    | zero => rfl
    | succ i => exact ih i

/-- Settles O3: no register, byte, session or channel of the reset state is listed with another value than its default. -/
theorem resetStateAsTheTablesGiveIt : Obligations.ResetStateAsTheTablesGiveIt := by
  refine ⟨rfl, fun _ => rfl, rfl, rfl, rfl, rfl, fun n => ?_, fun c => ?_, rfl, rfl, fun _ => rfl⟩
  · exact congrArg Sess.st (elemAt_replicate Sess.reset 8 n)
  · exact congrArg Chan.cur (elemAt_replicate Chan.reset 64 c)

/-- A command that acts on the part alone, by what its operation makes of the part. -/
theorem next_put {s : State} {d e : Dev} {o : Host.Outcome State Fault Refusal} (hp : s.dev.powered = true) (h : d = e)
    (ho : o = .next (if s.dev.powered then { s with dev := d } else s)) : o = .next (s.put e) := by
  rw [ho, if_pos hp, h]
  rfl

/-- Settles O28: each row is one branch of its operation. -/
theorem uplinkLinksAndDiscards : Obligations.UplinkLinksAndDiscards := by
  refine ⟨fun s x hp hup => next_put hp (if_neg (by simp [hup])) rfl, fun s x hp hup => next_put hp (if_neg (by simp [hup])) rfl,
    fun s x hp hup => ⟨next_put hp (if_neg (by simp [hup])) rfl, next_put hp (if_neg (by simp [hup])) rfl⟩⟩

end Sys2Proof.Machine
end

section
/-! What a block soft reset clears (R409), and what it leaves. -/

namespace Sys2Proof.Machine

open Sys2Proof

/-! ### The registers that a soft reset may write -/

/-- A register that a soft reset may write: in a page from 3 on, past the header, or PG_IST or PG_FLT. -/
def clearable (k : Nat) : Bool := 3 ≤ k / 1024 && (16 ≤ k % 1024 || k % 1024 == 4 || k % 1024 == 7)

theorem clearable_iff (k : Nat) : clearable k = true ↔ 3 ≤ k / 1024 ∧ (16 ≤ k % 1024 ∨ k % 1024 = 4 ∨ k % 1024 = 7) := by
  simp [clearable, or_assoc]

theorem cleared_rkey {p off : Nat} (hp : 3 ≤ p) (hoff : 0x40 ≤ off) (hlt : off < 4096) : clearable (rkey p off) = true := by
  rw [clearable_iff, rkey]
  omega

theorem cleared_chc {c off : Nat} (hoff : 0x40 ≤ off) (hlt : off < 4096) : clearable (rkey (0x100 + 4 * c) off) = true :=
  cleared_rkey (by omega) hoff hlt

theorem cleared_chan {c j off : Nat} (hoff : 0x40 ≤ off) (hlt : off < 4096) : clearable (rkey (0x100 + 4 * c + j) off) = true :=
  cleared_rkey (by omega) hoff hlt

theorem ite_keeps {P : Dev → Prop} {p : Prop} [Decidable p] {d e : Dev} (hd : P d) (he : P e) : P (if p then d else e) := by
  split <;> assumption

section walk
variable {P : Dev → Prop} (hset : ∀ d k x, clearable k = true → P d → P (d.setW k x)) (hchan : ∀ d c f, P d → P (d.modChan c f))
  (hlive : ∀ d q n, 3 ≤ q → P d → P (clearLive d q n)) {d : Dev}
include hset

theorem clearW_keeps {l : List Nat} (hl : ∀ k ∈ l, clearable k = true) (hd : P d) : P (d.clearW l) := by
  induction l generalizing d with
  | nil => exact hd
  | cons k l ih => exact ih (fun j hj => hl j (.tail _ hj)) (hset _ _ _ (hl k (.head _)) hd)

theorem zero_keeps {l : List Fld} (hl : ∀ f ∈ l, clearable f.key = true) (hd : P d) : P (d.zero l) := by
  induction l generalizing d with
  | nil => exact hd
  | cons f l ih => exact ih (fun j hj => hl j (.tail _ hj)) (hset _ _ _ (hl f (.head _)) hd)

theorem set_keeps {f : Fld} {x : Nat} (hf : clearable f.key = true) (hd : P d) : P (d.set f x) := hset _ _ _ hf hd

include hchan hlive

theorem busOffEnd_keeps {c : Nat} (hd : P d) : P (busOffEnd d c) := by
  have hist : clearable (PG_IST (pCHS c)) = true := by
    simp only [clearable_iff, PG_IST, pCHS, rkey]
    omega
  unfold busOffEnd
  have hq : 3 ≤ pCHS c := by unfold pCHS; omega
  refine hlive _ _ _ hq (hlive _ _ _ hq (hchan _ _ _ (set_keeps hset ?_ (hset _ _ _ hist (set_keeps hset ?_ (set_keeps hset ?_
    (set_keeps hset ?_ (set_keeps hset ?_ (set_keeps hset ?_ hd)))))))))
  all_goals exact cleared_chan (by decide) (by decide)

/-- What is kept by writes of those registers, by updates of the channels and by the end of a condition, is kept by the clearing
of a channel page. -/
theorem clearChanPage_keeps {p : Nat} (hp : 0x100 ≤ p) (hd : P d) : P (clearBlock d p) := by
  unfold clearBlock
  rw [if_pos hp]
  extract_lets c d1
  split
  · exact set_keeps hset (cleared_chc (by decide) (by decide)) (clearW_keeps hset
      (by simp [CHC_BELLCNT, CHC_CURCNT, CHC_SLPCNT, CHC_WAKECNT, cleared_chc]) hd)
  · split
    · exact clearW_keeps hset (by simp [CHT_SENTCNT, CHT_ERRCNT, CHT_LOSTCNT, CHT_MISC, CHT_ENDCNT, cleared_chan]) hd
    · split
      · refine clearW_keeps hset ?_ hd
        rw [List.forall_mem_append]
        refine ⟨by simp [CHX_RXCNT, CHX_MATCH, CHX_MISSCNT, CHX_OVFCNT, CHX_REFCNT, CHX_LOSSCNT, CHX_AUTHCNT, CHX_AUTHSTAT,
          CHX_EPCNT, cleared_chan], List.forall_mem_map.mpr fun i hi => ?_⟩
        rw [List.mem_range] at hi
        exact cleared_chan (by omega) (by omega)
      · have h1 : P d1 := by
          refine zero_keeps hset ?_ (clearW_keeps hset
            (by simp [CHS_FCNT, CHS_ECNT0, CHS_ECNT1, CHS_ECNT2, CHS_ANOM, CHS_STUCK, cleared_chan]) hd)
          rw [List.forall_mem_cons]
          refine ⟨cleared_chan (by decide) (by decide), List.forall_mem_map.mpr fun i hi => ?_⟩
          rw [List.mem_range] at hi
          exact cleared_chan (by omega) (by omega)
        clear_value d1
        split
        · exact busOffEnd_keeps hset hchan hlive h1
        · exact zero_keeps hset (by simp [CHS_TEC_TEC, CHS_REC_REC, CHS_TEC_STATE, CHS_TEC_WARN, CHS_TEC, CHS_REC, cleared_chan]) h1

omit hchan hlive in
/-- The same of a page below the channels. -/
theorem clearSystemPage_keeps {p : Nat} (hp : ¬ 0x100 ≤ p) (hd : P d) : P (clearBlock d p) := by
  unfold clearBlock
  rw [if_neg hp]
  refine ite_keeps (set_keeps hset (cleared_rkey (by omega) (by decide) (by decide)) hd) ?_
  refine ite_keeps (set_keeps hset (cleared_rkey (by omega) (by decide) (by decide)) hd) ?_
  refine ite_keeps (set_keeps hset (cleared_rkey (p := 0x74 + 4 * ((p - 0x74) / 4)) (by omega) (by decide) (by decide))
    (clearW_keeps hset ?_ hd)) ?_
  · simp only [List.forall_mem_cons, UPL_DISC0, UPL_DISC1, UPL_DISC2, clearable_iff, rkey]
    refine ⟨by omega, by omega, by omega, nofun⟩
  refine ite_keeps (set_keeps hset rfl (clearW_keeps hset (by simp; decide) hd)) ?_
  refine ite_keeps (set_keeps hset rfl (clearW_keeps hset (by simp; decide) hd)) ?_
  refine ite_keeps (clearW_keeps hset ?_ hd) ?_
  · rw [List.forall_mem_singleton]
    exact cleared_rkey (p := 0x11 + (p - 0x11)) (by omega) (by decide) (by decide)
  refine ite_keeps (clearW_keeps hset (by simp; decide) hd) ?_
  refine ite_keeps (clearW_keeps hset (by simp; decide) hd) ?_
  refine ite_keeps (clearW_keeps hset (by simp; decide) hd) ?_
  refine ite_keeps (clearW_keeps hset (by simp; decide) hd) ?_
  refine ite_keeps (set_keeps hset rfl (set_keeps hset rfl hd)) ?_
  exact ite_keeps (set_keeps hset rfl hd) hd

/-- What is kept by writes of those registers, by updates of the channels and by the end of a condition, is kept by the clearing
of a block. -/
theorem clearBlock_keeps (p : Nat) (hd : P d) : P (clearBlock d p) := by
  by_cases hp : 0x100 ≤ p
  · exact clearChanPage_keeps hset hchan hlive hp hd
  · exact clearSystemPage_keeps hset hp hd

end walk

/-! ### What the clearing leaves -/

theorem clearLive_getW (d : Dev) {p n k : Nat} (hk : k ≠ PG_FLT p) : (clearLive d p n).getW k = d.getW k := condEnd_getW d hk

theorem clearBlock_getW (d : Dev) (p : Nat) {k : Nat} (hk : clearable k = false) : (clearBlock d p).getW k = d.getW k := by
  refine clearBlock_keeps (P := fun e => e.getW k = d.getW k) (fun e j x hj he => ?_) (fun e c f he => he)
    (fun e q n hq he => ?_) p rfl
  · rw [getW_setW_ne _ (fun h => by simp [h, hj] at hk), he]
  · rw [clearLive_getW, he]
    rintro rfl
    rw [← Bool.not_eq_true, clearable_iff, PG_FLT, rkey] at hk
    omega

theorem clearBlock_mem (d : Dev) (p : Nat) : (clearBlock d p).mem = d.mem :=
  clearBlock_keeps (P := fun e => e.mem = d.mem) (fun _ _ _ _ he => he) (fun _ _ _ he => he)
    (fun e q n _ he => (condEnd_mem e q n).trans he) p rfl

theorem clearBlock_aon (d : Dev) (p : Nat) : (clearBlock d p).aon = d.aon := by
  have hcore : (clearBlock d p).core = d.core := (faultStable_core d.core).clearBlock p rfl
  simp [core_fields hcore]

/-- What the reactions and shadows of a page rest on: all but the conditions present and the marks of R418. -/
def PageX.phase (x : PageX) : PageX :=
  { x with live := [], held := [], firstSrc := none, unclearedS := false, unclearedI := false, ackS := false, ackI := false }

/-- The end of a condition leaves the phase of every page. -/
theorem clearLive_phase (d : Dev) (p n q : Nat) : ((clearLive d p n).page q).phase = (d.page q).phase := by
  unfold clearLive
  split
  · extract_lets e
    have he : e.page q = d.page q := by unfold e; split <;> rfl
    by_cases hq : q = p
    · subst hq
      rw [page_modPage_same, he]
      rfl
    · rw [page_modPage_ne _ hq, he]
  · rfl

/-- The clearing leaves the phase of every page, and a page without a condition altogether. -/
theorem clearBlock_phase (d : Dev) (p q : Nat) : ((clearBlock d p).page q).phase = (d.page q).phase :=
  clearBlock_keeps (P := fun e => (e.page q).phase = (d.page q).phase) (fun _ _ _ _ he => he) (fun _ _ _ he => he)
    (fun e r n _ he => (clearLive_phase e r n q).trans he) p rfl

/-! ### The soft reset -/

/-- A shadow that does not end at once. -/
theorem openShadow_of_length {d : Dev} {p : Nat} (cov : Option Nat) (r : Bool) (h : d.get (PG_ESC_SHADOW p) ≠ 0) :
    openShadow d p cov r = d.modPage p fun x =>
      { x with shadow := some (match x.shadow with | some t => t | none => d.aon.cycles), shadowLast := d.aon.cycles,
               cover := (match cov with | some h => some h | none => x.cover), resetting := x.resetting || r } :=
  if_neg h

theorem clearable_pgEsc (p : Nat) : clearable (PG_ESC p) = false := by
  rw [← Bool.not_eq_true, clearable_iff, PG_ESC, rkey]
  omega

theorem clearable_pgCtl (p : Nat) : clearable (PG_CTL p) = false := by
  rw [← Bool.not_eq_true, clearable_iff, PG_CTL, rkey]
  omega

/-- A soft reset with a shadow of some length: registers that are not cleared stay, and the shadow is open. -/
theorem softReset_fields {d : Dev} {p : Nat} (h : d.get (PG_ESC_SHADOW p) ≠ 0) :
    (softReset d p).mem = d.mem ∧ (softReset d p).aon = d.aon
      ∧ (∀ k, clearable k = false → (softReset d p).getW k = d.getW k)
      ∧ ((softReset d p).page p).shadow = some (match (d.page p).shadow with | some t => t | none => d.aon.cycles)
      ∧ ((softReset d p).page p).shadowLast = d.aon.cycles ∧ ((softReset d p).page p).resetting = true
      ∧ ((softReset d p).page p).quietDue = (d.page p).quietDue ∧ ((softReset d p).page p).level = (d.page p).level
      ∧ ((softReset d p).page p).timer = (d.page p).timer := by
  have hlen : (clearBlock d p).get (PG_ESC_SHADOW p) ≠ 0 := by
    rwa [get_of_getW (clearBlock_getW d p (clearable_pgEsc p))]
  have hphase := clearBlock_phase d p p
  unfold PageX.phase at hphase
  simp only [PageX.mk.injEq] at hphase
  unfold softReset
  rw [openShadow_of_length _ _ hlen, page_modPage_same, clearBlock_aon]
  refine ⟨clearBlock_mem d p, clearBlock_aon d p, fun k hk => clearBlock_getW d p hk, ?_, rfl, Bool.or_true _, ?_, ?_, ?_⟩ <;>
    simp only [hphase]

end Sys2Proof.Machine
end

section
/-! The header registers: PG_CTL, PG_IFRC, PG_FFRC, PG_FACK (R7, R404, R409, R415). -/

namespace Sys2Proof.Machine

open Sys2Proof

/-! ### An admitted write of a header word -/

theorem header_write {s : State} {w : Who} {p off v : Nat} (ha : Admits s w 1 (regAddr p off) [v])
    (hp : populated s.dev.part p = true) (hoff : off < 0x40) (hrow : (rows_hdr.find? fun r => rowHolds r off).isSome = true) :
    regWrite s w (regAddr p off) v = .next (s.put (writeHeader s.otp s.dev p off v)) := by
  rw [regWrite_admitted ha hp (by omega) (by rwa [regRow_header _ _ hoff]) (by omega), writeReg_header _ _ _ _ _ _ hoff]

/-! ### PG_CTL -/

/-- The frozen words of the pages after FREEZE was written. -/
def frozenAfter (o : Otp) (d : Dev) (p : Nat) (on : Bool) : List (Nat × List (Nat × Word)) :=
  if on then (if d.get (PG_CTL_FREEZE p) = 1 then d.frozen
    else putKey p (snapshot o (d.setB (PG_CTL_FREEZE p) on) p) d.frozen)
  else delKey p d.frozen

theorem setFreeze_eq (o : Otp) (d : Dev) (p : Nat) (on : Bool) :
    setFreeze o d p on = { d.setB (PG_CTL_FREEZE p) on with frozen := frozenAfter o d p on } := by
  unfold setFreeze frozenAfter
  cases on
  · rfl
  · by_cases h : d.get (PG_CTL_FREEZE p) = 1
    · simp only [h, if_true]
      rfl
    · simp only [h, if_false, if_true]
      rfl

theorem setFreeze_getW (o : Otp) (d : Dev) (p : Nat) (on : Bool) :
    (setFreeze o d p on).getW = (d.setB (PG_CTL_FREEZE p) on).getW := by rw [setFreeze_eq]; rfl

theorem setFreeze_get (o : Otp) (d : Dev) (p : Nat) (on : Bool) (f : Fld) :
    (setFreeze o d p on).get f = (d.setB (PG_CTL_FREEZE p) on).get f := get_congr (setFreeze_getW o d p on) f

/-- EN rises on a channel (R105, R119), or is written with no further effect. -/
theorem setEnable_rise {d : Dev} {p : Nat} (h : d.get (PG_CTL_EN p) = 0) (hp : 0x100 ≤ p) (hc : p % 4 = 0) :
    setEnable d p true =
      (waitAfter (((d.setB (PG_CTL_EN p) true).set (CHC_CURSTAT_STATE (pageChan p)) 0).set (PG_CTL_EN p) 1) (pageChan p) 70000).modChan
        (pageChan p) (fun x => { x with call := false, commit := false }) := by
  unfold setEnable enablePage
  dsimp only
  rw [if_pos ⟨rfl, h, hp, hc⟩, if_pos ⟨hp, hc⟩]

theorem setEnable_plain {d : Dev} {p : Nat} {en : Bool} (h : ¬ (en = true ∧ d.get (PG_CTL_EN p) = 0 ∧ 0x100 ≤ p ∧ p % 4 = 0)) :
    setEnable d p en = d.setB (PG_CTL_EN p) en := if_neg h

theorem setEnable_same {d : Dev} {p : Nat} {en : Bool} (h : d.get (PG_CTL_EN p) = b2n en) :
    setEnable d p en = d.setB (PG_CTL_EN p) en := by
  refine setEnable_plain fun hc => ?_
  obtain ⟨rfl, h0, -⟩ := hc
  simp [h0, b2n] at h

theorem en_apart_freeze (p : Nat) : (PG_CTL_EN p).apart (PG_CTL_FREEZE p) = true := by
  simp [Fld.apart, PG_CTL_EN, PG_CTL_FREEZE]

theorem freeze_apart_en (p : Nat) : (PG_CTL_FREEZE p).apart (PG_CTL_EN p) = true := by
  simp [Fld.apart, PG_CTL_EN, PG_CTL_FREEZE]

theorem curstat_apart_freeze (c p : Nat) : (CHC_CURSTAT_STATE c).apart (PG_CTL_FREEZE p) = true := by
  simp [Fld.apart, CHC_CURSTAT_STATE, PG_CTL_FREEZE]

theorem en_apart_curstat (c p : Nat) : (PG_CTL_EN p).apart (CHC_CURSTAT_STATE c) = true := by
  simp [Fld.apart, CHC_CURSTAT_STATE, PG_CTL_EN]

/-- What a write of EN leaves. -/
theorem setEnable_fields (d : Dev) (p : Nat) (en : Bool) :
    (setEnable d p en).mem = d.mem ∧ (setEnable d p en).get (PG_CTL_EN p) = b2n en
      ∧ (setEnable d p en).get (PG_CTL_FREEZE p) = d.get (PG_CTL_FREEZE p)
      ∧ ∀ k, k ≠ PG_CTL p → k ≠ CHC_CURSTAT (pageChan p) → (setEnable d p en).getW k = d.getW k := by
  by_cases h : en = true ∧ d.get (PG_CTL_EN p) = 0 ∧ 0x100 ≤ p ∧ p % 4 = 0
  · obtain ⟨rfl, h0, hp, hc⟩ := h
    rw [setEnable_rise h0 hp hc, waitAfter]
    refine ⟨by simp, ?_, ?_, fun k hk hcur => ?_⟩
    · rw [get_modChan, get_modChan, get_set_same _ _ _ rfl]
      rfl
    · rw [get_modChan, get_modChan, get_set_apart _ _ _ _ rfl (en_apart_freeze p),
        get_set_apart _ _ _ _ rfl (curstat_apart_freeze _ p), Dev.setB, get_set_apart _ _ _ _ rfl (en_apart_freeze p)]
    · rw [getW_modChan, getW_modChan, getW_set_ne _ _ _ hk, getW_set_ne _ _ _ hcur, Dev.setB, getW_set_ne _ _ _ hk]
  · rw [setEnable_plain h]
    exact ⟨rfl, setB_get_same d rfl rfl en, get_set_apart _ _ _ _ rfl (en_apart_freeze p), fun k hk _ => getW_set_ne d _ _ hk⟩

theorem chan_modChan_modChan {d : Dev} {c : Nat} (f g : Chan → Chan) (h : c < d.chans.length) :
    ((d.modChan c f).modChan c g).chan c = g (f (d.chan c)) := by
  rw [chan_modChan_same _ _ _ (by rwa [modChan_length]), chan_modChan_same _ _ _ h]

/-- A channel that is enabled is AWAKE and waits under R105, after the 70 us of R119. -/
theorem setEnable_rise_chan {d : Dev} {p : Nat} (h : d.get (PG_CTL_EN p) = 0) (hp : 0x100 ≤ p) (hc : p % 4 = 0)
    (hlen : pageChan p < d.chans.length) :
    (setEnable d p true).get (CHC_CURSTAT_STATE (pageChan p)) = 0 ∧ ((setEnable d p true).chan (pageChan p)).await = true
      ∧ ((setEnable d p true).chan (pageChan p)).awaitNs = d.nowNs + 70000 := by
  rw [setEnable_rise h hp hc, waitAfter, get_modChan, get_modChan, chan_modChan_modChan]
  · refine ⟨?_, rfl, rfl⟩
    rw [get_set_apart _ _ _ _ rfl (en_apart_curstat _ p), get_set_same _ _ _ rfl]
    rfl
  · exact hlen

/-- The bits of the word that a command writes to PG_CTL. -/
theorem ctlWith_bits (d : Dev) (p i : Nat) (b : Bool) (j : Nat) :
    bitOf (ctlWith d p i b) j = if j = i then b else if j = 1 then false else d.bit (PG_CTL p) j := by
  rw [ctlWith, bitOf_putBit, bitOf_putBit, Dev.bit]

theorem get_en (d : Dev) (p : Nat) : d.get (PG_CTL_EN p) = b2n (d.bit (PG_CTL p) 0) := get_bit d rfl
theorem get_freeze (d : Dev) (p : Nat) : d.get (PG_CTL_FREEZE p) = b2n (d.bit (PG_CTL p) 2) := get_bit d rfl

/-- FREEZE written with the value it has. -/
theorem setFreeze_same_get (o : Otp) (d : Dev) (p : Nat) : (setFreeze o d p (d.bit (PG_CTL p) 2)).get (PG_CTL_FREEZE p)
    = d.get (PG_CTL_FREEZE p) := by
  rw [setFreeze_get, setB_get_same _ rfl rfl, get_freeze]

theorem setFreeze_get_en (o : Otp) (d : Dev) (p : Nat) (on : Bool) :
    (setFreeze o d p on).get (PG_CTL_EN p) = d.get (PG_CTL_EN p) := by
  rw [setFreeze_get, Dev.setB, get_set_apart _ _ _ _ rfl (freeze_apart_en p)]

theorem setFreeze_getW_ne (o : Otp) (d : Dev) {p k : Nat} (on : Bool) (hk : k ≠ PG_CTL p) :
    (setFreeze o d p on).getW k = d.getW k := by
  rw [setFreeze_getW, Dev.setB, getW_set_ne _ _ _ hk]

theorem writeHeader_ctl (o : Otp) (d : Dev) (p v : Nat) :
    writeHeader o d p 0x004 v =
      if bitOf v 1 then softReset (setEnable (setFreeze o d p (bitOf v 2)) p (bitOf v 0)) p
      else setEnable (setFreeze o d p (bitOf v 2)) p (bitOf v 0) := rfl

/-- BLOCK_ENABLE writes EN and leaves FREEZE. -/
theorem writeHeader_enable (o : Otp) (d : Dev) (p : Nat) (en : Bool) :
    writeHeader o d p 0x004 (ctlWith d p 0 en) = setEnable (setFreeze o d p (d.bit (PG_CTL p) 2)) p en := by
  rw [writeHeader_ctl, ctlWith_bits, ctlWith_bits, ctlWith_bits]
  rfl

/-- FREEZE writes FREEZE and leaves EN. -/
theorem writeHeader_freeze (o : Otp) (d : Dev) (p : Nat) (on : Bool) :
    writeHeader o d p 0x004 (ctlWith d p 2 on) = (setFreeze o d p on).setB (PG_CTL_EN p) (d.bit (PG_CTL p) 0) := by
  rw [writeHeader_ctl, ctlWith_bits, ctlWith_bits, ctlWith_bits]
  exact setEnable_same (by rw [setFreeze_get_en, get_en]; rfl)

/-- BLOCK_SOFT_RESET writes EN and FREEZE as they are, and resets the block. -/
theorem writeHeader_softReset (o : Otp) (d : Dev) (p : Nat) :
    writeHeader o d p 0x004 (ctlWith d p 1 true)
      = softReset ((setFreeze o d p (d.bit (PG_CTL p) 2)).setB (PG_CTL_EN p) (d.bit (PG_CTL p) 0)) p := by
  rw [writeHeader_ctl, ctlWith_bits, ctlWith_bits, ctlWith_bits]
  exact congrArg (softReset · p) (setEnable_same (by rw [setFreeze_get_en, get_en]; rfl))

/-- A read of a frozen page, bit by bit. -/
theorem viewW_frozen {o : Otp} {d : Dev} {p off i : Nat} {r : RegRow} {l : List (Nat × Word)} {w : Word} (hi : i < 32)
    (hl : findKey p d.frozen = some l) (hr : regRow p off = some r) (hw : findKey (rkey p off) l = some w) :
    bitOf (viewW o d p off) i =
      if bitOf (rowMask r (fun f => f.1 == .ro)) i = true then bitOf w.toNat i else bitOf (viewLive o d p off) i := by
  unfold viewW
  simp only [hl, hr, hw, bitOf_eq_testBit]
  exact testBit_blend _ _ _ hi

theorem writeHeader_enable_fields (o : Otp) (d : Dev) (p : Nat) (en : Bool) :
    let e := writeHeader o d p 0x004 (ctlWith d p 0 en)
    e.mem = d.mem ∧ e.get (PG_CTL_EN p) = b2n en ∧ e.get (PG_CTL_FREEZE p) = d.get (PG_CTL_FREEZE p)
      ∧ (∀ k, k ≠ PG_CTL p → k ≠ CHC_CURSTAT (pageChan p) → e.getW k = d.getW k)
      ∧ (en = true → d.get (PG_CTL_EN p) = 0 → 0x100 ≤ p → p % 4 = 0 → pageChan p < d.chans.length →
          e.get (CHC_CURSTAT_STATE (pageChan p)) = 0 ∧ (e.chan (pageChan p)).await = true
            ∧ (e.chan (pageChan p)).awaitNs = d.nowNs + 70000) := by
  rw [writeHeader_enable]
  have heq := setFreeze_eq o d p (d.bit (PG_CTL p) 2)
  have hsame := setFreeze_same_get o d p
  have hen := setFreeze_get_en o d p (d.bit (PG_CTL p) 2)
  have hne {k : Nat} (hk : k ≠ PG_CTL p) := setFreeze_getW_ne o d (d.bit (PG_CTL p) 2) hk
  generalize setFreeze o d p (d.bit (PG_CTL p) 2) = d1 at heq hsame hen hne
  obtain ⟨hmem, hget, hfreeze, hregs⟩ := setEnable_fields d1 p en
  refine ⟨hmem.trans (by rw [heq]; rfl), hget, hfreeze.trans hsame, fun k hk hc => (hregs k hk hc).trans (hne hk), ?_⟩
  rintro rfl h0 hpage hchc hlen
  obtain ⟨hcur, hawait, hns⟩ := setEnable_rise_chan (hen.trans h0) hpage hchc (by rw [heq]; exact hlen)
  exact ⟨hcur, hawait, hns.trans (by rw [heq]; rfl)⟩

theorem writeHeader_freeze_fields (o : Otp) (d : Dev) (p : Nat) (on : Bool) :
    let e := writeHeader o d p 0x004 (ctlWith d p 2 on)
    e.mem = d.mem ∧ e.chans = d.chans ∧ e.get (PG_CTL_FREEZE p) = b2n on ∧ e.get (PG_CTL_EN p) = d.get (PG_CTL_EN p)
      ∧ (∀ k, k ≠ PG_CTL p → e.getW k = d.getW k) ∧ e.frozen = frozenAfter o d p on := by
  rw [writeHeader_freeze]
  have heq := setFreeze_eq o d p on
  have hfreeze := setFreeze_get o d p on (PG_CTL_FREEZE p)
  have hne {k : Nat} (hk : k ≠ PG_CTL p) := setFreeze_getW_ne o d on hk
  generalize setFreeze o d p on = d1 at heq hfreeze hne
  refine ⟨by rw [setB_mem, heq]; rfl, by rw [setB_chans, heq]; rfl, ?_, ?_, fun k hk => ?_, by rw [setB_frozen, heq]⟩
  · rw [Dev.setB, get_set_apart _ _ _ _ rfl (en_apart_freeze p), hfreeze, setB_get_same _ rfl rfl]
  · rw [setB_get_same _ rfl rfl, get_en]
  · rw [Dev.setB, getW_set_ne _ _ _ hk, hne hk]

theorem writeHeader_softReset_fields (o : Otp) {d : Dev} {p : Nat} (hlen : d.get (PG_ESC_SHADOW p) ≠ 0) (hpage : d.page p = PageX.reset) :
    let e := writeHeader o d p 0x004 (ctlWith d p 1 true)
    e.mem = d.mem ∧ e.get (PG_CTL_EN p) = d.get (PG_CTL_EN p) ∧ (e.page p).shadow = some d.aon.cycles
      ∧ (e.page p).shadowLast = d.aon.cycles ∧ (e.page p).resetting = true ∧ e.running p = false := by
  rw [writeHeader_softReset]
  have heq := setFreeze_eq o d p (d.bit (PG_CTL p) 2)
  have hne {k : Nat} (hk : k ≠ PG_CTL p) := setFreeze_getW_ne o d (d.bit (PG_CTL p) 2) hk
  generalize setFreeze o d p (d.bit (PG_CTL p) 2) = d1 at heq hne
  have hesc : (PG_ESC_SHADOW p).key ≠ PG_CTL p := by simp [PG_ESC_SHADOW, PG_ESC, PG_CTL, rkey]
  have hlen2 : (d1.setB (PG_CTL_EN p) (d.bit (PG_CTL p) 0)).get (PG_ESC_SHADOW p) ≠ 0 := by
    rwa [Dev.setB, get_of_getW (getW_set_ne d1 _ _ hesc), get_of_getW (hne hesc)]
  have haon : d1.aon = d.aon := by rw [heq]; rfl
  have hpage1 : d1.page p = PageX.reset := by
    rw [← hpage, heq]
    rfl
  obtain ⟨hmem, -, hregs, hshadow, hlast, hresetting, -⟩ := softReset_fields hlen2
  rw [page_setB, hpage1, setB_aon, haon] at hshadow
  refine ⟨?_, ?_, hshadow, hlast.trans (by rw [setB_aon, haon]), hresetting, ?_⟩
  · rw [hmem, setB_mem, heq]
    rfl
  · rw [get_of_getW (hregs _ (clearable_pgCtl p)), setB_get_same _ rfl rfl, get_en]
  · simp [Dev.running, hshadow, hresetting]

/-- Settles O14: PG_CTL is FREEZE, then EN, then SRST; a frozen page is the blend of what was held. -/
theorem headerControlWrites : Obligations.HeaderControlWrites := by
  refine ⟨fun s w p en hp ha => ?_, fun s w p on hp ha => ?_, fun s w p hp ha hlen hpage => ?_,
    fun o d p off r l w i hi hl hr hw => viewW_frozen hi hl hr hw⟩
  · obtain ⟨hmem, hen, hfreeze, hregs, hchan⟩ := writeHeader_enable_fields s.otp s.dev p en
    exact ⟨_, header_write ha hp (by decide) (by decide), rfl, rfl, hmem, hen, hfreeze, hregs, hchan⟩
  · obtain ⟨hmem, hchans, hfreeze, hen, hregs, hfrozen⟩ := writeHeader_freeze_fields s.otp s.dev p on
    refine ⟨_, header_write ha hp (by decide) (by decide), rfl, rfl, hmem, hchans, hfreeze, hen, hregs, ?_, ?_⟩
    · rintro rfl
      exact (congrArg (findKey p) hfrozen).trans (findKey_delKey_same p _)
    · rintro rfl h0
      refine (congrArg (findKey p) hfrozen).trans ?_
      rw [frozenAfter, if_pos rfl, if_neg (by omega), findKey_putKey_same]
  · obtain ⟨hmem, hen, hshadow, hlast, hresetting, hrun⟩ := writeHeader_softReset_fields s.otp hlen hpage
    exact ⟨_, header_write ha hp (by decide) (by decide), rfl, rfl, hmem, hen, hshadow, hlast, hresetting, hrun⟩

end Sys2Proof.Machine
end

section
/-! The fault machinery: forced faults and acknowledgements, the escalation timer and its expiry, the ends of shadows, of quiet
periods and of pulses (R404, R407 to R413, R415, R417). -/

namespace Sys2Proof.Machine

open Sys2Proof

/-- A command whose operation leaves the part as it is. -/
theorem next_self {s : State} {d : Dev} {o : Host.Outcome State Fault Refusal} (h : d = s.dev)
    (ho : o = .next (if s.dev.powered then { s with dev := d } else s)) : o = .next s := by
  rw [ho, h]
  exact congrArg Host.Outcome.next (ite_self s)

/-! ### PG_IFRC, PG_FFRC, PG_FACK -/

theorem clearW_getW_ne {l : List Nat} {k : Nat} (hk : k ∉ l) (d : Dev) : (d.clearW l).getW k = d.getW k := by
  induction l generalizing d with
  | nil => rfl
  | cons j l ih =>
    rw [List.mem_cons, not_or] at hk
    exact (ih hk.2 _).trans (getW_setW_ne _ hk.1 _)

/-- A cleared register is at its reset word. -/
theorem clearW_getW_mem {l : List Nat} {k : Nat} (hk : k ∈ l) (d : Dev) : (d.clearW l).getW k = resetWord d.part k % 2 ^ 32 := by
  induction l generalizing d with
  | nil => cases hk
  | cons j l ih =>
    by_cases hl : k ∈ l
    · exact ih hl _
    · obtain rfl : k = j := (List.mem_cons.mp hk).resolve_right hl
      exact (clearW_getW_ne hl _).trans (getW_setW_same _ _ _)

theorem clearW_same {β : Type} (g : Dev → β) (hg : ∀ (d : Dev) (l : List (Nat × Word)), g { d with regs := l } = g d) (l : List Nat)
    (d : Dev) : g (d.clearW l) = g d := by
  induction l generalizing d with
  | nil => rfl
  | cons k l ih => exact (ih _).trans (hg d _)

/-- The page after an acknowledgement (R404, R408, R418). -/
def ackedPage (x : PageX) (p : Nat) : PageX :=
  health { x with timer := none, held := x.live, firstSrc := none, ackS := true, ackI := true } p

/-- The acknowledgement without the violation record of the gate page. -/
def ackHeader (d : Dev) (p : Nat) : Dev := ((d.setW (PG_FLT p) 0).setW (PG_FLTX p) 0).modPage p (ackedPage · p)

theorem ackPage_eq (d : Dev) (p : Nat) :
    ackPage d p = if p = 0x40 then (ackHeader d p).clearW [GATE_VADDR, GATE_VBYTE, GATE_VINFO] else ackHeader d p := rfl

theorem ackPage_same {β : Type} (g : Dev → β) (hg : ∀ (d : Dev) (l : List (Nat × Word)), g { d with regs := l } = g d) (d : Dev)
    (p : Nat) : g (ackPage d p) = g (ackHeader d p) := by
  rw [ackPage_eq]
  split
  · exact clearW_same g hg _ _
  · rfl

theorem ackHeader_getW (d : Dev) {p k : Nat} (hflt : k ≠ PG_FLT p) (hfltx : k ≠ PG_FLTX p) : (ackHeader d p).getW k = d.getW k := by
  rw [ackHeader, getW_modPage, getW_setW_ne _ hfltx, getW_setW_ne _ hflt]

theorem ackPage_getW {d : Dev} {p k : Nat} (hk : p = 0x40 → k ∉ [GATE_VADDR, GATE_VBYTE, GATE_VINFO]) :
    (ackPage d p).getW k = (ackHeader d p).getW k := by
  rw [ackPage_eq]
  split
  · next h => exact clearW_getW_ne (hk h) _
  · rfl

/-- The records that an acknowledgement clears are not those of the gate's violations. -/
theorem flt_notMem_gate (p : Nat) :
    PG_FLT p ∉ [GATE_VADDR, GATE_VBYTE, GATE_VINFO] ∧ PG_FLTX p ∉ [GATE_VADDR, GATE_VBYTE, GATE_VINFO] := by
  simp only [List.mem_cons, List.not_mem_nil, or_false, PG_FLT, PG_FLTX, GATE_VADDR, GATE_VBYTE, GATE_VINFO, rkey]
  omega

theorem ackPage_fields (d : Dev) (p : Nat) :
    (ackPage d p).mem = d.mem ∧ (ackPage d p).getW (PG_FLT p) = 0 ∧ (ackPage d p).getW (PG_FLTX p) = 0
      ∧ (ackPage d p).page p = ackedPage (d.page p) p ∧ ∀ q, q ≠ p → (ackPage d p).page q = d.page q := by
  obtain ⟨hflt, hfltx⟩ := flt_notMem_gate p
  refine ⟨ackPage_same Dev.mem (fun _ _ => rfl) d p, ?_, ?_, ?_, fun q hq => ?_⟩
  · rw [ackPage_getW fun _ => hflt, ackHeader, getW_modPage, getW_setW_ne _ (PG_FLTX_ne_PG_FLT p).symm, getW_setW_same,
      Nat.zero_mod]
  · rw [ackPage_getW fun _ => hfltx, ackHeader, getW_modPage, getW_setW_same, Nat.zero_mod]
  · rw [ackPage_same (Dev.page · p) (fun _ _ => rfl) d p, ackHeader, page_modPage_same]
    rfl
  · rw [ackPage_same (Dev.page · q) (fun _ _ => rfl) d p, ackHeader, page_modPage_ne _ hq]
    rfl

/-- Settles O15: each header word has one effect, and an acknowledgement of the gate page clears the violation's record too. -/
theorem headerForceAndAck : Obligations.HeaderForceAndAck := by
  refine ⟨fun s w p bits hp ha => header_write ha hp (by decide) (by decide),
    fun s w p bits hp ha => header_write ha hp (by decide) (by decide), fun s w p hp ha => ?_⟩
  obtain ⟨hmem, hflt, hfltx, hpage, hother⟩ := ackPage_fields s.dev p
  refine ⟨s.put (ackPage s.dev p), header_write ha hp (by decide) (by decide), rfl, rfl, hmem, hflt, hfltx, ?_, ?_, ?_, ?_, ?_, hother⟩
  · exact congrArg PageX.timer hpage
  · exact congrArg PageX.held hpage
  · exact (congrArg PageX.level hpage).trans rfl
  · rintro rfl
    refine ⟨?_, ?_, ?_⟩ <;> exact clearW_getW_mem (by decide) _
  · exact fun k hf hx hg => (ackPage_getW hg).trans (ackHeader_getW _ hf hx)

/-! ### The escalation timer (R407) -/

/-- A page after a fault of source `n`, whose own time ends at `own` (R407). -/
def timedPage (x : PageX) (n sev before own : Nat) : PageX :=
  match x.timer with
  | none => { x with timer := some own, timerSrc := n }
  | some t => if n = x.timerSrc then x else if before < sev then { x with timer := some (min t own), timerSrc := n } else x

theorem setTimer_page (d : Dev) (p n sev before : Nat) : (setTimer d p n sev before).page p
    = timedPage (d.page p) n sev before (d.aon.cycles + 500 * ownTime sev (d.get (PG_ESC_TIME p))) := by
  rw [Nat.mul_comm 500]
  exact page_modPage_same d p _

/-- Settles O17: the four cases of R407 are the branches of `setTimer`. -/
theorem escalationTimerRule : Obligations.EscalationTimerRule := by
  intro d p n sev before own e
  have he : e.page p = timedPage (d.page p) n sev before own := setTimer_page d p n sev before
  rw [he]
  unfold timedPage
  refine ⟨fun ht => ?_, fun t ht hn => ?_, fun t ht hn hlt => ?_, fun t ht hn hle => ?_, fun q hq => page_modPage_ne _ hq _, rfl, rfl⟩
  · simp only [ht, and_self]
  · simp only [ht, if_pos hn]
  · simp only [ht, if_neg hn, if_pos hlt, and_self]
  · simp only [ht, if_neg hn, if_neg (Nat.not_lt.mpr hle)]

/-! ### Expiry of the timer (R408, R409) -/

@[simp] theorem pass_page (d : Dev) (n p : Nat) : (d.pass n).page p = d.page p := rfl
@[simp] theorem pass_getW (d : Dev) (n k : Nat) : (d.pass n).getW k = d.getW k := rfl
@[simp] theorem pass_get (d : Dev) (n : Nat) (f : Fld) : (d.pass n).get f = d.get f := rfl

/-- A reaction or a recovery in DEV_ESCLAST, with its record (R416). -/
theorem fltEvent_fields (d : Dev) (p : Nat) {action : Nat} (h0 : action ≠ 0) :
    (fltEvent d p action).mem = d.mem ∧ (fltEvent d p action).aon = d.aon ∧ (fltEvent d p action).pages = d.pages
      ∧ (fltEvent d p action).get DEV_ESCLAST_ACTION = action % 16 ∧ (fltEvent d p action).get DEV_ESCLAST_PAGE = p % 512
      ∧ (∀ k, k ≠ DEV_ESCLAST → (fltEvent d p action).getW k = d.getW k) := by
  unfold fltEvent
  simp only [if_neg h0]
  refine ⟨rfl, rfl, rfl, ?_, ?_, fun k hk => ?_⟩
  · rw [get_set_apart _ _ _ _ rfl rfl, get_set_apart _ _ _ _ rfl rfl, get_set_same _ _ _ rfl]
    rfl
  · rw [get_set_apart _ _ _ _ rfl rfl, get_set_same _ _ _ rfl]
    rfl
  · rw [getW_set_ne _ _ _ hk, getW_set_ne _ _ _ hk, getW_set_ne _ _ _ hk]
    rfl

/-- The part of a reaction that all levels share (R409, R416, R417). -/
def reactStart (d : Dev) (p l : Nat) : Dev :=
  let d := d.modPage p (fun x => { x with level := l, timer := none, quiet := none })
  let d := pulse (fltEvent (d.ist 1 0) p l) (pinLevel (fltEvent (d.ist 1 0) p l) l)
  { d with cfg := { d.cfg with escSeen := d.cfg.escSeen || 2 ≤ l } }

/-- The reaction of level 1 is a block soft reset that a quiet period follows. -/
theorem react_one (rz : Dev → Nat → Nat → Dev) (d : Dev) (p cause : Nat) :
    react rz d p 1 cause = softReset (((reactStart d p 1).inc DEV_ESCCNT_L1).modPage p fun x => { x with quietDue := 1 }) p := rfl

theorem reactStart_fields (d : Dev) (p : Nat) {l : Nat} (h0 : l ≠ 0) :
    (reactStart d p l).mem = d.mem ∧ (reactStart d p l).aon = d.aon
      ∧ (reactStart d p l).page p = { d.page p with level := l, timer := none, quiet := none }
      ∧ (reactStart d p l).get DEV_ESCLAST_ACTION = l % 16 ∧ (reactStart d p l).get DEV_ESCLAST_PAGE = p % 512
      ∧ (∀ k, k ≠ DEV_ESCLAST → k ≠ PG_IST 1 → (reactStart d p l).getW k = d.getW k) := by
  obtain ⟨hmem, haon, hpages, haction, hpage, hregs⟩ :=
    fltEvent_fields ((d.modPage p fun x => { x with level := l, timer := none, quiet := none }).ist 1 0) p h0
  refine ⟨hmem, haon, ?_, haction, hpage, fun k hk hi => ?_⟩
  · refine Eq.trans ?_ (page_modPage_same d p fun x => { x with level := l, timer := none, quiet := none })
    exact congrArg (fun l => match findKey p l with | some x => x | none => PageX.reset) hpages
  · exact (hregs k hk).trans (getW_ist_ne _ hi)

/-- The expiry of a timer that runs. -/
theorem timerExpiry_some {d : Dev} {p n : Nat} (ht : (d.page p).timer = some n) :
    timerExpiry d p =
      (let e := (d.pass (n - d.aon.cycles)).modPage p fun x => { x with timer := none }
       if d.get (PG_ESC_LIMIT p) = 0 ∨ (d.page p).latched = true then e else react raise e p 1 0) := by
  unfold timerExpiry
  simp only [ht, get_modPage, page_modPage_same, pass_get, pass_page]

theorem timerExpiry_none {d : Dev} {p : Nat} (ht : (d.page p).timer = none) : timerExpiry d p = d := by
  unfold timerExpiry
  rw [ht]

/-- A page's escalation register is none of those that a reaction writes. -/
theorem pgEsc_apart (p : Nat) : PG_ESC p ≠ DEV_ESCLAST ∧ PG_ESC p ≠ PG_IST 1 ∧ PG_ESC p ≠ DEV_ESCCNT := by
  simp only [PG_ESC, DEV_ESCLAST, PG_IST, DEV_ESCCNT, rkey]
  omega

/-- The reaction of level 1 on a page without an open shadow. -/
theorem react_one_fields (rz : Dev → Nat → Nat → Dev) {d : Dev} {p : Nat} (cause : Nat) (hsh : (d.page p).shadow = none)
    (hlen : d.get (PG_ESC_SHADOW p) ≠ 0) :
    let e := react rz d p 1 cause
    e.mem = d.mem ∧ e.aon = d.aon ∧ (e.page p).timer = none ∧ (e.page p).level = 1 ∧ (e.page p).resetting = true
      ∧ (e.page p).shadow = some d.aon.cycles ∧ (e.page p).quietDue = 1
      ∧ e.get DEV_ESCCNT_L1 = min (d.get DEV_ESCCNT_L1 + 1) (fldTop DEV_ESCCNT_L1)
      ∧ e.get DEV_ESCLAST_ACTION = 1 ∧ e.get DEV_ESCLAST_PAGE = p % 512 := by
  obtain ⟨hlast, hist, hcnt⟩ := pgEsc_apart p
  obtain ⟨hmem, haon, hpage, haction, hescpage, hregs⟩ := reactStart_fields d p (l := 1) (by decide)
  rw [react_one]
  generalize reactStart d p 1 = r at hmem haon hpage haction hescpage hregs
  have hlen2 : ((r.inc DEV_ESCCNT_L1).modPage p fun x => { x with quietDue := 1 }).get (PG_ESC_SHADOW p) ≠ 0 := by
    rwa [get_modPage, get_of_getW (getW_inc_ne _ _ hcnt), get_of_getW (hregs _ hlast hist)]
  obtain ⟨gmem, gaon, gregs, gshadow, -, gresetting, gquiet, glevel, gtimer⟩ := softReset_fields hlen2
  rw [page_modPage_same, page_inc, hpage] at gshadow gquiet glevel gtimer
  rw [hsh, modPage_aon, inc_aon] at gshadow
  rw [modPage_aon, inc_aon] at gaon
  rw [modPage_mem, inc_mem] at gmem
  refine ⟨gmem.trans hmem, gaon.trans haon, gtimer, glevel, gresetting, gshadow.trans (by rw [haon]), gquiet, ?_, ?_, ?_⟩
  · rw [get_of_getW (gregs _ rfl), get_modPage, get_inc_same _ _ rfl, get_of_getW (hregs _ (by decide) (by decide))]
  · rw [get_of_getW (gregs _ rfl), get_modPage, get_inc_apart _ _ _ rfl rfl, haction]
  · rw [get_of_getW (gregs _ rfl), get_modPage, get_inc_apart _ _ _ rfl rfl, hescpage]

/-- Settles O18: a running timer that expires is the reaction of level 1, a soft reset whose shadow a quiet period follows. -/
theorem timerExpiryIsTheLevelOneReaction : Obligations.TimerExpiryIsTheLevelOneReaction := by
  refine ⟨fun s p n hp ht hlim hlat hsh hlen => ?_, fun s p ht => next_self (timerExpiry_none ht) rfl,
    fun s p n hp ht hlim => next_put hp ((timerExpiry_some ht).trans (if_pos (.inl hlim))) rfl⟩
  let e := (s.dev.pass (n - s.dev.aon.cycles)).modPage p fun x => { x with timer := none }
  have hpage : e.page p = { s.dev.page p with timer := none } := page_modPage_same _ _ _
  have hexec : exec (.escalationTimerExpiry p) s = .next (s.put (react raise e p 1 0)) :=
    next_put hp ((timerExpiry_some ht).trans (if_neg (by simp [hlim, hlat]))) rfl
  obtain ⟨hmem, haon, htimer, hlevel, hresetting, hshadow, hdue, hcnt, haction, hescpage⟩ :=
    react_one_fields raise (d := e) (p := p) 0 ((congrArg PageX.shadow hpage).trans hsh) hlen
  exact ⟨_, hexec, rfl, rfl, hmem, haon, htimer, hlevel, hresetting, hshadow.trans (congrArg (some ·.cycles) haon.symm), hdue, hcnt,
    haction, hescpage⟩

/-! ### The ends of shadows, quiet periods and pulses (R410 to R413, R417) -/

section assoc
variable {α : Type}

theorem delKey_of_findKey_none {k : Nat} {l : List (Nat × α)} (h : findKey k l = none) : delKey k l = l := by
  induction l with
  | nil => rfl
  | cons e l ih =>
    have hne : ¬ e.1 = k := fun c => by simp [findKey, c] at h
    rw [delKey, if_neg hne, ih (by simpa [findKey, hne] using h)]

theorem delKey_insKey {k : Nat} (a : α) {l : List (Nat × α)} (h : findKey k l = none) : delKey k (insKey k a l) = l := by
  induction l with
  | nil => simp [insKey, delKey]
  | cons e l ih =>
    have hne : ¬ e.1 = k := fun c => by simp [findKey, c] at h
    have hl : findKey k l = none := by simpa [findKey, hne] using h
    by_cases hlt : k < e.1
    · simp [insKey, hlt, delKey, hne, delKey_of_findKey_none hl]
    · simp [insKey, hlt, delKey, hne, ih hl]

/-- The second binding of a key replaces the first. -/
theorem setKey_setKey (gone gone' : Bool) (k : Nat) (a a' : α) (l : List (Nat × α)) :
    setKey gone' k a' (setKey gone k a l) = setKey gone' k a' l := by
  have hdel : delKey k (setKey gone k a l) = delKey k l := by
    rw [setKey_eq]
    split
    · exact delKey_of_findKey_none (findKey_delKey_same k l)
    · exact delKey_insKey a (findKey_delKey_same k l)
  rw [setKey_eq, setKey_eq gone', putKey, putKey, hdel]

end assoc

theorem setPage_setPage (d : Dev) (p : Nat) (x y : PageX) : (d.setPage p x).setPage p y = d.setPage p y := by
  simp only [Dev.setPage, setKey_setKey]

/-- The part at the end of a shadow (R410): the time has passed, and a CHC page waits under R119 after its own soft reset. -/
def shadowEnded (d : Dev) (p : Nat) : Dev :=
  let e := d.pass ((d.page p).shadowLast + 500 * d.get (PG_ESC_SHADOW p) - d.aon.cycles)
  if 0x100 ≤ p ∧ p % 4 = 0 ∧ (d.page p).resetting = true then
    e.modChan (pageChan p) (fun x => { x with await := true, awaitNs := e.nowNs + 70000 }) else e

theorem shadowEndOp_eq {d : Dev} {p n : Nat} (h : (d.page p).shadow = some n) :
    shadowEndOp d p =
      (let e := (shadowEnded d p).modPage p fun x => { x with shadow := none, resetting := false, cover := none }
       if (d.page p).quietDue = 1 then startQuiet e p else e) := by
  unfold shadowEndOp shadowDone shadowEnded
  rw [h, cyc, Nat.mul_comm]
  rfl

/-- What the end of a shadow leaves. -/
theorem shadowEnded_fields (d : Dev) (p : Nat) :
    (shadowEnded d p).page p = d.page p ∧ (shadowEnded d p).tick = d.tick ∧ ∀ f, (shadowEnded d p).get f = d.get f := by
  unfold shadowEnded
  split <;> exact ⟨rfl, rfl, fun _ => rfl⟩

/-- A quiet period of some ticks starts (R410). -/
theorem startQuiet_of_ticks {d : Dev} {p : Nat} (h : d.get (PG_QUIET_QUIET p) ≠ 0) :
    startQuiet d p = d.modPage p fun x => { x with quietDue := 0, quiet := some (d.tick + d.get (PG_QUIET_QUIET p)) } :=
  if_neg h

end Sys2Proof.Machine
end

section
/-! The ends of shadows, of quiet periods and of pulses, and the safe state (R410 to R413, R417, R420). -/

namespace Sys2Proof.Machine

open Sys2Proof

/-! ### Recovery at the end of a quiet period (R411, R413) -/

/-- The page's recovery count is none of the registers that a recovery writes beside it. -/
theorem pgRcnt_apart (p : Nat) : PG_RCNT p ≠ DEV_ESCLAST ∧ PG_RCNT p ≠ PG_IST 1 ∧ PG_RCNT p ≠ DEV_ESCCNT
    ∧ PG_QUIET p ≠ DEV_ESCLAST ∧ PG_QUIET p ≠ PG_RCNT p := by
  simp only [PG_RCNT, PG_QUIET, DEV_ESCLAST, PG_IST, DEV_ESCCNT, rkey]
  omega

/-- A page that recovers, before its count is compared with RLIM. -/
def recovered (d : Dev) (p : Nat) : Dev :=
  fltEvent ((d.modPage p fun x => { x with level := 0, quiet := none, quietDue := 0 }).inc (PG_RCNT_COUNT p)) p 4

theorem recover_eq {d : Dev} {p : Nat} (hp : p < 0x80 ∨ 0x90 ≤ p) :
    recover d p = if (recovered d p).get (PG_QUIET_RLIM p) < (recovered d p).get (PG_RCNT_COUNT p) then latchOff (recovered d p) p
      else recovered d p :=
  if_neg (by omega)

theorem page_of_pages {d e : Dev} {p : Nat} (h : e.pages = d.pages) : e.page p = d.page p := by
  rw [Dev.page, Dev.page, h]

theorem recovered_fields (d : Dev) (p : Nat) :
    (recovered d p).mem = d.mem ∧ (recovered d p).page p = { d.page p with level := 0, quiet := none, quietDue := 0 }
      ∧ (recovered d p).get (PG_RCNT_COUNT p) = min (d.get (PG_RCNT_COUNT p) + 1) 255
      ∧ (recovered d p).get (PG_QUIET_RLIM p) = d.get (PG_QUIET_RLIM p)
      ∧ (recovered d p).get DEV_ESCLAST_ACTION = 4 ∧ (recovered d p).get DEV_ESCLAST_PAGE = p % 512
      ∧ (∀ k, k ≠ PG_RCNT p → k ≠ DEV_ESCLAST → (recovered d p).getW k = d.getW k) := by
  obtain ⟨hlast, -, -, hqlast, hqr⟩ := pgRcnt_apart p
  obtain ⟨hmem, -, hpages, haction, hpage, hregs⟩ := fltEvent_fields
    ((d.modPage p fun x => { x with level := 0, quiet := none, quietDue := 0 }).inc (PG_RCNT_COUNT p)) p (action := 4) (by decide)
  refine ⟨?_, ?_, ?_, ?_, haction, hpage, fun k hk hl => ?_⟩
  · rw [recovered, hmem, inc_mem, modPage_mem]
  · rw [recovered, page_of_pages hpages, page_inc, page_modPage_same]
  · rw [recovered, get_of_getW (hregs _ hlast), get_inc_same _ _ rfl, get_modPage]
    rfl
  · rw [recovered, get_of_getW (hregs _ hqlast), get_of_getW (getW_inc_ne _ _ hqr), get_modPage]
  · rw [recovered, hregs _ hl, getW_inc_ne _ _ hk, getW_modPage]

/-- A page below the mills and above them latches off without isolating a hamlet. -/
theorem stranded_of_page (rz : Dev → Nat → Nat → Dev) {d : Dev} {p : Nat} (hp : p < 0x80 ∨ 0x90 ≤ p) : stranded rz d p = d :=
  if_neg (by omega)

theorem quietEnd_due {d : Dev} {p n : Nat} (hq : (d.page p).quiet = some n) (hn : n ≤ d.tick) (hp : p < 0x80 ∨ 0x90 ≤ p) :
    quietEnd d p = recover d p := by
  unfold quietEnd
  simp only [hq]
  rw [if_pos hn, stranded_of_page _ hp]

theorem quietEnd_early {d : Dev} {p n : Nat} (hq : (d.page p).quiet = some n) (hn : d.tick < n) : quietEnd d p = d := by
  unfold quietEnd
  simp only [hq]
  exact if_neg (by omega)

/-- The latch-off of a page, before the isolation of a channel. -/
def latched (d : Dev) (p : Nat) : Dev :=
  fltEvent (((d.modPage p fun x => { x with latched := true, timer := none, quiet := none, quietDue := 0 }).ist 1 1).inc
    DEV_ESCCNT_LATCH) p 5

theorem latchOff_eq {d : Dev} {p : Nat} (hp : p < 0x80 ∨ 0x90 ≤ p) :
    latchOff d p = if 0x100 ≤ p then (latched d p).modChan (pageChan p) (fun x => { x with isolated := true }) else latched d p := by
  unfold latchOff
  split
  · rfl
  · exact if_neg (by omega)

theorem latched_fields (d : Dev) (p : Nat) :
    (latched d p).mem = d.mem ∧ (latched d p).page p = { d.page p with latched := true, timer := none, quiet := none, quietDue := 0 }
      ∧ (latched d p).get (PG_RCNT_COUNT p) = d.get (PG_RCNT_COUNT p) ∧ (latched d p).bit (PG_IST 1) 1 = true
      ∧ (latched d p).get DEV_ESCLAST_ACTION = 5 := by
  obtain ⟨hlast, hist, hcnt, -, -⟩ := pgRcnt_apart p
  obtain ⟨hmem, -, hpages, haction, -, hregs⟩ := fltEvent_fields
    (((d.modPage p fun x => { x with latched := true, timer := none, quiet := none, quietDue := 0 }).ist 1 1).inc DEV_ESCCNT_LATCH)
    p (action := 5) (by decide)
  refine ⟨?_, ?_, ?_, ?_, haction⟩
  · rw [latched, hmem, inc_mem, ist_mem, modPage_mem]
  · rw [latched, page_of_pages hpages, page_inc, page_ist, page_modPage_same]
  · rw [latched, get_of_getW (hregs _ hlast), get_of_getW (getW_inc_ne _ _ hcnt), get_of_getW (getW_ist_ne _ hist), get_modPage]
  · rw [latched, Dev.bit, hregs _ (by decide), getW_inc_ne _ _ (by decide)]
    exact (bit_setBit _ (PG_IST 1) 1 1 true (by decide)).trans (if_pos rfl)

/-- The same of the latch-off as a whole. -/
theorem latchOff_fields {d : Dev} {p : Nat} (hp : p < 0x80 ∨ 0x90 ≤ p) :
    (latchOff d p).mem = d.mem ∧ (latchOff d p).page p = { d.page p with latched := true, timer := none, quiet := none, quietDue := 0 }
      ∧ (latchOff d p).get (PG_RCNT_COUNT p) = d.get (PG_RCNT_COUNT p) ∧ (latchOff d p).bit (PG_IST 1) 1 = true
      ∧ (latchOff d p).get DEV_ESCLAST_ACTION = 5 := by
  rw [latchOff_eq hp]
  split
  · exact latched_fields d p
  · exact latched_fields d p

/-- The end of a shadow with no quiet period due. -/
theorem shadowEndOp_not_due {d : Dev} {p n : Nat} (hsh : (d.page p).shadow = some n) (hdue : (d.page p).quietDue ≠ 1) :
    shadowEndOp d p = (shadowEnded d p).modPage p fun x => { x with shadow := none, resetting := false, cover := none } :=
  (shadowEndOp_eq hsh).trans (if_neg hdue)

/-- The end of a shadow with a quiet period due. -/
theorem shadowEndOp_due {d : Dev} {p n : Nat} (hsh : (d.page p).shadow = some n) (hdue : (d.page p).quietDue = 1)
    (hq : d.get (PG_QUIET_QUIET p) ≠ 0) :
    shadowEndOp d p = (shadowEnded d p).setPage p
      { d.page p with shadow := none, resetting := false, cover := none, quietDue := 0,
                      quiet := some (d.tick + d.get (PG_QUIET_QUIET p)) } := by
  obtain ⟨hpage, htick, hget⟩ := shadowEnded_fields d p
  have hq' : ((shadowEnded d p).modPage p fun x => { x with shadow := none, resetting := false, cover := none }).get
      (PG_QUIET_QUIET p) = d.get (PG_QUIET_QUIET p) := by
    rw [get_modPage, hget]
  have ht : ((shadowEnded d p).modPage p fun x => { x with shadow := none, resetting := false, cover := none }).tick = d.tick := by
    rw [← htick]
    rfl
  refine ((shadowEndOp_eq hsh).trans (if_pos hdue)).trans ?_
  rw [startQuiet_of_ticks (by rw [hq']; exact hq), hq', ht, Dev.modPage, page_modPage_same, Dev.modPage, setPage_setPage, hpage]

theorem exec_shadowEnd {s : State} {p : Nat} (hp : s.dev.powered = true) :
    exec (.shadowEnd p) s = .next (s.put (shadowEndOp s.dev p)) :=
  act_powered hp fun d => shadowEndOp d p

theorem exec_quietPeriodEnd {s : State} {p : Nat} (hp : s.dev.powered = true) :
    exec (.quietPeriodEnd p) s = .next (s.put (quietEnd s.dev p)) :=
  act_powered hp fun d => quietEnd d p

/-- The end of a quiet period within RLIM. -/
theorem quietEnd_recovered {d : Dev} {p n : Nat} (hq : (d.page p).quiet = some n) (hn : n ≤ d.tick) (hpg : p < 0x80 ∨ 0x90 ≤ p)
    (hlt : d.get (PG_RCNT_COUNT p) < d.get (PG_QUIET_RLIM p)) : quietEnd d p = recovered d p := by
  obtain ⟨-, -, hcnt, hrlim, -⟩ := recovered_fields d p
  rw [quietEnd_due hq hn hpg, recover_eq hpg, if_neg (by rw [hrlim, hcnt]; omega)]

/-- The end of a quiet period past RLIM. -/
theorem quietEnd_latches {d : Dev} {p n : Nat} (hq : (d.page p).quiet = some n) (hn : n ≤ d.tick) (hpg : p < 0x80 ∨ 0x90 ≤ p)
    (hle : d.get (PG_QUIET_RLIM p) ≤ d.get (PG_RCNT_COUNT p)) (hmax : d.get (PG_RCNT_COUNT p) < 255) :
    quietEnd d p = latchOff (recovered d p) p := by
  obtain ⟨-, -, hcnt, hrlim, -⟩ := recovered_fields d p
  rw [quietEnd_due hq hn hpg, recover_eq hpg, if_pos (by rw [hrlim, hcnt]; omega)]

theorem put_otp (s : State) (d : Dev) : (s.put d).otp = s.otp := by
  cases s
  rfl

theorem put_pending (s : State) (d : Dev) : (s.put d).pending = s.pending := by
  cases s
  rfl

/-- Settles O19: the end of a shadow is `shadowEnded` and the end of a quiet period `recovered`, with the latch-off past RLIM. -/
theorem shadowQuietAndPulseEnds : Obligations.ShadowQuietAndPulseEnds := by
  refine ⟨fun s p n hp hsh hdue => ?_, fun s p n hp hsh hdue hq => ?_, fun s p n hp hq hn hpg hlt => ?_,
    fun s p n hp hq hn hpg hle hmax => ?_, fun s p n hq hn => next_self (quietEnd_early hq hn) rfl,
    fun s k hp hk => next_put hp (if_pos hk) rfl, fun s k hk => next_self (if_neg (by simp [hk])) rfl⟩
  · rw [exec_shadowEnd hp, shadowEndOp_not_due hsh hdue]
    rfl
  · rw [exec_shadowEnd hp, shadowEndOp_due hsh hdue hq]
    rfl
  · obtain ⟨hmem, hpage, hcnt, hrlim, haction, hesc, hregs⟩ := recovered_fields s.dev p
    refine ⟨s.put (recovered s.dev p), ?_, put_otp s _, put_pending s _, hmem, hpage, hcnt, haction, hesc, hregs⟩
    rw [exec_quietPeriodEnd hp, quietEnd_recovered hq hn hpg hlt]
  · obtain ⟨hmem, hpage, hcnt, hrlim, -, -, -⟩ := recovered_fields s.dev p
    obtain ⟨gmem, gpage, gcnt, gist, gaction⟩ := latchOff_fields (d := recovered s.dev p) hpg
    refine ⟨s.put (latchOff (recovered s.dev p) p), ?_, put_otp s _, put_pending s _, gmem.trans hmem, congrArg PageX.latched gpage,
      congrArg PageX.quiet gpage, congrArg PageX.timer gpage, (gcnt.trans hcnt).trans (by omega), gist, gaction⟩
    rw [exec_quietPeriodEnd hp, quietEnd_latches hq hn hpg hle hmax]

end Sys2Proof.Machine
end

section
/-! Words and descriptors in memory, and the safe state (R288, R420). -/

namespace Sys2Proof.Machine

open Sys2Proof

/-! ### Words of memory -/

theorem natOf_bytesOf (x : Nat) : natOf (bytesOf x) = x % 2 ^ 32 := by
  simp only [natOf, bytesOf, List.foldl_cons, List.foldl_nil, BitVec.toNat_ofNat]
  omega

theorem bytesOf_length (x : Nat) : (bytesOf x).length = 4 := rfl

theorem desc_setDesc_same (d : Dev) (i j x : Nat) : (d.setDesc i j x).desc i j = x % 2 ^ 32 :=
  (congrArg natOf (getAll_putAll d.mem (16 * i + 4 * j) (bytesOf x))).trans (natOf_bytesOf x)

theorem getAll_congr {m m' : List Host.Cell} {a n : Nat} (h : ∀ x, a ≤ x → x < a + n → Memory.get m x = Memory.get m' x) :
    Memory.getAll m a n = Memory.getAll m' a n := by
  induction n generalizing a with
  | zero => rfl
  | succ n ih =>
    rw [Memory.getAll, Memory.getAll, h a (by omega) (by omega), ih fun x h1 h2 => h x (by omega) (by omega)]

theorem getAll_putAll_out {m : List Host.Cell} {a b n : Nat} {l : List Byte} (h : b + n ≤ a ∨ a + l.length ≤ b) :
    Memory.getAll (Memory.putAll m a l) b n = Memory.getAll m b n :=
  getAll_congr fun x h1 h2 => get_putAll_out m a l x (by omega)

theorem desc_setDesc_apart {d : Dev} {i j i' j' x : Nat} (hj : j < 4) (hj' : j' < 4) (h : i ≠ i' ∨ j ≠ j') :
    (d.setDesc i j x).desc i' j' = d.desc i' j' :=
  congrArg natOf (getAll_putAll_out (by rw [bytesOf_length]; omega))

theorem get_setDesc_out {d : Dev} {i j x a : Nat} (h : ¬ (16 * i + 4 * j ≤ a ∧ a < 16 * i + 4 * j + 4)) :
    Memory.get (d.setDesc i j x).mem a = Memory.get d.mem a :=
  get_putAll_out d.mem _ _ a (by rw [bytesOf_length]; omega)

theorem pushW3_status (d : Dev) (i : Nat) {st : Nat} (h : st < 16) : bitsOf (pushW3 d i st % 2 ^ 32) 31 28 = st := by
  have hcls := bitsOf_lt (d.desc i 0) 24 22
  have htick : d.tick16 < 65536 := Nat.mod_lt _ (by decide)
  simp only [pushW3]
  generalize bitsOf (d.desc i 0) 24 22 = cls at hcls ⊢
  simp only [bitsOf]
  omega

/-! ### A cause that ends curfew (R363, R367) -/

section
variable {β : Type} (g : Dev → β) (hr : ∀ (d : Dev) (r : List (Nat × Word)), g { d with regs := r } = g d)
  (hc : ∀ (d : Dev) (cs : List Chan), g { d with chans := cs } = g d)
include hr

theorem same_set (d : Dev) (f : Fld) (x : Nat) : g (d.set f x) = g d := hr d _
theorem same_inc (d : Dev) (f : Fld) : g (d.inc f) = g d := hr d _
theorem same_ist (d : Dev) (p i : Nat) : g (d.ist p i) = g d := hr d _

include hc

theorem curfewCause_same (d : Dev) (c n : Nat) : g (curfewCause d c n) = g d := by
  have hmod : ∀ (e : Dev) (f : Chan → Chan), g (e.modChan c f) = g e := fun e f => hc e _
  unfold curfewCause
  split
  · rw [hmod, same_set g hr, same_set g hr, same_ist g hr, same_inc g hr]
  · split
    · rw [hmod, same_set g hr, same_set g hr]
    · rfl

end

theorem curfewCause_getW {d : Dev} {c n k : Nat} (hcnt : k ≠ CHC_CURCNT c) (hist : k ≠ PG_IST (pCHC c)) (hst : k ≠ CHC_CURSTAT c) :
    (curfewCause d c n).getW k = d.getW k := by
  unfold curfewCause
  split
  · rw [getW_modChan, getW_set_ne _ _ _ hst, getW_set_ne _ _ _ hst, getW_ist_ne _ hist, getW_inc_ne _ _ hcnt]
  · split
    · rw [getW_modChan, getW_set_ne _ _ _ hst, getW_set_ne _ _ _ hst]
    · rfl

theorem curfewCause_awake {d : Dev} {c n : Nat} (h : d.get (CHC_CURSTAT_STATE c) = 0) : curfewCause d c n = d := by
  unfold curfewCause
  rw [if_neg (by omega), if_neg (by omega)]

theorem forEach_unchanged {α : Type} {l : List α} {f : Dev → α → Dev} {d : Dev} (h : ∀ x ∈ l, f d x = d) : d.forEach l f = d := by
  induction l with
  | nil => rfl
  | cons x xs ih =>
    show (f d x).forEach xs f = d
    rw [h x List.mem_cons_self, ih fun y hy => h y (List.mem_cons_of_mem _ hy)]

theorem mem_chanList {d : Dev} {c : Nat} : c ∈ d.chanList ↔ d.hasChan c = true := by
  simp [Dev.chanList, Dev.hasChan]

/-- No channel's curfew registers lie at `k`. -/
def OffCurfew (k : Nat) : Prop := ∀ c, k ≠ CHC_CURCNT c ∧ k ≠ PG_IST (pCHC c) ∧ k ≠ CHC_CURSTAT c

theorem offCurfew_system {p off : Nat} (hp : p < 0x100) (hoff : off < 4096) : OffCurfew (rkey p off) := by
  intro c
  simp only [CHC_CURCNT, PG_IST, pCHC, CHC_CURSTAT, rkey]
  omega

/-! ### A head that becomes a standby (R420 step 4, R453) -/

/-- The part with its role given up: standby with a linked partner, alone without. -/
def unheaded (d : Dev) : Dev := d.set TWIN_STAT_ROLE (if d.has TWIN_STAT_LINK then 2 else 0)

theorem releaseHead_eq (d : Dev) :
    releaseHead d = if d.isHead then (unheaded d).forEach (unheaded d).chanList fun d c => curfewCause d c 2 else unheaded d := rfl

theorem releaseHead_same {β : Type} (g : Dev → β) (hr : ∀ (d : Dev) (r : List (Nat × Word)), g { d with regs := r } = g d)
    (hc : ∀ (d : Dev) (cs : List Chan), g { d with chans := cs } = g d) (d : Dev) : g (releaseHead d) = g d := by
  have hunh : g (unheaded d) = g d := same_set g hr d _ _
  rw [releaseHead_eq]
  split
  · exact (forEach_same g _ _ (fun e c => curfewCause_same g hr hc e c 2) _).trans hunh
  · exact hunh

theorem releaseHead_getW {d : Dev} {k : Nat} (hk : OffCurfew k) : (releaseHead d).getW k = (unheaded d).getW k := by
  rw [releaseHead_eq]
  split
  · exact forEach_same (Dev.getW · k) _ _ (fun e c => curfewCause_getW (hk c).1 (hk c).2.1 (hk c).2.2) _
  · rfl

theorem curstat_ne_twinStat (c : Nat) : (CHC_CURSTAT_STATE c).key ≠ TWIN_STAT_ROLE.key := by
  simp only [CHC_CURSTAT_STATE, CHC_CURSTAT, TWIN_STAT_ROLE, TWIN_STAT, rkey]
  omega

theorem unheaded_curstat (d : Dev) (c : Nat) : (unheaded d).get (CHC_CURSTAT_STATE c) = d.get (CHC_CURSTAT_STATE c) :=
  get_of_getW (getW_set_ne d _ _ (curstat_ne_twinStat c))

theorem releaseHead_chans {d : Dev} (h : ∀ c, d.hasChan c = true → d.get (CHC_CURSTAT_STATE c) = 0) :
    (releaseHead d).chans = d.chans := by
  rw [releaseHead_eq]
  split
  · have hid : ∀ c ∈ (unheaded d).chanList, curfewCause (unheaded d) c 2 = unheaded d := fun c hc =>
      curfewCause_awake ((unheaded_curstat d c).trans (h c (mem_chanList.mp hc)))
    rw [forEach_unchanged hid]
    rfl
  · rfl

/-! ### The safe state (R420) -/

theorem enterSafe_idle (rz : Dev → Nat → Nat → Dev) {d : Dev} {p : Nat} (ha : d.get DEV_SAFE_ACTIVE ≠ 1)
    (h : ∀ c, d.hasChan c = true → (d.chan c).tx = [] ∧ d.get (CHT_SAFE_CNT c) = 0) :
    enterSafe rz d p = ((d.setW DEV_SAFE (2 ^ 31 + p * 2 ^ 16 + d.tick16)).ist 1 2).inc DEV_ESCCNT_L3 := by
  have hcnt : ∀ c, (CHT_SAFE_CNT c).key ≠ DEV_ESCCNT_L3.key ∧ (CHT_SAFE_CNT c).key ≠ PG_IST 1 ∧ (CHT_SAFE_CNT c).key ≠ DEV_SAFE := by
    intro c
    simp only [CHT_SAFE_CNT, CHT_SAFE, DEV_ESCCNT_L3, DEV_ESCCNT, PG_IST, DEV_SAFE, rkey]
    omega
  rw [enterSafe, if_neg ha]
  simp only
  rw [forEach_unchanged (f := abortAllOf), forEach_unchanged]
  · intro c hc
    obtain ⟨hl3, hist, hsafe⟩ := hcnt c
    have hget : (((d.setW DEV_SAFE (2 ^ 31 + p * 2 ^ 16 + d.tick16)).ist 1 2).inc DEV_ESCCNT_L3).get (CHT_SAFE_CNT c) = 0 := by
      rw [get_of_getW (getW_inc_ne _ _ hl3), get_of_getW (getW_ist_ne _ hist), get_of_getW (getW_setW_ne _ hsafe _)]
      exact (h c (mem_chanList.mp hc)).2
    rw [safePush, hget]
    rfl
  · intro c hc
    have htx : ((((d.setW DEV_SAFE (2 ^ 31 + p * 2 ^ 16 + d.tick16)).ist 1 2).inc DEV_ESCCNT_L3).chan c).tx = [] :=
      (h c (mem_chanList.mp hc)).1
    rw [abortAllOf, htx]
    rfl

theorem curstat_ne_twinCnt (c : Nat) : (CHC_CURSTAT_STATE c).key ≠ TWIN_CNT_ABDICATIONS.key := by
  simp only [CHC_CURSTAT_STATE, CHC_CURSTAT, TWIN_CNT_ABDICATIONS, TWIN_CNT, rkey]
  omega

theorem curstat_ne_twinIst (c : Nat) : (CHC_CURSTAT_STATE c).key ≠ PG_IST 0x70 := by
  simp only [CHC_CURSTAT_STATE, CHC_CURSTAT, PG_IST, rkey]
  omega

/-- What a head that hands over sends and counts, before it gives headship up. -/
def handedOver (d : Dev) : Dev := ((twinSend d .abdicateFrame).inc TWIN_CNT_ABDICATIONS).ist 0x70 1

theorem handedOver_getW {d : Dev} {k : Nat} (hcnt : k ≠ TWIN_CNT_ABDICATIONS.key) (hist : k ≠ PG_IST 0x70) :
    (handedOver d).getW k = d.getW k := by
  rw [handedOver, getW_ist_ne _ hist, getW_inc_ne _ _ hcnt]
  rfl

theorem handedOver_count (d : Dev) :
    (handedOver d).get TWIN_CNT_ABDICATIONS = min (d.get TWIN_CNT_ABDICATIONS + 1) (fldTop TWIN_CNT_ABDICATIONS) := by
  rw [handedOver, get_of_getW (getW_ist_ne _ (by decide)), get_inc_same _ _ (by decide)]
  rfl

theorem handedOver_ist (d : Dev) : (handedOver d).bit (PG_IST 0x70) 1 = true :=
  (bit_setBit _ (PG_IST 0x70) 1 1 true (by decide)).trans (if_pos rfl)

/-- The head that has handed over, with the abdication of the safe state noted. -/
def abdicated (d : Dev) : Dev := (releaseHead (handedOver d)).set DEV_SAFE_ABD 1

theorem abdicated_getW {d : Dev} {p off : Nat} (hl : d.get TWIN_STAT_LINK = 1) (hp : p < 0x100) (hoff : off < 4096)
    (hne : rkey p off ≠ DEV_SAFE) : (abdicated d).getW (rkey p off) = ((handedOver d).set TWIN_STAT_ROLE 2).getW (rkey p off) := by
  have hlink : (handedOver d).get TWIN_STAT_LINK = 1 := (get_of_getW (handedOver_getW (by decide) (by decide))).trans hl
  have hhas : (handedOver d).has TWIN_STAT_LINK = true := by simp [Dev.has, hlink]
  rw [abdicated, getW_set_ne _ _ _ hne, releaseHead_getW (offCurfew_system hp hoff), unheaded, hhas]
  rfl

theorem abdicated_safe (d : Dev) : (releaseHead (handedOver d)).getW DEV_SAFE = d.getW DEV_SAFE := by
  rw [releaseHead_getW (k := DEV_SAFE) (offCurfew_system (p := 1) (by decide) (by decide)), unheaded, getW_set_ne _ _ _ (by decide),
    handedOver_getW (by decide) (by decide)]

theorem abdicated_fields {d : Dev} (ha : d.get DEV_SAFE_ACTIVE = 1) (hl : d.get TWIN_STAT_LINK = 1) :
    (abdicated d).mem = d.mem ∧ (abdicated d).get TWIN_STAT_ROLE = 2 ∧ (abdicated d).isHead = false
      ∧ (abdicated d).get DEV_SAFE_ABD = 1 ∧ (abdicated d).get DEV_SAFE_ACTIVE = 1
      ∧ (abdicated d).get TWIN_CNT_ABDICATIONS = min (d.get TWIN_CNT_ABDICATIONS + 1) (fldTop TWIN_CNT_ABDICATIONS)
      ∧ (abdicated d).bit (PG_IST 0x70) 1 = true ∧ (abdicated d).out = d.out ++ [.twin d.twin.seq .abdicateFrame]
      ∧ ((∀ c, d.hasChan c = true → d.get (CHC_CURSTAT_STATE c) = 0) → (abdicated d).chans = d.chans) := by
  have hrole : (abdicated d).get TWIN_STAT_ROLE = 2 := by
    rw [get_of_getW (abdicated_getW hl (p := 0x70) (by decide) (by decide) (by decide)), get_set_same _ _ _ (by decide)]
    rfl
  refine ⟨?_, hrole, by rw [Dev.isHead, hrole]; rfl, ?_, ?_, ?_, ?_, ?_, fun hcur => ?_⟩
  · rw [abdicated, set_mem, releaseHead_same Dev.mem (fun _ _ => rfl) (fun _ _ => rfl) (handedOver d), handedOver, ist_mem, inc_mem, twinSend,
      emit_mem, modTwin_mem]
  · rw [abdicated, get_set_same _ _ _ (by decide)]
    rfl
  · rw [abdicated, get_set_apart _ _ _ _ (by decide) (by decide), get_of_getW (f := DEV_SAFE_ACTIVE) (abdicated_safe d), ha]
  · rw [get_of_getW (abdicated_getW hl (p := 0x70) (by decide) (by decide) (by decide)),
      get_of_getW (getW_set_ne _ _ _ (by decide)), handedOver_count]
  · rw [Dev.bit, PG_IST, abdicated_getW hl (by decide) (by decide) (by decide), getW_set_ne _ _ _ (by decide)]
    exact handedOver_ist d
  · rw [abdicated, set_out, releaseHead_same Dev.out (fun _ _ => rfl) (fun _ _ => rfl) (handedOver d), handedOver, ist_out, inc_out, twinSend]
    rfl
  · rw [abdicated, set_chans, releaseHead_chans, handedOver, ist_chans, inc_chans, twinSend, emit_chans, modTwin_chans]
    intro c hc
    rw [get_of_getW (handedOver_getW (curstat_ne_twinCnt c) (curstat_ne_twinIst c))]
    exact hcur c hc

theorem safeAbdication_eq {d : Dev} (ha : d.get DEV_SAFE_ACTIVE = 1) (hb : d.get DEV_SAFE_ABD = 0) (hh : d.isHead = true)
    (hl : d.get TWIN_STAT_LINK = 1) (hr : d.get TWIN_STAT_PREADY = 1)
    (ht : 2 ≤ (d.tick16 + 65536 - d.get DEV_SAFE_TICK) % 65536) :
    safeAbdication d = abdicated d :=
  if_pos ⟨ha, hb, hh, by simp [linked, hl], hr, .inr ht⟩

/-- Settles O20. -/
theorem safeStateEntryRefusalAndAbdication : Obligations.SafeStateEntryRefusalAndAbdication := by
  refine ⟨fun d p ha h => enterSafe_idle raise ha h, fun d p ha => if_pos ha, fun s hp ha hb hh hl hr ht => ?_,
    fun d c i src ha hs hk hr => ?_⟩
  · refine ⟨s.put (abdicated s.dev), next_put hp (safeAbdication_eq ha hb hh hl hr ht) rfl, put_otp s _, put_pending s _, ?_⟩
    exact abdicated_fields ha hl
  · have hv : pushVerdict d c i src = .held := if_pos (.inl ⟨ha, hs, hk⟩)
    have he : pushOp raise d c i src = d.setDesc i 3 (pushW3 d i 9) := by
      unfold pushOp
      rw [hv]
      exact if_pos hr
    rw [he]
    refine ⟨rfl, rfl, rfl, ?_, fun a ha => get_setDesc_out (by omega)⟩
    rw [desc_setDesc_same, pushW3_status d i (by decide)]

end Sys2Proof.Machine
end

section
/-! Requests of the uplink register transport: arrival, answers, requests that fail, events (R46 to R56). -/

namespace Sys2Proof.Machine

open Sys2Proof

/-! ### What MACsec takes (R271) -/

theorem saTake_fields {x y : Sess} {u an pn : Nat} (h : saTake x u an pn = some y) :
    y.st = x.st ∧ y.queue = x.queue ∧ y.unack = x.unack := by
  unfold saTake at h
  simp only at h
  split at h
  · obtain ⟨-, h⟩ := Option.ite_none_right_eq_some.mp h
    obtain rfl := Option.some.inj h
    exact ⟨rfl, rfl, rfl⟩
  · split at h
    · obtain ⟨-, h⟩ := Option.ite_none_right_eq_some.mp h
      obtain rfl := Option.some.inj h
      exact ⟨rfl, rfl, rfl⟩
    · split at h
      · obtain ⟨-, h⟩ := Option.ite_none_right_eq_some.mp h
        obtain rfl := Option.some.inj h
        exact ⟨rfl, rfl, rfl⟩
      · cases h

theorem ses_of_length_le {d : Dev} {n : Nat} (h : d.sess.length ≤ n) : d.ses n = Sess.reset := by
  unfold Dev.ses
  generalize d.sess = l at h
  induction l generalizing n with
  | nil => rfl
  | cons x l ih =>
    cases n with
    | zero => simp at h
    | succ n => exact ih (by simpa using h)

/-- A message that MACsec takes changes no session but that of its association. -/
theorem macsecTake_fields {d e : Dev} {u : UrtHdr} (h : macsecTake d u = some e) :
    e = { d with sess := e.sess } ∧ (∀ n, u.assoc ≠ some n → e.ses n = d.ses n) 
      ∧ (∀ n, (e.ses n).st = (d.ses n).st ∧ (e.ses n).queue = (d.ses n).queue ∧ (e.ses n).unack = (d.ses n).unack)
      ∧ e.sess.length = d.sess.length := by
  unfold macsecTake at h
  cases ha : u.assoc with
  | none =>
    rw [ha] at h
    obtain rfl := Option.some.inj h
    exact ⟨rfl, fun _ _ => rfl, fun _ => ⟨rfl, rfl, rfl⟩, rfl⟩
  | some m =>
    simp only [ha] at h
    by_cases hfree : (d.ses m).st = .free
    · rw [if_pos hfree] at h
      obtain rfl := Option.some.inj h
      exact ⟨rfl, fun _ _ => rfl, fun _ => ⟨rfl, rfl, rfl⟩, rfl⟩
    · rw [if_neg hfree] at h
      obtain ⟨x, hx, rfl⟩ := Option.map_eq_some_iff.mp h
      have hm : m < d.sess.length := Nat.lt_of_not_le fun hle => hfree (by rw [ses_of_length_le hle]; rfl)
      refine ⟨rfl, fun n hn => ses_setSes_ne d (fun he => hn (by rw [he])) x, fun n => ?_, length_putAt _ _ _⟩
      by_cases hn : n = m
      · rw [hn, ses_setSes_same _ _ _ hm]
        exact saTake_fields hx
      · rw [ses_setSes_ne _ hn]
        exact ⟨rfl, rfl, rfl⟩

/-! ### A message that is taken (R46, R56, R269) -/

/-- The part with a message noted that MACsec has taken. -/
def noted (d : Dev) (u : UrtHdr) : Dev := noteCopy d u.mac u.prp

/-- The part with a valid message counted. -/
def counted (d : Dev) (u : UrtHdr) : Dev := { noted d u with lastMsg := d.aon.cycles }.inc (UPL_RXCNT_COUNT u.side.num)

theorem urtArrive_of_take {d e : Dev} {u : UrtHdr} (hup : d.upOk u.side.num = true) (he : macsecTake d u = some e) :
    urtArrive d u = if firstCopy e u.mac u.prp = false then (discard e u.side.num (UPL_DISC1_DUP u.side.num), false)
      else if urtValid (noted e u) u = false then (discard (noted e u) u.side.num (UPL_DISC1_URT u.side.num), false)
      else (markLive (counted e u) u.sess, true) := by
  unfold urtArrive
  simp only [hup, he]
  rfl

theorem firstCopy_of_take {d e : Dev} {u : UrtHdr} (he : macsecTake d u = some e) (mac prp : Nat) :
    firstCopy e mac prp = firstCopy d mac prp := by
  rw [(macsecTake_fields he).1]
  rfl

theorem urtValid_of_take {d e : Dev} {u : UrtHdr} (he : macsecTake d u = some e) : urtValid (noted e u) u = urtValid d u := by
  have hst : ((noted e u).ses u.sess).st = (d.ses u.sess).st := ((macsecTake_fields he).2.2.1 u.sess).1
  unfold urtValid
  rw [hst]

theorem urtArrive_taken {d e : Dev} {u : UrtHdr} (hup : d.upOk u.side.num = true) (he : macsecTake d u = some e)
    (hf : firstCopy d u.mac u.prp = true) (hv : urtValid d u = true) : urtArrive d u = (markLive (counted e u) u.sess, true) := by
  rw [urtArrive_of_take hup he, firstCopy_of_take he, hf, urtValid_of_take he, hv]
  rfl

/-- The part with a session counted as opened by its first message. -/
def openedCount (d : Dev) (n : Nat) : Dev := if (d.ses n).st = .accepted then (d.ist 0x28 0).inc PEN_CNT_OPENED else d

theorem markLive_eq (d : Dev) (n : Nat) :
    markLive d n = (openedCount d n).modSes n fun x => { x with st := .opened, live := true } := rfl

theorem openedCount_same {β : Type} (g : Dev → β) (hr : ∀ (d : Dev) (r : List (Nat × Word)), g { d with regs := r } = g d)
    (d : Dev) (n : Nat) : g (openedCount d n) = g d := by
  unfold openedCount
  split
  · rw [same_inc g hr, same_ist g hr]
  · rfl

theorem markLive_same {β : Type} (g : Dev → β) (hr : ∀ (d : Dev) (r : List (Nat × Word)), g { d with regs := r } = g d)
    (hs : ∀ (d : Dev) (ss : List Sess), g { d with sess := ss } = g d) (d : Dev) (n : Nat) : g (markLive d n) = g d :=
  (hs _ _).trans (openedCount_same g hr d n)

theorem markLive_getW {d : Dev} {n k : Nat} (hist : k ≠ PG_IST 0x28) (hcnt : k ≠ PEN_CNT) : (markLive d n).getW k = d.getW k := by
  rw [markLive_eq, getW_modSes]
  unfold openedCount
  split
  · rw [getW_inc_ne _ _ hcnt, getW_ist_ne _ hist]
  · rfl

theorem modSes_ses_same {d : Dev} {n : Nat} (f : Sess → Sess) (h : n < d.sess.length) : (d.modSes n f).ses n = f (d.ses n) :=
  ses_setSes_same d n _ h

theorem modSes_ses_ne {d : Dev} {m n : Nat} (f : Sess → Sess) (h : m ≠ n) : (d.modSes n f).ses m = d.ses m := ses_setSes_ne d h _

theorem markLive_ses_same {d : Dev} {n : Nat} (h : n < d.sess.length) :
    (markLive d n).ses n = { d.ses n with st := .opened, live := true } := by
  have hlen : (openedCount d n).sess.length = d.sess.length := openedCount_same (fun e => e.sess.length) (fun _ _ => rfl) d n
  have hses : (openedCount d n).ses n = d.ses n := openedCount_same (fun e => e.ses n) (fun _ _ => rfl) d n
  rw [markLive_eq, modSes_ses_same _ (by omega), hses]

theorem markLive_ses_ne {d : Dev} {m n : Nat} (h : m ≠ n) : (markLive d n).ses m = d.ses m := by
  rw [markLive_eq, modSes_ses_ne _ h]
  exact openedCount_same (fun e => e.ses m) (fun _ _ => rfl) d n

theorem counted_getW {d : Dev} {u : UrtHdr} {k : Nat} (h : k ≠ UPL_RXCNT u.side.num) : (counted d u).getW k = d.getW k :=
  getW_inc_ne _ _ h

theorem urtValid_assoc {d : Dev} {u : UrtHdr} (hv : urtValid d u = true) : u.assoc = some u.sess := by
  simp only [urtValid, Bool.and_eq_true, beq_iff_eq] at hv
  exact hv.1.1.1

theorem firstCopy_noted (d : Dev) (mac prp : Nat) : firstCopy (noteCopy d mac prp) mac prp = false := by
  simp [firstCopy, noteCopy, dupCycles]

/-- A valid message, field by field. -/
theorem urtArrive_fields {d e : Dev} {u : UrtHdr} (he : macsecTake d u = some e) (hv : urtValid d u = true)
    (hlt : u.sess < d.sess.length) :
    let r := markLive (counted e u) u.sess
    (r.ses u.sess).st = .opened ∧ (r.ses u.sess).live = true ∧ (∀ n, n ≠ u.sess → r.ses n = d.ses n)
      ∧ firstCopy r u.mac u.prp = false ∧ r.lastMsg = d.aon.cycles ∧ r.out = d.out ∧ r.mem = d.mem ∧ r.pages = d.pages
      ∧ r.chans = d.chans
      ∧ (∀ k, k ∉ [UPL_RXCNT 0, UPL_RXCNT 1, PG_IST 0x28, PEN_CNT] → r.getW k = d.getW k) := by
  obtain ⟨hd, hses, -, hlen⟩ := macsecTake_fields he
  have hn : u.sess < (counted e u).sess.length := by rw [← hlen] at hlt; exact hlt
  have hlive := markLive_ses_same hn
  refine ⟨by rw [hlive], by rw [hlive], fun n hne => ?_, ?_, ?_, ?_, ?_, ?_, ?_, fun k hk => ?_⟩
  · rw [markLive_ses_ne hne]
    exact hses n fun h => hne (Option.some.inj (h.symm.trans (urtValid_assoc hv)))
  · rw [markLive_same (firstCopy · u.mac u.prp) (fun _ _ => rfl) (fun _ _ => rfl)]
    exact firstCopy_noted e u.mac u.prp
  · rw [markLive_same Dev.lastMsg (fun _ _ => rfl) (fun _ _ => rfl), hd]
    rfl
  · rw [markLive_same Dev.out (fun _ _ => rfl) (fun _ _ => rfl), hd]
    rfl
  · rw [markLive_same Dev.mem (fun _ _ => rfl) (fun _ _ => rfl), hd]
    rfl
  · rw [markLive_same Dev.pages (fun _ _ => rfl) (fun _ _ => rfl), hd]
    rfl
  · rw [markLive_same Dev.chans (fun _ _ => rfl) (fun _ _ => rfl), hd]
    rfl
  · simp only [List.mem_cons, List.not_mem_nil, or_false, not_or] at hk
    obtain ⟨hrx0, hrx1, hist, hcnt⟩ := hk
    have hrx : k ≠ UPL_RXCNT u.side.num := by cases u.side <;> assumption
    rw [markLive_getW hist hcnt, counted_getW hrx, hd]
    rfl

/-! ### A request as a command -/

theorem urtMessage_discarded {s : State} {m : HeldUrt} {d : Dev} (h : urtArrive s.dev m.u = (d, false)) : urtMessage s m = s.put d := by
  unfold urtMessage
  rw [h]
  rfl

theorem vigstat_kept {d e : Dev} {u : UrtHdr} (he : macsecTake d u = some e) :
    (markLive (counted e u) u.sess).get DEV_VIGSTAT_STATE = d.get DEV_VIGSTAT_STATE := by
  have hrx : DEV_VIGSTAT_STATE.key ≠ UPL_RXCNT u.side.num := by cases u.side <;> decide
  refine get_of_getW ?_
  rw [markLive_getW (by decide) (by decide), counted_getW hrx, (macsecTake_fields he).1]
  rfl

theorem urtArrive_urtTaken {s : State} {u : UrtHdr} (h : UrtTaken s u) :
    ∃ e, macsecTake s.dev u = some e ∧ urtArrive s.dev u = (markLive (counted e u) u.sess, true) := by
  obtain ⟨-, -, hup, he, hf, hv⟩ := h
  obtain ⟨e, he⟩ := Option.isSome_iff_exists.mp he
  exact ⟨e, he, urtArrive_taken hup he hf hv⟩

theorem urtMessage_taken {s : State} {m : HeldUrt} (h : UrtTaken s m.u) :
    urtMessage s m = urtRun (s.put (urtArrive s.dev m.u).1) m := by
  obtain ⟨e, he, ha⟩ := urtArrive_urtTaken h
  obtain ⟨-, hvig, -⟩ := h
  unfold urtMessage
  rw [ha]
  exact (if_neg (show ¬ true = false by decide)).trans (if_neg (by rw [vigstat_kept he]; exact hvig))

/-- A request that is taken, as a command. -/
theorem next_urt {s : State} {m : HeldUrt} {o : Host.Outcome State Fault Refusal} (h : UrtTaken s m.u)
    (ho : o = actAll s (urtMessage · m)) : o = .next (urtRun (s.put (urtArrive s.dev m.u).1) m) := by
  rw [ho, actAll_powered h.1, urtMessage_taken h]

/-- A request that is discarded, as a command. -/
theorem next_discarded {s : State} {m : HeldUrt} {d : Dev} {o : Host.Outcome State Fault Refusal} (hp : s.dev.powered = true)
    (h : urtArrive s.dev m.u = (d, false)) (ho : o = actAll s (urtMessage · m)) : o = .next (s.put d) := by
  rw [ho, actAll_powered hp, urtMessage_discarded h]

theorem urtArrive_refused {d : Dev} {u : UrtHdr} (hup : d.upOk u.side.num = true) (he : macsecTake d u = none) :
    urtArrive d u = (discard d u.side.num (UPL_DISC0_MACSEC u.side.num), false) := by
  unfold urtArrive
  simp only [hup, he]
  rfl

theorem urtArrive_duplicate {d e : Dev} {u : UrtHdr} (hup : d.upOk u.side.num = true) (he : macsecTake d u = some e)
    (hf : firstCopy d u.mac u.prp = false) : urtArrive d u = (discard e u.side.num (UPL_DISC1_DUP u.side.num), false) := by
  rw [urtArrive_of_take hup he, firstCopy_of_take he, hf]
  rfl

theorem urtArrive_invalid {d e : Dev} {u : UrtHdr} (hup : d.upOk u.side.num = true) (he : macsecTake d u = some e)
    (hf : firstCopy d u.mac u.prp = true) (hv : urtValid d u = false) :
    urtArrive d u = (discard (noted e u) u.side.num (UPL_DISC1_URT u.side.num), false) := by
  rw [urtArrive_of_take hup he, firstCopy_of_take he, hf, urtValid_of_take he, hv]
  rfl

theorem urtValid_false {d : Dev} {u : UrtHdr} (h : u.assoc ≠ some u.sess ∨ u.ver ≠ 1 ∨ (d.ses u.sess).st = .free) :
    urtValid d u = false := by
  unfold urtValid
  rcases h with h | h | h <;> simp [h]

theorem disc1_ne_ist (x : Side) : (UPL_DISC1_URT x.num).key ≠ PG_IST (pUPL x.num) := by
  simp only [UPL_DISC1_URT, UPL_DISC1, PG_IST, pUPL, rkey]
  omega

/-- Settles O21. -/
theorem validMessagesOnlyAreTaken : Obligations.ValidMessagesOnlyAreTaken := by
  refine ⟨fun d u hup he hf hv hlt => ?_, fun s u d hp hup he hf => next_discarded (m := ⟨u, opPing, 0, []⟩) hp (urtArrive_duplicate hup he hf) rfl,
    fun s u hp hup he => next_discarded (m := ⟨u, opPing, 0, []⟩) hp (urtArrive_refused hup he) rfl, fun s u d hp hup he hf hbad => ?_⟩
  · obtain ⟨e, he⟩ := Option.isSome_iff_exists.mp he
    rw [urtArrive_taken hup he hf hv]
    exact ⟨rfl, urtArrive_fields he hv hlt⟩
  · obtain ⟨hd, -⟩ := macsecTake_fields he
    have hw : ∀ k, (noted d u).getW k = s.dev.getW k := fun k => by
      rw [hd]
      rfl
    refine ⟨s.put (discard (noted d u) u.side.num (UPL_DISC1_URT u.side.num)),
      next_discarded (m := ⟨u, opPing, 0, []⟩) hp (urtArrive_invalid hup he hf (urtValid_false hbad)) rfl, put_otp s _, put_pending s _, ?_, rfl, ?_, ?_, ?_,
      fun k hcnt hist => ?_⟩
    · rw [hd]
      rfl
    · rw [hd]
      rfl
    · refine (get_of_getW (getW_ist_ne _ (disc1_ne_ist u.side))).trans ?_
      rw [get_inc_same _ _ rfl, get_of_getW (hw _)]
    · exact (bit_setBit _ _ 2 2 true (by decide)).trans (if_pos rfl)
    · exact (getW_ist_ne _ hist).trans ((getW_inc_ne _ _ hcnt).trans (hw k))

end Sys2Proof.Machine
end

section
/-! Requests that fail before any access, refused accesses, pings, acknowledgements and events (R46 to R56, R431, R439). -/

namespace Sys2Proof.Machine

open Sys2Proof

/-! ### The operations of URT (R48) -/

section operations
variable (s : State) (u : UrtHdr) (a : Nat) (l : List Word)

theorem urtRun_read : urtRun s ⟨u, opRead, a, l⟩ = urtRead s u opRead a 1 := if_pos rfl
theorem urtRun_bread : urtRun s ⟨u, opBread, a, l⟩ = urtRead s u opBread a u.count := by
  simp [urtRun, opRead, opBread]
theorem urtRun_write : urtRun s ⟨u, opWrite, a, l⟩ = urtWrite s u opWrite a (l.map BitVec.toNat) := by
  simp [urtRun, opRead, opBread, opWrite]
theorem urtRun_bwrite : urtRun s ⟨u, opBwrite, a, l⟩ = urtWrite s u opBwrite a (l.map BitVec.toNat) := by
  simp [urtRun, opRead, opBread, opWrite, opBwrite]
theorem urtRun_evack : urtRun s ⟨u, opEvack, a, l⟩ = s.put (urtEvack s.dev u a) := by
  simp [urtRun, opRead, opBread, opWrite, opBwrite, opEvack, State.put]
theorem urtRun_ping : urtRun s ⟨u, opPing, a, l⟩ = s.put (urtPing s.dev u a) := by
  simp [urtRun, opRead, opBread, opWrite, opBwrite, opEvack, opPing, State.put]

variable {op : Nat}

theorem urtRun_unknown (h : op ∉ [opRead, opWrite, opBread, opBwrite, opEvack, opPing]) :
    urtRun s ⟨u, op, a, l⟩ = s.put (respond s.dev u op 4 a []) := by
  simp only [List.mem_cons, List.not_mem_nil, or_false, not_or] at h
  obtain ⟨hr, hw, hbr, hbw, he, hp⟩ := h
  unfold urtRun
  simp only
  rw [if_neg hr, if_neg hbr, if_neg (not_or.mpr ⟨hw, hbw⟩), if_neg he, if_neg hp]
  rfl

theorem urtRead_count (h : u.count ≠ 0) : urtRead s u opRead a 1 = s.put (respond s.dev u opRead 4 a []) := if_pos ⟨rfl, h⟩

theorem urtRead_range (h : badRange 0 a u.count = true) :
    urtRead s u opBread a u.count = s.put (respond s.dev u opBread 3 a []) :=
  (if_neg fun h => absurd h.1 (by decide)).trans (if_pos ⟨rfl, h⟩)

theorem urtWrite_count {data : List Nat} (h : (op = opWrite ∧ u.count ≠ 1) ∨ u.count ≠ data.length) :
    urtWrite s u op a data = s.put (respond s.dev u op 4 a []) := if_pos h

end operations

/-- Settles O26. -/
theorem badCountsAndUnknownOperations : Obligations.BadCountsAndUnknownOperations := by
  refine ⟨fun s u op h hop => ?_, fun s u op hop => ?_, fun s u a h hc => ?_, fun s u a v h hc => ?_, fun s u a l h hc => ?_,
    fun s u a h hr => ?_⟩
  · have hno : ¬ (op = opRead ∨ op = opWrite ∨ op = opBread ∨ op = opBwrite ∨ op = opEvack ∨ op = opPing) := by
      simpa only [opRead, opWrite, opBread, opBwrite, opEvack, opPing, List.mem_cons, List.not_mem_nil, or_false] using hop
    have he : exec (.unknownOp u op) s = actAll s (urtMessage · ⟨u, op, 0, []⟩) :=
      congrArg (actAll s) (funext fun _ => if_neg hno)
    rw [next_urt (m := ⟨u, op, 0, []⟩) h he, urtRun_unknown _ _ _ _ (by simpa using hno)]
    rfl
  · have hyes : op = opRead ∨ op = opWrite ∨ op = opBread ∨ op = opBwrite ∨ op = opEvack ∨ op = opPing := by
      simpa only [opRead, opWrite, opBread, opBwrite, opEvack, opPing, List.mem_cons, List.not_mem_nil, or_false] using hop
    have he : exec (.unknownOp u op) s = actAll s id := congrArg (actAll s) (funext fun _ => if_pos hyes)
    rw [he]
    exact congrArg Host.Outcome.next (ite_self s)
  · refine (next_urt (m := ⟨u, opRead, a, []⟩) h rfl).trans ?_
    rw [urtRun_read, urtRead_count _ _ _ hc]
    rfl
  · refine (next_urt (m := ⟨u, opWrite, a, [v]⟩) h rfl).trans ?_
    rw [urtRun_write, urtWrite_count _ _ _ (.inl ⟨rfl, hc⟩)]
    rfl
  · refine (next_urt (m := ⟨u, opBwrite, a, l⟩) h rfl).trans ?_
    rw [urtRun_bwrite, urtWrite_count _ _ _ (.inr (by simpa using hc))]
    rfl
  · refine (next_urt (m := ⟨u, opBread, a, []⟩) h rfl).trans ?_
    rw [urtRun_bread, urtRead_range _ _ _ hr]
    rfl

/-! ### Refused accesses (R431, R432) -/

theorem refusalStatus_eq (reason : Nat) : refusalStatus reason = if reason = 1 ∨ reason = 9 then 2 else 1 := rfl

theorem refusalStatus_ne_zero (reason : Nat) : refusalStatus reason ≠ 0 := by
  rw [refusalStatus_eq]
  split <;> decide

theorem accessRead_refused {s : State} {w : Who} {a n reason byte : Nat} (hh : heldByDrain s.dev a (4 * n) = false)
    (hg : gateCheck s.dev w 0 a (4 * n) [] = some (reason, byte)) :
    accessRead s w a n = (s.put (violation s.dev w 0 a byte reason), refusalStatus reason, []) := by
  unfold accessRead
  simp only [settle_of_free hh, hg]
  rfl

theorem gatedWrite_refused {s : State} {w : Who} {a reason byte : Nat} {vals : List Nat} (f : State → State)
    (hh : heldByDrain s.dev a (4 * vals.length) = false)
    (hg : gateCheck s.dev w 1 a (4 * vals.length) vals = some (reason, byte)) :
    gatedWrite s w a vals f = (s.put (violation s.dev w 1 a byte reason), refusalStatus reason) := by
  unfold gatedWrite
  simp only [settle_of_free hh, hg]
  rfl

theorem urtRead_refused {s : State} {u : UrtHdr} {a reason byte : Nat} (hc : u.count = 0) (hh : heldByDrain s.dev a 4 = false)
    (hg : gateCheck s.dev (.session u.sess) 0 a 4 [] = some (reason, byte)) :
    urtRead s u opRead a 1 = s.put (respond (violation s.dev (.session u.sess) 0 a byte reason) u opRead (refusalStatus reason) a []) := by
  unfold urtRead
  rw [if_neg fun h => h.2 hc, if_neg fun h => absurd h.1 (by decide), accessRead_refused (n := 1) hh hg]
  rfl

theorem urtWrite_refused {s : State} {u : UrtHdr} {a v reason byte : Nat} (hc : u.count = 1) (hh : heldByDrain s.dev a 4 = false)
    (hg : gateCheck s.dev (.session u.sess) 1 a 4 [v] = some (reason, byte)) :
    urtWrite s u opWrite a [v]
      = s.put (respond (violation s.dev (.session u.sess) 1 a byte reason) u opWrite (refusalStatus reason) a []) := by
  unfold urtWrite
  rw [if_neg (by simp [hc]), if_neg fun h => absurd h.1 (by decide)]
  simp only
  rw [accessWrite, gatedWrite_refused (vals := [v]) _ hh hg]
  simp only [refusalStatus_ne_zero, false_and, if_false, State.put]

/-! ### The record of a violation (R439) -/

/-- The words of the record, when it is free. -/
def recordedViolation (d : Dev) (w : Who) (ty addr byte reason : Nat) : Dev :=
  if d.get GATE_VINFO_VALID = 0 then
    ((d.setW GATE_VADDR addr).setW GATE_VBYTE byte).setW GATE_VINFO
      (2 ^ 31 + whoKind w * 2 ^ 28 + whoNum w * 2 ^ 24 + Priv.code (d.whoPriv w) * 2 ^ 22 + ty * 2 ^ 20
        + reason * 2 ^ 16 + gateNo byte * 2 ^ 12 + d.get GATE_GEN_GEN % 256)
  else d

theorem violate_unraised (d : Dev) (w : Who) (ty addr byte reason : Nat) :
    violate (fun d _ _ => d) d w ty addr byte reason
      = (recordedViolation (d.inc GATE_VCNT_COUNT) w ty addr byte reason).ist 0x40 0 := rfl

theorem recordedViolation_getW {d : Dev} {w : Who} {ty addr byte reason k : Nat} (h : k ∉ [GATE_VADDR, GATE_VBYTE, GATE_VINFO]) :
    (recordedViolation d w ty addr byte reason).getW k = d.getW k := by
  simp only [List.mem_cons, List.not_mem_nil, or_false, not_or] at h
  obtain ⟨ha, hb, hi⟩ := h
  unfold recordedViolation
  split
  · rw [getW_setW_ne _ hi, getW_setW_ne _ hb, getW_setW_ne _ ha]
  · rfl

theorem whoKind_lt (w : Who) : whoKind w < 8 := by cases w <;> simp [whoKind]

theorem privCode_lt (p : Priv) : Priv.code p < 4 := by cases p <;> decide

/-- The fields of GATE_VINFO as they are packed. -/
theorem vinfo_fields {kind num priv ty reason gate gen x : Nat} (hkind : kind < 8) (hnum : num < 16) (hpriv : priv < 4) (hty : ty < 4)
    (hreason : reason < 16) (hgate : gate < 16) (hgen : gen < 256)
    (hx : x = 2 ^ 31 + kind * 2 ^ 28 + num * 2 ^ 24 + priv * 2 ^ 22 + ty * 2 ^ 20 + reason * 2 ^ 16 + gate * 2 ^ 12 + gen) :
    bitsOf (x % 2 ^ 32) 31 31 = 1 ∧ bitsOf (x % 2 ^ 32) 30 28 = kind ∧ bitsOf (x % 2 ^ 32) 19 16 = reason
      ∧ bitsOf (x % 2 ^ 32) 15 12 = gate := by
  subst hx
  simp only [bitsOf]
  omega

theorem gateNo_lt (a : Nat) : gateNo a < 16 := by
  unfold gateNo
  split
  · omega
  · repeat' split
    all_goals decide

theorem recordedViolation_valid {d : Dev} {w : Who} {ty addr byte reason : Nat} (hty : ty < 3) (hr : reason < 16) (hw : whoNum w < 16)
    (h : d.get GATE_VINFO_VALID = 0) :
    let e := recordedViolation d w ty addr byte reason
    e.get GATE_VINFO_VALID = 1 ∧ e.getW GATE_VADDR = addr % 2 ^ 32 ∧ e.getW GATE_VBYTE = byte % 2 ^ 32
      ∧ e.get GATE_VINFO_REASON = reason ∧ e.get GATE_VINFO_KIND = whoKind w ∧ e.get GATE_VINFO_GATE = gateNo byte := by
  simp only
  rw [recordedViolation, if_pos h]
  obtain ⟨hvalid, hkind, hreason, hgate⟩ := vinfo_fields (whoKind_lt w) hw (privCode_lt (d.whoPriv w)) (show ty < 4 by omega) hr
    (gateNo_lt byte) (Nat.mod_lt (d.get GATE_GEN_GEN) (show 0 < 256 by decide)) rfl
  refine ⟨?_, ?_, ?_, ?_, ?_, ?_⟩
  · rw [Dev.get]
    exact (congrArg (bitsOf · 31 31) (getW_setW_same _ GATE_VINFO _)).trans hvalid
  · rw [getW_setW_ne _ (by decide), getW_setW_ne _ (by decide), getW_setW_same]
  · rw [getW_setW_ne _ (by decide), getW_setW_same]
  · rw [Dev.get]
    exact (congrArg (bitsOf · 19 16) (getW_setW_same _ GATE_VINFO _)).trans hreason
  · rw [Dev.get]
    exact (congrArg (bitsOf · 30 28) (getW_setW_same _ GATE_VINFO _)).trans hkind
  · rw [Dev.get]
    exact (congrArg (bitsOf · 15 12) (getW_setW_same _ GATE_VINFO _)).trans hgate

theorem recordedViolation_mem (d : Dev) (w : Who) (ty addr byte reason : Nat) :
    (recordedViolation d w ty addr byte reason).mem = d.mem := by
  unfold recordedViolation
  split
  · rw [setW_mem, setW_mem, setW_mem]
  · rfl

theorem violate_fields {d : Dev} {w : Who} {ty addr byte reason : Nat} (hty : ty < 3) (hr : reason < 16) (hw : whoNum w < 16) :
    let e := (recordedViolation (d.inc GATE_VCNT_COUNT) w ty addr byte reason).ist 0x40 0
    e.get GATE_VCNT_COUNT = min (d.get GATE_VCNT_COUNT + 1) (fldTop GATE_VCNT_COUNT) ∧ e.bit (PG_IST 0x40) 0 = true
      ∧ (d.get GATE_VINFO_VALID = 0 → e.get GATE_VINFO_VALID = 1 ∧ e.getW GATE_VADDR = addr % 2 ^ 32
          ∧ e.getW GATE_VBYTE = byte % 2 ^ 32 ∧ e.get GATE_VINFO_REASON = reason ∧ e.get GATE_VINFO_KIND = whoKind w
          ∧ e.get GATE_VINFO_GATE = gateNo byte)
      ∧ (d.get GATE_VINFO_VALID ≠ 0 → e.getW GATE_VADDR = d.getW GATE_VADDR ∧ e.getW GATE_VBYTE = d.getW GATE_VBYTE
          ∧ e.getW GATE_VINFO = d.getW GATE_VINFO)
      ∧ (∀ k, k ∉ [GATE_VCNT, GATE_VADDR, GATE_VBYTE, GATE_VINFO, PG_IST 0x40] → e.getW k = d.getW k) ∧ e.mem = d.mem := by
  have hinfo : (d.inc GATE_VCNT_COUNT).get GATE_VINFO_VALID = d.get GATE_VINFO_VALID := get_of_getW (getW_inc_ne _ _ (by decide))
  refine ⟨?_, ?_, fun hv => ?_, fun hv => ?_, fun k hk => ?_, ?_⟩
  · rw [get_of_getW (getW_ist_ne _ (by decide)), get_of_getW (recordedViolation_getW (by decide)), get_inc_same _ _ (by decide)]
  · exact (bit_setBit _ (PG_IST 0x40) 0 0 true (by decide)).trans (if_pos rfl)
  · obtain ⟨hvalid, haddr, hbyte, hreason, hkind, hgate⟩ :=
      recordedViolation_valid (addr := addr) (byte := byte) hty hr hw (hinfo.trans hv)
    refine ⟨?_, ?_, ?_, ?_, ?_, ?_⟩
    · rw [get_of_getW (getW_ist_ne _ (by decide)), hvalid]
    · rw [getW_ist_ne _ (by decide), haddr]
    · rw [getW_ist_ne _ (by decide), hbyte]
    · rw [get_of_getW (getW_ist_ne _ (by decide)), hreason]
    · rw [get_of_getW (getW_ist_ne _ (by decide)), hkind]
    · rw [get_of_getW (getW_ist_ne _ (by decide)), hgate]
  · have hkeep : recordedViolation (d.inc GATE_VCNT_COUNT) w ty addr byte reason = d.inc GATE_VCNT_COUNT :=
      if_neg (by rw [hinfo]; exact hv)
    rw [hkeep]
    refine ⟨?_, ?_, ?_⟩
    · rw [getW_ist_ne _ (by decide), getW_inc_ne _ _ (by decide)]
    · rw [getW_ist_ne _ (by decide), getW_inc_ne _ _ (by decide)]
    · rw [getW_ist_ne _ (by decide), getW_inc_ne _ _ (by decide)]
  · simp only [List.mem_cons, List.not_mem_nil, or_false, not_or] at hk
    obtain ⟨hcnt, haddr, hbyte, hinfo, hist⟩ := hk
    rw [getW_ist_ne _ hist, recordedViolation_getW (by simp [haddr, hbyte, hinfo]), getW_inc_ne _ _ hcnt]
  · rw [ist_mem, recordedViolation_mem, inc_mem]

/-- Settles O25. -/
theorem refusedAccessesAreRecordedAlone : Obligations.RefusedAccessesAreRecordedAlone := by
  refine ⟨fun s u a v reason byte h hc hh hg => ?_, fun s u a reason byte h hc hh hg => ?_,
    fun s w a v reason byte hp hvig hh hg => ?_, fun d w ty addr byte reason hty hr hw => ?_⟩
  · refine (next_urt (m := ⟨u, opWrite, a, [v]⟩) h rfl).trans ?_
    rw [urtRun_write]
    exact congrArg Host.Outcome.next (urtWrite_refused (s := s.put (urtArrive s.dev u).1) hc hh hg)
  · refine (next_urt (m := ⟨u, opRead, a, []⟩) h rfl).trans ?_
    rw [urtRun_read]
    exact congrArg Host.Outcome.next (urtRead_refused (s := s.put (urtArrive s.dev u).1) hc hh hg)
  · have hgate : gatedWrite s w a [v.toNat] (fun s => writeWord s w a v.toNat)
        = (s.put (violation s.dev w 1 a byte reason), refusalStatus reason) :=
      gatedWrite_refused (vals := [v.toNat]) _ hh hg
    have he : exec (.registerWrite w a v) s = regCmd s w a v.toNat fun s => writeWord s w a v.toNat := rfl
    rw [he, regCmd, actAll_powered hp, if_neg hvig, hgate]
  · exact violate_fields hty hr hw

/-! ### What a message of a session sends and changes (R57, R271) -/

theorem usePn_ses (d : Dev) (n x k : Nat) : ∃ l, (d.usePn n x k).ses n = { d.ses n with txPn := l } := by
  by_cases h : n < d.sess.length
  · exact ⟨_, modSes_ses_same _ h⟩
  · refine ⟨(d.ses n).txPn, ?_⟩
    rw [ses_of_length_le (by rw [Dev.usePn, modSes_length]; omega), ses_of_length_le (by omega)]

theorem sendOn_of_session {d : Dev} {m : Out} {n : Nat} (hm : m.sess = some n) (x : Side) (k prp : Nat) :
    d.sendOn x k prp m = if d.upOk x.num = true
      then ((d.add (UPL_TXCNT_COUNT x.num) k).usePn n x.num k).emit (.uplink x prp (lanId x) (some (d.nextSa n x.num)) m) else d := by
  unfold Dev.sendOn
  rw [hm]
  cases d.upOk x.num <;> rfl

theorem sendOn_ses_ne {d : Dev} {m : Out} {n j : Nat} (hm : m.sess = some n) (hj : j ≠ n) (x : Side) (k prp : Nat) :
    (d.sendOn x k prp m).ses j = d.ses j := by
  rw [sendOn_of_session hm]
  split
  · exact modSes_ses_ne (d := d.add (UPL_TXCNT_COUNT x.num) k)
      (fun y => { y with txPn := putAt y.txPn x.num (elemAt 0 y.txPn x.num + k) }) hj
  · rfl

theorem sendOn_ses_same {d : Dev} {m : Out} {n : Nat} (hm : m.sess = some n) (x : Side) (k prp : Nat) :
    ∃ l, (d.sendOn x k prp m).ses n = { d.ses n with txPn := l } := by
  rw [sendOn_of_session hm]
  split
  · exact usePn_ses _ n x.num k
  · exact ⟨(d.ses n).txPn, rfl⟩

theorem send_ses_ne {d : Dev} {m : Out} {n j : Nat} (hm : m.sess = some n) (hj : j ≠ n) : (d.send m).ses j = d.ses j := by
  unfold Dev.send Dev.sendFrames
  rw [sendOn_ses_ne hm hj, sendOn_ses_ne hm hj]
  rfl

/-- A message of a session leaves the session but for its packet numbers. -/
theorem send_ses_same {d : Dev} {m : Out} {n : Nat} (hm : m.sess = some n) : ∃ l, (d.send m).ses n = { d.ses n with txPn := l } := by
  obtain ⟨l, hl⟩ := sendOn_ses_same (d := { d with prp := (d.prp + 1) % 65536 }) hm .a 1 d.prp
  obtain ⟨l', hl'⟩ := sendOn_ses_same (d := { d with prp := (d.prp + 1) % 65536 }.sendOn .a 1 d.prp m) hm .b 1 d.prp
  refine ⟨l', ?_⟩
  unfold Dev.send Dev.sendFrames
  rw [hl', hl]
  rfl

theorem sendOn_out {d : Dev} {m : Out} {n : Nat} (hm : m.sess = some n) (x : Side) (k prp : Nat) :
    (d.sendOn x k prp m).out
      = d.out ++ if d.upOk x.num = true then [.uplink x prp (lanId x) (some (d.nextSa n x.num)) m] else [] := by
  rw [sendOn_of_session hm]
  split
  · rfl
  · exact (List.append_nil _).symm

/-- A frame on uplink A leaves the packet numbers of uplink B. -/
theorem sendOn_nextSa {d : Dev} {m : Out} {n : Nat} (hm : m.sess = some n) (k prp : Nat) :
    (d.sendOn .a k prp m).nextSa n 1 = d.nextSa n 1 := by
  rw [sendOn_of_session hm]
  split
  · by_cases h : n < d.sess.length
    · have hses : (((d.add (UPL_TXCNT_COUNT Side.a.num) k).usePn n Side.a.num k).ses n)
          = { d.ses n with txPn := putAt (d.ses n).txPn 0 (elemAt 0 (d.ses n).txPn 0 + k) } := modSes_ses_same _ h
      simp only [Dev.nextSa]
      show (elemAt 0 (((d.add (UPL_TXCNT_COUNT Side.a.num) k).usePn n Side.a.num k).ses n).keyIdx 1 % 4,
        elemAt 0 (((d.add (UPL_TXCNT_COUNT Side.a.num) k).usePn n Side.a.num k).ses n).txPn 1) = _
      rw [hses]
      simp
    · have hreset : ((d.add (UPL_TXCNT_COUNT Side.a.num) k).usePn n Side.a.num k).ses n = Sess.reset :=
        ses_of_length_le (by rw [Dev.usePn, modSes_length]; exact Nat.le_of_not_lt h)
      simp only [Dev.nextSa]
      show (elemAt 0 (((d.add (UPL_TXCNT_COUNT Side.a.num) k).usePn n Side.a.num k).ses n).keyIdx 1 % 4,
        elemAt 0 (((d.add (UPL_TXCNT_COUNT Side.a.num) k).usePn n Side.a.num k).ses n).txPn 1) = _
      rw [hreset, ses_of_length_le (Nat.le_of_not_lt h)]
  · rfl

theorem send_out {d : Dev} {m : Out} {n : Nat} (hm : m.sess = some n) : (d.send m).out = d.out ++ copies d n m := by
  have hup : ({ d with prp := (d.prp + 1) % 65536 }.sendOn .a 1 d.prp m).upOk 1 = d.upOk 1 :=
    sendOn_same (Dev.upOk · 1) (fun _ _ _ _ => rfl) _ _ _ _ _
  unfold Dev.send Dev.sendFrames
  rw [sendOn_out hm, sendOn_out hm, List.append_assoc]
  show d.out ++ (_ ++ if ({ d with prp := (d.prp + 1) % 65536 }.sendOn .a 1 d.prp m).upOk 1 = true then
    [.uplink .b d.prp (lanId .b) (some (({ d with prp := (d.prp + 1) % 65536 }.sendOn .a 1 d.prp m).nextSa n 1)) m] else []) = _
  rw [hup, sendOn_nextSa hm]
  rfl

/-! ### Answers (R48, R53) -/

/-- The response to a request. -/
def answer (u : UrtHdr) (op status addr : Nat) (data : List Nat) : Out :=
  .response u.sess op status u.xid addr (if status = 0 then data.map word else [])

theorem respond_eq (d : Dev) (u : UrtHdr) (op status addr : Nat) (data : List Nat) :
    respond d u op status addr data = if d.upOk 0 = true ∨ d.upOk 1 = true then d.send (answer u op status addr data) else d := rfl

section answers
variable (d : Dev) (u : UrtHdr) (op status addr : Nat) (data : List Nat)

theorem respond_same {β : Type} (g : Dev → β)
    (hg : ∀ (d : Dev) (r : List (Nat × Word)) (ss : List Sess) (out : List Out), g { d with regs := r, sess := ss, out := out } = g d)
    (hprp : ∀ (d : Dev) (n : Nat), g { d with prp := n } = g d) : g (respond d u op status addr data) = g d := by
  rw [respond_eq]
  split
  · exact send_same g hg hprp d _
  · rfl

theorem respond_out : (respond d u op status addr data).out = d.out ++ copies d u.sess (answer u op status addr data) := by
  rw [respond_eq]
  split
  · exact send_out rfl
  · next h =>
    obtain ⟨h0, h1⟩ := not_or.mp h
    rw [copies, if_neg h0, if_neg h1]
    exact (List.append_nil _).symm

theorem respond_ses_same : ∃ l, (respond d u op status addr data).ses u.sess = { d.ses u.sess with txPn := l } := by
  rw [respond_eq]
  split
  · exact send_ses_same rfl
  · exact ⟨(d.ses u.sess).txPn, rfl⟩

theorem respond_ses_ne {n : Nat} (h : n ≠ u.sess) : (respond d u op status addr data).ses n = d.ses n := by
  rw [respond_eq]
  split
  · exact send_ses_ne rfl h
  · rfl

end answers

/-- Two states with the same uplinks, PRP sequence number and session send the same copies. -/
theorem copies_congr {d e : Dev} {n : Nat} {m : Out} (hup : e.ups = d.ups) (hprp : e.prp = d.prp)
    (hkey : (e.ses n).keyIdx = (d.ses n).keyIdx) (hpn : (e.ses n).txPn = (d.ses n).txPn) : copies e n m = copies d n m := by
  have hok : ∀ x, e.upOk x = d.upOk x := fun x => by rw [Dev.upOk, hup, Dev.upOk]
  have hsa : ∀ x, e.nextSa n x = d.nextSa n x := fun x => by rw [Dev.nextSa, hkey, hpn, Dev.nextSa]
  rw [copies, hok, hok, hprp, hsa, hsa, copies]

/-! ### EVACK and EVENT (R54, R55) -/

theorem hostClaim_same {β : Type} (g : Dev → β) (hg : ∀ (d : Dev) (i : IntcSt), g { d with intc := i } = g d) (d : Dev) (s n : Nat) :
    g (hostClaim d s n) = g d := by
  unfold hostClaim
  split
  · exact (hg _ _).trans (hg d _)
  · rfl

/-- The claims that the acknowledged records of session `n` make (R393). -/
def claimAll (d : Dev) (n : Nat) (l : List EvRec) : Dev :=
  d.forEach l fun d r => match r.claim with | some k => hostClaim d n k | none => d

theorem claimAll_same {β : Type} (g : Dev → β) (hg : ∀ (d : Dev) (i : IntcSt), g { d with intc := i } = g d) (d : Dev) (n : Nat)
    (l : List EvRec) : g (claimAll d n l) = g d := by
  refine forEach_same g _ _ (fun e r => ?_) d
  cases r.claim with
  | none => rfl
  | some k => exact hostClaim_same g hg e n k

/-- The part without the messages of session `n` that an acknowledgement of `seq` covers. -/
def acknowledged (d : Dev) (n seq : Nat) : Dev :=
  d.modSes n fun x => { x with unack := x.unack.filter fun m => !covers seq m.1 }

theorem urtEvack_eq {d : Dev} {u : UrtHdr} {seq : Nat} (hc : u.count = 0) :
    ∃ l, urtEvack d u seq = respond (claimAll (acknowledged d u.sess seq) u.sess l) u opEvack 0 seq [] := by
  refine ⟨((d.ses u.sess).unack.filter fun m => covers seq m.1).flatMap fun m => m.2, ?_⟩
  rw [urtEvack, if_neg (by simp [hc])]
  rfl

theorem urtEvack_fields {d : Dev} {u : UrtHdr} {seq : Nat} (hc : u.count = 0) (hlt : u.sess < d.sess.length) :
    (urtEvack d u seq).mem = d.mem
      ∧ ((urtEvack d u seq).ses u.sess).unack = (d.ses u.sess).unack.filter (fun m => !covers seq m.1)
      ∧ ((urtEvack d u seq).ses u.sess).queue = (d.ses u.sess).queue ∧ (∀ n, n ≠ u.sess → (urtEvack d u seq).ses n = d.ses n)
      ∧ (urtEvack d u seq).out = d.out ++ copies d u.sess (.response u.sess 9 0 u.xid seq []) := by
  obtain ⟨l, he⟩ := urtEvack_eq (d := d) (seq := seq) hc
  have hses : ∀ n, (claimAll (acknowledged d u.sess seq) u.sess l).ses n = (acknowledged d u.sess seq).ses n := fun n =>
    claimAll_same (Dev.ses · n) (fun _ _ => rfl) _ _ _
  have hack : (acknowledged d u.sess seq).ses u.sess = _ := modSes_ses_same _ hlt
  obtain ⟨pn, hpn⟩ := respond_ses_same (claimAll (acknowledged d u.sess seq) u.sess l) u opEvack 0 seq []
  rw [hses, hack] at hpn
  rw [he]
  refine ⟨?_, by rw [hpn], by rw [hpn], fun n hn => ?_, ?_⟩
  · rw [respond_same _ _ _ _ _ _ Dev.mem (fun _ _ _ _ => rfl) (fun _ _ => rfl), claimAll_same Dev.mem (fun _ _ => rfl)]
    rfl
  · rw [respond_ses_ne _ _ _ _ _ _ hn, hses]
    exact modSes_ses_ne _ hn
  · rw [respond_out, claimAll_same Dev.out (fun _ _ => rfl),
      copies_congr (claimAll_same Dev.ups (fun _ _ => rfl) _ _ _) (claimAll_same Dev.prp (fun _ _ => rfl) _ _ _)
        (by rw [hses]) (by rw [hses]), copies_congr (e := acknowledged d u.sess seq) (d := d) rfl rfl (by rw [hack]) (by rw [hack])]
    rfl

theorem sendEvent_full {d : Dev} {n k : Nat} (h : 64 ≤ (d.ses n).unack.length) : sendEvent d n k = d := if_pos (.inr (.inl h))

/-- The part with the records at the front of session `n`'s queue made a message that waits for its acknowledgement. -/
def eventTaken (d : Dev) (n k : Nat) : Dev :=
  d.modSes n fun x => { x with queue := x.queue.drop (min k 64), unack := x.unack ++ [(x.evSeq, x.queue.take (min k 64))],
                               evSeq := (x.evSeq + 1) % 2 ^ 32 }

theorem sendEvent_taken {d : Dev} {n k : Nat} (hst : (d.ses n).st = .opened) (hun : (d.ses n).unack.length < 64)
    (hq : (d.ses n).queue ≠ []) (hk : 1 ≤ k) :
    sendEvent d n k = (eventTaken d n k).send (.event n (d.ses n).evSeq (decide (min k 64 < (d.ses n).queue.length))
      ((d.ses n).queue.take (min k 64))) := by
  have hne : (d.ses n).queue.take (min k 64) ≠ [] := by
    simp only [ne_eq, List.take_eq_nil_iff, not_or]
    exact ⟨by omega, hq⟩
  have hdrop : (d.ses n).queue.drop ((d.ses n).queue.take (min k 64)).length = (d.ses n).queue.drop (min k 64) := by
    rw [List.length_take]
    rcases Nat.le_total (min k 64) (d.ses n).queue.length with h | h
    · rw [Nat.min_eq_left h]
    · rw [Nat.min_eq_right h, List.drop_length, List.drop_eq_nil_of_le h]
  have hmore : decide (((d.ses n).queue.take (min k 64)).length < (d.ses n).queue.length)
      = decide (min k 64 < (d.ses n).queue.length) := by
    rw [List.length_take]
    exact decide_eq_decide.mpr (by omega)
  unfold sendEvent
  simp only
  rw [if_neg (by simp only [hst, ne_eq, not_true_eq_false, false_or, not_or]; exact ⟨by omega, hne⟩), hmore, eventTaken, Dev.modSes,
    Dev.modSes, hdrop]

theorem resendEvent_oldest {d : Dev} {n q : Nat} {recs : List EvRec} {l : List (Nat × List EvRec)}
    (h : (d.ses n).unack = (q, recs) :: l) :
    resendEvent d n = d.send (.event n q (!l.isEmpty || !(d.ses n).queue.isEmpty) recs) := by
  unfold resendEvent
  rw [h]

theorem urtTaken_fields {s : State} {u : UrtHdr} (h : UrtTaken s u) (hlt : u.sess < s.dev.sess.length) :
    u.sess < (urtArrive s.dev u).1.sess.length ∧ (∀ n, n ≠ u.sess → (urtArrive s.dev u).1.ses n = s.dev.ses n)
      ∧ ((urtArrive s.dev u).1.ses u.sess).queue = (s.dev.ses u.sess).queue
      ∧ ((urtArrive s.dev u).1.ses u.sess).unack = (s.dev.ses u.sess).unack
      ∧ (urtArrive s.dev u).1.out = s.dev.out ∧ (urtArrive s.dev u).1.mem = s.dev.mem := by
  obtain ⟨e, he, ha⟩ := urtArrive_urtTaken h
  obtain ⟨-, -, -, -, -, hv⟩ := h
  obtain ⟨-, -, hses, -, -, hout, hmem, -⟩ := urtArrive_fields he hv hlt
  obtain ⟨-, -, hkept, hlen⟩ := macsecTake_fields he
  have hn : u.sess < (counted e u).sess.length := by rw [← hlen] at hlt; exact hlt
  have hlive := markLive_ses_same hn
  rw [ha]
  refine ⟨?_, hses, ?_, ?_, hout, hmem⟩
  · show u.sess < (markLive (counted e u) u.sess).sess.length
    rwa [markLive_eq, modSes_length, openedCount_same (fun e => e.sess.length) (fun _ _ => rfl)]
  · exact (congrArg Sess.queue hlive).trans (hkept u.sess).2.1
  · exact (congrArg Sess.unack hlive).trans (hkept u.sess).2.2

theorem sendEvent_fields {d : Dev} {n k : Nat} (hst : (d.ses n).st = .opened) (hun : (d.ses n).unack.length < 64)
    (hq : (d.ses n).queue ≠ []) (hk : 1 ≤ k) (hlt : n < d.sess.length) :
    (sendEvent d n k).mem = d.mem ∧ ((sendEvent d n k).ses n).queue = (d.ses n).queue.drop (min k 64)
      ∧ ((sendEvent d n k).ses n).unack = (d.ses n).unack ++ [((d.ses n).evSeq, (d.ses n).queue.take (min k 64))]
      ∧ ((sendEvent d n k).ses n).evSeq = ((d.ses n).evSeq + 1) % 2 ^ 32
      ∧ (sendEvent d n k).out = d.out ++ copies d n (.event n (d.ses n).evSeq (decide (min k 64 < (d.ses n).queue.length))
          ((d.ses n).queue.take (min k 64))) := by
  have htaken : (eventTaken d n k).ses n = _ := modSes_ses_same _ hlt
  rw [sendEvent_taken hst hun hq hk]
  generalize hm : Out.event n (d.ses n).evSeq (decide (min k 64 < (d.ses n).queue.length)) ((d.ses n).queue.take (min k 64)) = m
  have hsess : m.sess = some n := by rw [← hm]; rfl
  obtain ⟨l, hl⟩ := send_ses_same (d := eventTaken d n k) hsess
  rw [htaken] at hl
  refine ⟨?_, by rw [hl], by rw [hl], by rw [hl], ?_⟩
  · exact (send_same Dev.mem (fun _ _ _ _ => rfl) (fun _ _ => rfl) (eventTaken d n k) m).trans rfl
  · rw [send_out hsess, copies_congr (e := eventTaken d n k) (d := d) rfl rfl (by rw [htaken]) (by rw [htaken])]
    rfl

/-- Settles O27. -/
theorem eventsGoOutAndAreAcknowledged : Obligations.EventsGoOutAndAreAcknowledged := by
  refine ⟨fun s u h => ?_, fun s u seq h hc hlt => ?_, fun s n k hp hst hun hq hk hlt => ?_,
    fun s n k h => next_self (sendEvent_full h) rfl, fun s n q recs l hp h => next_put hp (resendEvent_oldest h) rfl⟩
  · refine (next_urt (m := ⟨u, opPing, 0, []⟩) h rfl).trans ?_
    rw [urtRun_ping]
    rfl
  · obtain ⟨hlt', hses, hqueue, hunack, hout, hmem⟩ := urtTaken_fields h hlt
    obtain ⟨emem, eun, eq, eses, eout⟩ := urtEvack_fields (seq := seq) hc hlt'
    refine ⟨s.put (urtEvack (urtArrive s.dev u).1 u seq), (next_urt (m := ⟨u, opEvack, seq, []⟩) h rfl).trans ?_, put_otp s _,
      put_pending s _, emem.trans hmem, eun.trans (by rw [hunack]), eq.trans hqueue, fun n hn => (eses n hn).trans (hses n hn),
      eout.trans (by rw [hout])⟩
    rw [urtRun_evack]
    rfl
  · obtain ⟨emem, eq, eun, eseq, eout⟩ := sendEvent_fields hst hun hq hk hlt
    exact ⟨s.put (sendEvent s.dev n k), act_powered hp fun d => sendEvent d n k, put_otp s _, put_pending s _, emem, eq, eun, eseq, eout⟩

end Sys2Proof.Machine
end

section
/-! Reads and writes of memory by URT requests (R48, R49). -/

namespace Sys2Proof.Machine

open Sys2Proof

/-! ### Addresses of memory -/

theorem inRegs_of_memory {a : Nat} (h : a < 0x1000000) : inRegs a = false := by
  unfold inRegs
  simp only [Bool.and_eq_false_iff, decide_eq_false_iff_not]
  omega

theorem phys_below {d : Dev} {a : Nat} (h : a < 0xA00000) : d.phys a = a := if_neg (by omega)

/-- Where the process image windows put an address. -/
theorem phys_cases (d : Dev) (a : Nat) :
    (¬ (0xA00000 ≤ a ∧ a < 0xC00000) ∧ d.phys a = a)
      ∨ ((0xA00000 ≤ a ∧ a < 0xC00000) ∧ d.phys a
          = (if d.svc.sel.contains (a % 0x100000 / 16) == decide (0xB00000 ≤ a) then 0xA00000 else 0xB00000) + a % 0x100000) := by
  unfold Dev.phys
  by_cases h : 0xA00000 ≤ a ∧ a < 0xC00000
  · rw [if_pos h]
    refine .inr ⟨h, ?_⟩
    simp only
    split <;> rfl
  · rw [if_neg h]
    exact .inl ⟨h, rfl⟩

/-- No two addresses lie on the same byte. -/
theorem phys_inj {d : Dev} {a b : Nat} (h : d.phys a = d.phys b) : a = b := by
  rcases phys_cases d a with ⟨ha, hpa⟩ | ⟨ha, hpa⟩ <;> rcases phys_cases d b with ⟨hb, hpb⟩ | ⟨hb, hpb⟩
  · omega
  · rw [hpa, hpb] at h
    split at h <;> omega
  · rw [hpa, hpb] at h
    split at h <;> omega
  · rw [hpa, hpb] at h
    have hoff : a % 0x100000 = b % 0x100000 := by split at h <;> split at h <;> omega
    by_cases hhalf : 0xB00000 ≤ a ↔ 0xB00000 ≤ b
    · omega
    · have hswap : decide (0xB00000 ≤ a) = !decide (0xB00000 ≤ b) := by
        by_cases hb' : 0xB00000 ≤ b <;> simp_all
      rw [hoff, hswap] at h
      generalize d.svc.sel.contains (b % 0x100000 / 16) = c at h
      generalize decide (0xB00000 ≤ b) = back at h
      cases c <;> cases back <;> simp at h

/-! ### Words of memory -/

theorem setMemW_mem (d : Dev) (a x : Nat) :
    (d.setMemW a x).mem = Memory.put (Memory.put (Memory.put (Memory.put d.mem (d.phys (a + 0)) (BitVec.ofNat 8 (x / 2 ^ 24)))
      (d.phys (a + 1)) (BitVec.ofNat 8 (x / 2 ^ 16))) (d.phys (a + 2)) (BitVec.ofNat 8 (x / 2 ^ 8))) (d.phys (a + 3))
      (BitVec.ofNat 8 x) := rfl

theorem phys_ne (d : Dev) {a b : Nat} (h : a ≠ b) : d.phys a ≠ d.phys b := fun he => h (phys_inj he)

theorem getAll_setMemW (d : Dev) (a x : Nat) :
    (List.range 4).map (fun j => Memory.get (d.setMemW a x).mem (d.phys (a + j))) = bytesOf x := by
  have h : ∀ i j, i ≠ j → d.phys (a + i) ≠ d.phys (a + j) := fun i j hij => phys_ne d (by omega)
  show [Memory.get (d.setMemW a x).mem (d.phys (a + 0)), Memory.get (d.setMemW a x).mem (d.phys (a + 1)),
    Memory.get (d.setMemW a x).mem (d.phys (a + 2)), Memory.get (d.setMemW a x).mem (d.phys (a + 3))] = _
  rw [setMemW_mem, get_put_ne (h 0 3 (by decide)), get_put_ne (h 0 2 (by decide)), get_put_ne (h 0 1 (by decide)), get_put_same,
    get_put_ne (h 1 3 (by decide)), get_put_ne (h 1 2 (by decide)), get_put_same, get_put_ne (h 2 3 (by decide)), get_put_same,
    get_put_same]
  rfl

theorem get_setMemW_out {d : Dev} {a x y : Nat} (h : ∀ j, j < 4 → y ≠ d.phys (a + j)) :
    Memory.get (d.setMemW a x).mem y = Memory.get d.mem y := by
  rw [setMemW_mem, get_put_ne (h 3 (by decide)), get_put_ne (h 2 (by decide)), get_put_ne (h 1 (by decide)),
    get_put_ne (h 0 (by decide))]

theorem setMemW_below {d : Dev} {a x : Nat} (h : a + 4 ≤ 0xA00000) : d.setMemW a x = { d with mem := Memory.putAll d.mem a (bytesOf x) } := by
  have hm : (d.setMemW a x).mem = Memory.putAll d.mem a (bytesOf x) := by
    rw [setMemW_mem, phys_below (by omega), phys_below (by omega), phys_below (by omega), phys_below (by omega)]
    rfl
  rw [← hm]
  rfl

theorem putAll_append (m : List Host.Cell) (a : Nat) (l l' : List Byte) :
    Memory.putAll m a (l ++ l') = Memory.putAll (Memory.putAll m a l) (a + l.length) l' := by
  induction l generalizing m a with
  | nil => rfl
  | cons b l ih =>
    rw [List.cons_append, Memory.putAll, ih, Memory.putAll, List.length_cons, show a + 1 + l.length = a + (l.length + 1) by omega]

/-! ### Reads and writes that run into no register -/

theorem readWords_memory {s : State} {a n : Nat} (h : a + 4 * n ≤ 0x1000000) :
    readWords s a n = (s, (List.range n).map fun j => s.dev.memW (a + 4 * j)) := by
  induction n generalizing a with
  | zero => rfl
  | succ n ih =>
    have hword : readWord s a = (s, s.dev.memW a) := by
      unfold readWord
      rw [inRegs_of_memory (by omega), if_neg (by decide), if_neg (by omega)]
    rw [readWords, hword]
    simp only
    rw [ih (by omega), List.range_succ_eq_map, List.map_cons, List.map_map]
    refine congrArg (fun l => (s, s.dev.memW a :: l)) (List.map_congr_left fun j _ => ?_)
    simp only [Function.comp_apply, Nat.succ_eq_add_one]
    rw [show a + 4 + 4 * j = a + 4 * (j + 1) by omega]

theorem writeWord_memory {s : State} {w : Who} {a v : Nat} (h : a < 0x1000000) : writeWord s w a v = s.put (s.dev.setMemW a v) := by
  unfold writeWord
  rw [inRegs_of_memory h]
  rfl

theorem writeWords_below {s : State} {w : Who} {a : Nat} {l : List Nat} (h : a + 4 * l.length ≤ 0xA00000) :
    writeWords s w a l = s.put { s.dev with mem := Memory.putAll s.dev.mem a (l.flatMap bytesOf) } := by
  induction l generalizing s a with
  | nil => rfl
  | cons v l ih =>
    rw [List.length_cons] at h
    rw [writeWords, writeWord_memory (by omega), ih (by omega), setMemW_below (by omega), List.flatMap_cons, putAll_append]
    rfl

theorem someWign_memory {s : State} {w : Who} {a : Nat} {l : List Nat} (h : a + 4 * l.length ≤ 0x1000000) : someWign s w a l = false := by
  induction l generalizing s a with
  | nil => rfl
  | cons v l ih =>
    rw [List.length_cons] at h
    rw [someWign, inRegs_of_memory (by omega), ih (by omega)]
    rfl

theorem badPush_memory {d : Dev} {n : Nat} {x : Nat × Nat} (h : x.1 < 0x1000000) : badPush d n x = none := by
  unfold badPush
  rw [inRegs_of_memory h]
  exact if_neg fun h => absurd h.1 (by decide)

theorem badPush_memory_words {d : Dev} {n a : Nat} {l : List Nat} (h : a + 4 * l.length ≤ 0x1000000) :
    (l.zipIdx.map fun x => (a + 4 * x.2, x.1)).findSome? (badPush d n) = none := by
  rw [List.findSome?_eq_none_iff]
  intro x hx
  obtain ⟨y, hy, rfl⟩ := List.mem_map.mp hx
  have hlt : y.2 < l.length := List.snd_lt_of_mem_zipIdx hy
  exact badPush_memory (by simp only; omega)

theorem accessRead_memory {s : State} {w : Who} {a n : Nat} (ha : a + 4 * n ≤ 0x1000000) (hh : heldByDrain s.dev a (4 * n) = false)
    (hg : gateCheck s.dev w 0 a (4 * n) [] = none) :
    accessRead s w a n = (s, 0, (List.range n).map fun j => s.dev.memW (a + 4 * j)) := by
  unfold accessRead
  simp only [settle_of_free hh, hg]
  rw [readWords_memory ha]

theorem gatedWrite_memory {s : State} {n a : Nat} {l : List Nat} (f : State → State) (ha : a + 4 * l.length ≤ 0x1000000)
    (hh : heldByDrain s.dev a (4 * l.length) = false) (hg : gateCheck s.dev (.session n) 1 a (4 * l.length) l = none) :
    gatedWrite s (.session n) a l f = (f s, 0) := by
  unfold gatedWrite
  simp only [settle_of_free hh, hg, badPush_memory_words ha]

/-! ### The requests (R48, R49) -/

theorem badRange_memory {ty a n : Nat} (h1 : 1 ≤ n) (h2 : n ≤ 256) (ha : a + 4 * n ≤ 0x1000000) : badRange ty a n = false := by
  unfold badRange
  rw [inRegs_of_memory (show a < 0x1000000 by omega), inRegs_of_memory (show a + 4 * n - 1 < 0x1000000 by omega)]
  simp only [Bool.or_self, Bool.and_false, Bool.false_and, Bool.or_false, Bool.or_eq_false_iff, beq_eq_false_iff_ne,
    decide_eq_false_iff_not]
  omega

section requests
variable {s : State} {u : UrtHdr} {a : Nat}

theorem urtRead_admitted {op n : Nat} {r : State × Nat × List Nat} (hop : op = opRead → u.count = 0)
    (hr : op = opBread → badRange 0 a n = false) (h : accessRead s (.session u.sess) a n = r) :
    urtRead s u op a n = r.1.put (respond r.1.dev u op r.2.1 a r.2.2) := by
  unfold urtRead
  rw [if_neg fun h => h.2 (hop h.1), if_neg fun h' => Bool.noConfusion ((hr h'.1).symm.trans h'.2), h]
  rfl

theorem urtRead_memory {op n : Nat} (hop : op = opRead → u.count = 0) (hr : op = opBread → badRange 0 a n = false)
    (ha : a + 4 * n ≤ 0x1000000) (hh : heldByDrain s.dev a (4 * n) = false)
    (hg : gateCheck s.dev (.session u.sess) 0 a (4 * n) [] = none) :
    urtRead s u op a n = s.put (respond s.dev u op 0 a ((List.range n).map fun j => s.dev.memW (a + 4 * j))) :=
  urtRead_admitted hop hr (accessRead_memory ha hh hg)

theorem urtWrite_memory {op : Nat} {l : List Nat} (hc : u.count = l.length) (hop : op = opWrite → l.length = 1)
    (h1 : 1 ≤ l.length) (h2 : l.length ≤ 256) (ha : a + 4 * l.length ≤ 0x1000000)
    (hh : heldByDrain s.dev a (4 * l.length) = false) (hg : gateCheck s.dev (.session u.sess) 1 a (4 * l.length) l = none) :
    urtWrite s u op a l = (writeWords s (.session u.sess) a l).put
      (respond (writeWords s (.session u.sess) a l).dev u op 0 a []) := by
  unfold urtWrite
  rw [if_neg (by rw [not_or, not_and]; exact ⟨fun h => by rw [hc, hop h]; simp, by simp [hc]⟩),
    if_neg fun h => Bool.noConfusion ((badRange_memory h1 h2 ha).symm.trans h.2)]
  simp only
  rw [accessWrite, gatedWrite_memory _ ha hh hg, someWign_memory ha]
  rfl

end requests

/-! ### A message that is taken leaves memory and its windows -/

theorem urtArrive_same {β : Type} (g : Dev → β) (hr : ∀ (d : Dev) (r : List (Nat × Word)), g { d with regs := r } = g d)
    (hs : ∀ (d : Dev) (ss : List Sess), g { d with sess := ss } = g d)
    (hn : ∀ (d : Dev) (l : List (Nat × Nat × Nat)) (n : Nat), g { d with seen := l, lastMsg := n } = g d)
    {s : State} {u : UrtHdr} (h : UrtTaken s u) : g (urtArrive s.dev u).1 = g s.dev := by
  obtain ⟨e, he, ha⟩ := urtArrive_urtTaken h
  rw [ha]
  show g (markLive (counted e u) u.sess) = g s.dev
  rw [markLive_same g hr hs, counted, same_inc g hr]
  refine (hn e _ _).trans ?_
  rw [(macsecTake_fields he).1]
  exact hs s.dev _

theorem urtArrive_mem {s : State} {u : UrtHdr} (h : UrtTaken s u) : (urtArrive s.dev u).1.mem = s.dev.mem :=
  urtArrive_same Dev.mem (fun _ _ => rfl) (fun _ _ => rfl) (fun _ _ _ => rfl) h

theorem urtArrive_memW {s : State} {u : UrtHdr} (h : UrtTaken s u) (a : Nat) : (urtArrive s.dev u).1.memW a = s.dev.memW a :=
  urtArrive_same (Dev.memW · a) (fun _ _ => rfl) (fun _ _ => rfl) (fun _ _ _ => rfl) h

theorem urtArrive_out {s : State} {u : UrtHdr} (h : UrtTaken s u) : (urtArrive s.dev u).1.out = s.dev.out :=
  urtArrive_same Dev.out (fun _ _ => rfl) (fun _ _ => rfl) (fun _ _ _ => rfl) h

theorem urtArrive_phys {s : State} {u : UrtHdr} (h : UrtTaken s u) (a : Nat) : (urtArrive s.dev u).1.phys a = s.dev.phys a :=
  urtArrive_same (Dev.phys · a) (fun _ _ => rfl) (fun _ _ => rfl) (fun _ _ _ => rfl) h

theorem respond_mem (d : Dev) (u : UrtHdr) (op status addr : Nat) (data : List Nat) :
    (respond d u op status addr data).mem = d.mem :=
  respond_same d u op status addr data Dev.mem (fun _ _ _ _ => rfl) (fun _ _ => rfl)

/-! ### A read of a register (R48) -/

theorem readEffect_same {β : Type} (g : Dev → β) (hr : ∀ (d : Dev) (r : List (Nat × Word)), g { d with regs := r } = g d)
    (hf : ∀ (d : Dev) (n : Nat), g { d with fresh := n } = g d) (d : Dev) (p off : Nat) : g (readEffect d p off) = g d := by
  unfold readEffect
  split
  · exact hr d _
  · split
    · unfold captureNow
      exact (hr _ _).trans ((hr _ _).trans ((hr _ _).trans (hr d _)))
    · split
      · exact hf d _
      · rfl

theorem accessRead_register {s : State} {w : Who} {p off : Nat} (hp : p < 512) (hoff : off < 4096)
    (hh : heldByDrain s.dev (regAddr p off) 4 = false) (hg : gateCheck s.dev w 0 (regAddr p off) 4 [] = none) :
    accessRead s w (regAddr p off) 1
      = (s.put (readEffect s.dev p off), 0, [viewW s.otp (readEffect s.dev p off) p off]) := by
  have hw : readWord s (regAddr p off) = (s.put (readEffect s.dev p off), viewW s.otp (readEffect s.dev p off) p off) := by
    unfold readWord
    rw [inRegs_regAddr hp hoff, regAddr_page hoff, regAddr_off hoff]
    rfl
  unfold accessRead
  simp only [settle_of_free hh, Nat.mul_one, hg]
  rw [readWords, readWords]
  exact congrArg (fun r : State × Nat => (r.1, 0, [r.2])) hw

theorem respond_readEffect_out (d : Dev) (u : UrtHdr) (p off op addr : Nat) (data : List Nat) :
    (respond (readEffect d p off) u op 0 addr data).out
      = d.out ++ copies d u.sess (.response u.sess op 0 u.xid addr (data.map word)) := by
  have hses : ∀ n, (readEffect d p off).ses n = d.ses n := fun n => readEffect_same (Dev.ses · n) (fun _ _ => rfl) (fun _ _ => rfl) d p off
  rw [respond_out, readEffect_same Dev.out (fun _ _ => rfl) (fun _ _ => rfl),
    copies_congr (readEffect_same Dev.ups (fun _ _ => rfl) (fun _ _ => rfl) d p off)
      (readEffect_same Dev.prp (fun _ _ => rfl) (fun _ _ => rfl) d p off) (by rw [hses]) (by rw [hses])]
  rfl

/-- Settles O22. -/
theorem readsAnswerTheWords : Obligations.ReadsAnswerTheWords := by
  refine ⟨fun s u a h hc ha hh hg => ?_, fun s u a h h1 h2 ha hh hg => ?_, fun s u p off h hc hpop hoff hal hh hg => ?_⟩
  · refine ⟨s.put (respond (urtArrive s.dev u).1 u opRead 0 a [s.dev.memW a]), (next_urt (m := ⟨u, opRead, a, []⟩) h rfl).trans ?_,
      put_otp s _, put_pending s _, ?_, ?_⟩
    · rw [urtRun_read, urtRead_memory (s := s.put (urtArrive s.dev u).1) (n := 1) (fun _ => hc)
        (fun h => absurd h (by decide)) ha hh hg, ← urtArrive_memW h]
      rfl
    · exact (respond_out _ _ _ _ _ _).trans (by rw [urtArrive_out h]; rfl)
    · exact (respond_mem _ _ _ _ _ _).trans (urtArrive_mem h)
  · refine ⟨s.put (respond (urtArrive s.dev u).1 u opBread 0 a ((List.range u.count).map fun j => s.dev.memW (a + 4 * j))),
      (next_urt (m := ⟨u, opBread, a, []⟩) h rfl).trans ?_, put_otp s _, put_pending s _, ?_, ?_⟩
    · rw [urtRun_bread, urtRead_memory (s := s.put (urtArrive s.dev u).1) (n := u.count) (fun h => absurd h (by decide))
        (fun _ => badRange_memory h1 h2 ha) ha hh hg]
      refine congrArg (fun l => Host.Outcome.next (s.put (respond (urtArrive s.dev u).1 u opBread 0 a l))) ?_
      exact List.map_congr_left fun j _ => urtArrive_memW h _
    · refine (respond_out _ _ _ _ _ _).trans ?_
      rw [urtArrive_out h, answer, if_pos rfl, List.map_map]
      rfl
    · exact (respond_mem _ _ _ _ _ _).trans (urtArrive_mem h)
  · refine ⟨s.put (respond (readEffect (urtArrive s.dev u).1 p off) u opRead 0 (regAddr p off)
        [viewW s.otp (readEffect (urtArrive s.dev u).1 p off) p off]), (next_urt (m := ⟨u, opRead, regAddr p off, []⟩) h rfl).trans ?_,
      put_otp s _, put_pending s _, ?_, ?_⟩
    · rw [urtRun_read, urtRead_admitted (s := s.put (urtArrive s.dev u).1) (fun _ => hc) (fun h => absurd h (by decide))
        (accessRead_register (populated_lt hpop) hoff hh hg)]
      rfl
    · exact (respond_readEffect_out _ _ _ _ _ _ _).trans (by rw [urtArrive_out h]; rfl)
    · refine (respond_mem _ _ _ _ _ _).trans ?_
      exact (readEffect_same Dev.mem (fun _ _ => rfl) (fun _ _ => rfl) _ p off).trans (urtArrive_mem h)

theorem flatMap_bytesOf_length (l : List Word) : (l.flatMap fun v => bytesOf v.toNat).length = 4 * l.length := by
  induction l with
  | nil => rfl
  | cons v l ih =>
    rw [List.flatMap_cons, List.length_append, ih, bytesOf_length, List.length_cons]
    omega

/-- Settles O23. -/
theorem writesStoreTheWords : Obligations.WritesStoreTheWords := by
  refine ⟨fun s u a v h hc ha hh hg => ?_, fun s u a l h hc h1 h2 ha hh hg => ?_⟩
  · refine ⟨s.put (respond ((urtArrive s.dev u).1.setMemW a v.toNat) u opWrite 0 a []),
      (next_urt (m := ⟨u, opWrite, a, [v]⟩) h rfl).trans ?_, put_otp s _, put_pending s _, ?_, ?_, fun x hx => ?_⟩
    · rw [urtRun_write]
      refine congrArg Host.Outcome.next ((urtWrite_memory (s := s.put (urtArrive s.dev u).1) (l := [v.toNat]) hc (fun _ => rfl)
        (by simp) (by simp) ha hh hg).trans ?_)
      rw [writeWords, writeWord_memory (by omega)]
      rfl
    · refine (respond_out _ _ _ _ _ _).trans ?_
      rw [← urtArrive_out h]
      rfl
    · refine Eq.trans (List.map_congr_left fun j _ => ?_) (getAll_setMemW (urtArrive s.dev u).1 a v.toNat)
      rw [← urtArrive_phys h]
      exact congrArg (Memory.get · _) (respond_mem _ _ _ _ _ _)
    · refine (congrArg (Memory.get · x) (respond_mem _ _ _ _ _ _)).trans ?_
      rw [get_setMemW_out fun j hj => by rw [urtArrive_phys h]; exact hx j hj, urtArrive_mem h]
  · have hlen : (l.map BitVec.toNat).length = l.length := List.length_map _
    have hmem : ∀ d : Dev, (respond { d with mem := Memory.putAll d.mem a ((l.map BitVec.toNat).flatMap bytesOf) } u opBwrite 0 a []).mem
        = Memory.putAll d.mem a (l.flatMap fun v => bytesOf v.toNat) := fun d => by
      rw [respond_mem, List.flatMap_map]
    refine ⟨s.put (respond { (urtArrive s.dev u).1 with
        mem := Memory.putAll (urtArrive s.dev u).1.mem a ((l.map BitVec.toNat).flatMap bytesOf) } u opBwrite 0 a []),
      (next_urt (m := ⟨u, opBwrite, a, l⟩) h rfl).trans ?_, put_otp s _, put_pending s _, ?_, ?_, fun x hx => ?_⟩
    · rw [urtRun_bwrite]
      refine congrArg Host.Outcome.next ((urtWrite_memory (s := s.put (urtArrive s.dev u).1) (l := l.map BitVec.toNat)
        (by rw [hlen]; exact hc) (fun h => absurd h (by decide)) (by rw [hlen]; exact h1) (by rw [hlen]; exact h2)
        (by rw [hlen]; omega) (by rw [hlen]; exact hh) (by rw [hlen]; exact hg)).trans ?_)
      rw [writeWords_below (by rw [hlen]; omega)]
      rfl
    · refine (respond_out _ _ _ _ _ _).trans ?_
      rw [← urtArrive_out h]
      rfl
    · refine Eq.trans (congrArg (Memory.getAll · a (4 * l.length)) (hmem _)) ?_
      rw [← flatMap_bytesOf_length, getAll_putAll]
    · refine Eq.trans (congrArg (Memory.get · x) (hmem _)) ?_
      rw [get_putAll_out _ _ _ _ (by rw [flatMap_bytesOf_length]; omega), urtArrive_mem h]

end Sys2Proof.Machine
end

section
/-! The bell: the next instant, late and missed bells, the payload (R62, R67, R72, R73). -/

namespace Sys2Proof.Machine

open Sys2Proof

/-- The first multiple of `p` at or after `t`. -/
theorem ceilTo_bounds {p : Nat} (t : Nat) (hp : p ≠ 0) : ceilTo p t % p = 0 ∧ t ≤ ceilTo p t ∧ ceilTo p t < t + p := by
  have hdiv := Nat.div_add_mod (t + p - 1) p
  have hmod := Nat.mod_lt (t + p - 1) (Nat.pos_of_ne_zero hp)
  rw [Nat.mul_comm] at hdiv
  refine ⟨Nat.mul_mod_left _ _, ?_, ?_⟩ <;> simp only [ceilTo] <;> omega

/-- Settles O30. -/
theorem nextBellIsAMultipleOfThePeriod : Obligations.NextBellIsAMultipleOfThePeriod := by
  intro d hp
  obtain ⟨hmod, hle, hlt⟩ := ceilTo_bounds (d.bell.inst + d.periodNs) hp
  exact ⟨hmod, hle, hlt.trans_le (by omega), rfl, rfl⟩

/-! ### Bytes of a number -/

theorem bytesMsb_length (x n : Nat) : (bytesMsb x n).length = n := by
  induction n with
  | zero => rfl
  | succ n ih => rw [bytesMsb, List.length_cons, ih]

theorem natOf_foldl (l : List Byte) (n : Nat) :
    l.foldl (fun n b => n * 256 + b.toNat) n = n * 256 ^ l.length + natOf l := by
  induction l generalizing n with
  | nil => simp [natOf]
  | cons b l ih =>
    have hcons : natOf (b :: l) = b.toNat * 256 ^ l.length + natOf l := by
      rw [natOf, List.foldl_cons, ih, Nat.zero_mul, Nat.zero_add]
    rw [List.foldl_cons, ih, hcons, List.length_cons, Nat.pow_succ]
    ring

theorem natOf_cons (b : Byte) (l : List Byte) : natOf (b :: l) = b.toNat * 256 ^ l.length + natOf l := by
  rw [natOf, List.foldl_cons, natOf_foldl, Nat.zero_mul, Nat.zero_add]

theorem natOf_bytesMsb (x n : Nat) : natOf (bytesMsb x n) = x % 256 ^ n := by
  induction n with
  | zero => simp [bytesMsb, natOf, Nat.mod_one]
  | succ n ih =>
    have hbyte : (BitVec.ofNat 8 (x / 256 ^ n)).toNat = x / 256 ^ n % 256 := BitVec.toNat_ofNat _ _
    rw [bytesMsb, natOf_cons, ih, bytesMsb_length, hbyte, Nat.pow_succ, Nat.mod_mul, Nat.mul_comm (256 ^ n), Nat.add_comm]

theorem drop_append_of_length {α : Type} {l l' : List α} {n : Nat} (k : Nat) (h : l.length = n) : (l ++ l').drop (n + k) = l'.drop k := by
  rw [← h, List.drop_append, List.drop_of_length_le (by omega), List.nil_append, Nat.add_sub_cancel_left]

theorem take_append_of_length {α : Type} {l l' : List α} {n : Nat} (h : l.length = n) : (l ++ l').take n = l := by
  rw [← h, List.take_left]

theorem natOf_take_bytesMsb (x n : Nat) (l : List Byte) : natOf ((bytesMsb x n ++ l).take n) = x % 256 ^ n := by
  rw [take_append_of_length (bytesMsb_length x n), natOf_bytesMsb]

/-- A number that starts at byte `k` after the first `n`. -/
theorem drop_bytesMsb (x n k : Nat) (l : List Byte) : (bytesMsb x n ++ l).drop (n + k) = l.drop k :=
  drop_append_of_length k (bytesMsb_length x n)

/-- Settles O32. -/
theorem bellPayloadLayout : Obligations.BellPayloadLayout := by
  intro d c lag
  simp only [bellPayload, List.append_assoc]
  refine ⟨?_, ?_, ?_, ?_, ?_, ?_, ?_⟩
  · simp only [List.length_append, bytesMsb_length]
  · rw [natOf_take_bytesMsb]
    norm_num
  · rw [drop_bytesMsb _ 6 0, List.drop_zero, natOf_take_bytesMsb]
    norm_num
  · rw [drop_bytesMsb _ 6 4, drop_bytesMsb _ 4 0, List.drop_zero, natOf_take_bytesMsb]
    omega
  · rw [drop_bytesMsb _ 6 15, drop_bytesMsb _ 4 11, drop_bytesMsb _ 4 7, drop_bytesMsb _ 2 5, drop_bytesMsb _ 2 3, drop_bytesMsb _ 3 0,
      List.drop_zero, natOf_take_bytesMsb]
    norm_num
  · rw [drop_bytesMsb _ 6 17, drop_bytesMsb _ 4 13, drop_bytesMsb _ 4 9, drop_bytesMsb _ 2 7, drop_bytesMsb _ 2 5, drop_bytesMsb _ 3 2,
      drop_bytesMsb _ 1 1, drop_bytesMsb _ 1 0, List.drop_zero, natOf_take_bytesMsb]
    norm_num
  · rw [drop_bytesMsb _ 6 24, drop_bytesMsb _ 4 20, drop_bytesMsb _ 4 16, drop_bytesMsb _ 2 14, drop_bytesMsb _ 2 12,
      drop_bytesMsb _ 3 9, drop_bytesMsb _ 1 8, drop_bytesMsb _ 1 7, drop_bytesMsb _ 4 3, drop_bytesMsb _ 2 1, drop_bytesMsb _ 1 0,
      List.drop_zero, List.take_of_length_le (by rw [bytesMsb_length]), natOf_bytesMsb]
    norm_num

/-! ### Late and missed bells (R72, R73) -/

theorem advanceTo_same {β : Type} (g : Dev → β) (hg : ∀ (d : Dev) (a : Aon), g { d with aon := a } = g d) (d : Dev) (ns : Nat) :
    g (d.advanceTo ns) = g d := by
  unfold Dev.advanceTo
  split
  · exact hg d _
  · rfl

theorem lateBell_sent {d : Dev} {lag : Nat} {l : BellLine} (hc : d.hasChan l.ch = true) (hb : (d.chan l.ch).bell = .due)
    (hf : (d.chan l.ch).formed = true) (hh : heldBack d l.ch = false) (hbusy : l.busy = false) (h0 : 0 < lag)
    (hlim : lag * 125 ≤ d.bellLimit) (hi : busIdle d l.ch (d.bell.inst + lag * 125) = true) :
    lateBell d lag l = sendBell (lateBellSent (d.advanceTo (d.bell.inst + lag * 125)) l.ch lag) l.ch lag l :=
  if_pos ⟨hc, hb, hh, h0, hlim, hf, hbusy, hi⟩

theorem lateBellSent_fields {d : Dev} {c lag : Nat} (hlag : lag < 65536) :
    let e := lateBellSent d c lag
    e.get (CHC_BELLCNT_LATE c) = min (d.get (CHC_BELLCNT_LATE c) + 1) (fldTop (CHC_BELLCNT_LATE c))
      ∧ e.get (CHC_BELLLAG_LAST c) = lag ∧ e.get (CHC_BELLLAG_MAX c) = max (d.get (CHC_BELLLAG_MAX c)) lag
      ∧ e.bit (PG_IST (pCHC c)) 16 = true := by
  have hlast : (CHC_BELLLAG_LAST c).apart (CHC_BELLLAG_MAX c) = true := by simp [Fld.apart, CHC_BELLLAG_LAST, CHC_BELLLAG_MAX]
  have hmax : (CHC_BELLLAG_MAX c).apart (CHC_BELLLAG_LAST c) = true := by simp [Fld.apart, CHC_BELLLAG_LAST, CHC_BELLLAG_MAX]
  have hcnt : CHC_BELLCNT c ≠ CHC_BELLLAG c := by simp only [CHC_BELLCNT, CHC_BELLLAG, rkey]; omega
  have hist : PG_IST (pCHC c) ≠ CHC_BELLLAG c ∧ PG_IST (pCHC c) ≠ CHC_BELLCNT c := by
    simp only [CHC_BELLCNT, CHC_BELLLAG, PG_IST, pCHC, rkey]; omega
  have htop := get_lt d (CHC_BELLLAG_MAX c)
  simp only [CHC_BELLLAG_MAX] at htop
  simp only [lateBellSent]
  rw [show min lag 65535 = lag by omega]
  generalize hx : ((d.inc (CHC_BELLCNT_LATE c)).set (CHC_BELLLAG_LAST c) lag).ist (pCHC c) 16 = x
  have hxmax : x.get (CHC_BELLLAG_MAX c) = d.get (CHC_BELLLAG_MAX c) := by
    rw [← hx, get_of_getW (getW_ist_ne _ hist.1.symm), get_set_apart _ _ _ _ rfl hlast, get_of_getW (getW_inc_ne _ _ hcnt.symm)]
  refine ⟨?_, ?_, ?_, ?_⟩
  · rw [get_of_getW (getW_set_ne _ _ _ hcnt), ← hx, get_of_getW (getW_ist_ne _ hist.2.symm), get_of_getW (getW_set_ne _ _ _ hcnt),
      get_inc_same _ _ rfl]
  · rw [get_set_apart _ _ _ _ rfl hmax, ← hx, get_of_getW (getW_ist_ne _ hist.1.symm), get_set_same _ _ _ rfl]
    exact Nat.mod_eq_of_lt hlag
  · rw [get_set_same _ _ _ rfl, hxmax]
    simp only [CHC_BELLLAG_MAX]
    omega
  · rw [Dev.bit, getW_set_ne _ _ _ hist.1, ← hx]
    exact (bit_setBit _ _ 16 16 true (by decide)).trans (if_pos rfl)

theorem bellMissed_due {d : Dev} {c : Nat} (hc : d.hasChan c = true) (hb : (d.chan c).bell = .due) (hh : d.isHead = true) :
    bellMissed d c = if bellWithheld d c = true then bellUnsent (d.advanceTo (d.bell.inst + d.bellLimit)) c
      else bellMiss (d.advanceTo (d.bell.inst + d.bellLimit)) c := by
  generalize hx : d.advanceTo (d.bell.inst + d.bellLimit) = x
  have hbell : (x.chan c).bell = .due := by rw [← hx, advanceTo_same (Dev.chan · c) (fun _ _ => rfl), hb]
  have hhead : x.isHead = true := by rw [← hx, advanceTo_same Dev.isHead (fun _ _ => rfl), hh]
  have hheld : bellWithheld x c = bellWithheld d c := by rw [← hx, advanceTo_same (bellWithheld · c) (fun _ _ => rfl)]
  rw [bellMissed, if_pos ⟨hc, hb, hh⟩, hx, endBell, if_neg (by simp [hbell, hhead]), hheld]

theorem bellMissed_idle {d : Dev} {c : Nat} (h : (d.chan c).bell ≠ .due ∨ d.isHead = false) : bellMissed d c = d := by
  refine if_neg fun hd => ?_
  obtain ⟨-, hb, hh⟩ := hd
  rcases h with h | h
  · exact h hb
  · rw [h] at hh
    cases hh

/-- Settles O31. -/
theorem lateAndMissedBells : Obligations.LateAndMissedBells := by
  refine ⟨fun s lag l hp hc hb hf hh hbusy h0 hlim hi => next_put hp (lateBell_sent hc hb hf hh hbusy h0 hlim hi) rfl,
    fun d c lag hlag => lateBellSent_fields hlag, fun s c hp hc hb hh hw => ?_, fun s c hp hc hb hh hw => ?_,
    fun s c h => next_self (bellMissed_idle h) rfl⟩
  · exact next_put hp ((bellMissed_due hc hb hh).trans (if_neg (by rw [hw]; decide))) rfl
  · exact next_put hp ((bellMissed_due hc hb hh).trans (if_pos hw)) rfl

end Sys2Proof.Machine
end

section
/-! Pushes and aborts (R129 to R133, R148). -/

namespace Sys2Proof.Machine

open Sys2Proof

/-! ### Writes of a channel's registers -/

/-- The rows of page `k` of a channel. -/
def chanRows (k : Nat) : List RegRow := if k = 0 then rows_chc else if k = 1 then rows_cht else if k = 2 then rows_chx else rows_chs

/-- An admitted write of a channel's register past the header has its effect. -/
theorem chan_write {s : State} {w : Who} {c off v : Nat} (k : Nat) (hc : s.dev.hasChan c = true) (hk : k < 4) (hlo : 0x40 ≤ off)
    (hhi : off < 4096) (hrow : ((chanRows k).find? fun r => rowHolds r off).isSome = true)
    (ha : Admits s w 1 (regAddr (0x100 + 4 * c + k) off) [v]) :
    regWrite s w (regAddr (0x100 + 4 * c + k) off) v = .next (s.put (writeChan s.dev w (0x100 + 4 * c + k) off v)) := by
  rw [regWrite_admitted ha (populated_chan hc hk) hhi (by rw [regRow_chan c k off hk hlo]; exact hrow) (by omega),
    writeReg_chan _ _ _ _ _ _ _ hlo]

theorem bitsOf_of_lt {x hi : Nat} (h : x < 2 ^ (hi + 1)) : bitsOf x hi 0 = x := by
  rw [bitsOf, Nat.pow_zero, Nat.div_one]
  exact Nat.mod_eq_of_lt h

theorem chan_page_mod (c k : Nat) (hk : k < 4) : (0x100 + 4 * c + k) % 4 = k := by omega

theorem writeChan_qpush (d : Dev) (w : Who) (c v : Nat) : writeChan d w (pCHT c) 0x04C v = qpush d w c (bitsOf v 13 0) := by
  have hm := chan_page_mod c 1 (by decide)
  have hp := pageChan_chan c 1 (by decide)
  unfold writeChan pCHT
  simp [hm, hp]

theorem writeChan_qabort (d : Dev) (w : Who) (c v : Nat) : writeChan d w (pCHT c) 0x050 v = abortWrite d c v := by
  have hm := chan_page_mod c 1 (by decide)
  have hp := pageChan_chan c 1 (by decide)
  unfold writeChan pCHT
  simp [hm, hp]

section commands
variable {s : State} {w : Who} {c idx : Nat} (hc : s.dev.hasChan c = true)
include hc

theorem exec_push (hi : idx < 2 ^ 14) (ha : Admits s w 1 (regAddr (pCHT c) 0x04C) [idx]) :
    exec (.push w c idx) s = .next (s.put (pushOp raise s.dev c idx (pushSrc s.dev w))) := by
  have he : exec (.push w c idx) s = regWrite s w (regAddr (pCHT c) 0x04C) (idx % 2 ^ 14) := rfl
  rw [he, Nat.mod_eq_of_lt hi]
  refine (chan_write 1 hc (by decide) (by decide) (by decide) (by decide) ha).trans ?_
  exact congrArg (fun d => Host.Outcome.next (s.put d)) ((writeChan_qpush _ _ _ _).trans (by rw [bitsOf_of_lt hi, qpush]))

theorem exec_abort (hi : idx < 2 ^ 14) (ha : Admits s w 1 (regAddr (pCHT c) 0x050) [idx]) :
    exec (.abort w c idx) s = .next (s.put (abortOp s.dev c idx)) := by
  have he : exec (.abort w c idx) s = regWrite s w (regAddr (pCHT c) 0x050) (idx % 2 ^ 14) := rfl
  have hb : bitOf idx 31 = false := by
    simp only [bitOf, beq_eq_false_iff_ne]
    omega
  rw [he, Nat.mod_eq_of_lt hi]
  refine (chan_write 1 hc (by decide) (by decide) (by decide) (by decide) ha).trans ?_
  exact congrArg (fun d => Host.Outcome.next (s.put d)) ((writeChan_qabort _ _ _ _).trans (by rw [abortWrite, hb, bitsOf_of_lt hi]; rfl))

theorem exec_abortAll (ha : Admits s w 1 (regAddr (pCHT c) 0x050) [2 ^ 31]) :
    exec (.abortAll w c) s = .next (s.put (abortAllOf s.dev c)) :=
  (chan_write 1 hc (by decide) (by decide) (by decide) (by decide) ha).trans
    (congrArg (fun d => Host.Outcome.next (s.put d)) ((writeChan_qabort _ _ _ _).trans (if_pos (by decide))))

end commands

/-! ### The queue (R131, R146) -/

theorem qstat_getW {d : Dev} {c k : Nat} (h : k ≠ CHT_QSTAT c) : (qstat d c).getW k = d.getW k := by
  unfold qstat
  simp only
  rw [getW_set_ne _ _ _ h, getW_set_ne _ _ _ h, getW_set_ne _ _ _ h]

theorem qstat_same {β : Type} (g : Dev → β) (hr : ∀ (d : Dev) (r : List (Nat × Word)), g { d with regs := r } = g d) (d : Dev)
    (c : Nat) : g (qstat d c) = g d := by
  unfold qstat
  simp only
  rw [same_set g hr, same_set g hr, same_set g hr]

/-- An update of a channel leaves, of every channel, what it leaves of a channel. -/
theorem modChan_keeps {β : Type} (g : Chan → β) {f : Chan → Chan} (hf : ∀ x, g (f x) = g x) (d : Dev) (b c : Nat) :
    g ((d.modChan c f).chan b) = g (d.chan b) := by
  by_cases hb : b = c
  · subst hb
    by_cases hlt : b < d.chans.length
    · rw [chan_modChan_same _ _ _ hlt, hf]
    · rw [Dev.modChan, Dev.setChan, putAt_of_length_le (Nat.le_of_not_lt hlt)]
  · rw [chan_modChan_ne _ hb]

theorem curfewCause_tx (d : Dev) (b c n : Nat) : ((curfewCause d c n).chan b).tx = (d.chan b).tx := by
  unfold curfewCause
  split
  · refine modChan_keeps Chan.tx ?_ _ b c
    exact fun _ => rfl
  · split
    · refine modChan_keeps Chan.tx ?_ _ b c
      exact fun _ => rfl
    · rfl

theorem find_push {l : List TxEntry} {e : TxEntry} {i : Nat} (h : e.idx = i) :
    (l.filter (fun f => f.idx != i) ++ [e]).find? (fun f => f.idx == i) = some e := by
  rw [List.find?_append, List.find?_eq_none.mpr, Option.none_or, List.find?_cons_of_pos (by simpa using h)]
  simp

theorem find_filter_ne (l : List TxEntry) (i : Nat) : (l.filter fun f => f.idx != i).find? (fun f => f.idx == i) = none := by
  rw [List.find?_eq_none]
  simp

theorem pushW3_class (d : Dev) (i st : Nat) : bitsOf (pushW3 d i st % 2 ^ 32) 27 25 = bitsOf (d.desc i 0) 24 22 := by
  have hcls : bitsOf (d.desc i 0) 24 22 < 8 := Nat.mod_lt _ (by decide)
  have htick : d.tick16 < 65536 := Nat.mod_lt _ (by decide)
  simp only [pushW3]
  generalize bitsOf (d.desc i 0) 24 22 = cls at hcls ⊢
  simp only [bitsOf]
  omega

/-! ### The verdict on a push (R129 to R133) -/

section verdict
variable {d : Dev} {c i : Nat} {src : PushSrc}

theorem pushVerdict_held (hk : src.safe = false) (hs : src.key = false) (h : d.get DEV_SAFE_ACTIVE = 1 ∨ d.isHead = false) :
    pushVerdict d c i src = .held := by
  refine if_pos ?_
  rcases h with h | h
  · exact .inl ⟨h, hk, hs⟩
  · exact .inr h

theorem notStanding (he : d.entry c i = none) : ¬ (d.chan c).tx.any (fun e => e.idx == i && (e.st == 1 || e.st == 2)) = true := by
  rw [Dev.entry, List.find?_eq_none] at he
  simp only [List.any_eq_true, not_exists, not_and]
  intro e hmem hand
  exact he e hmem (Bool.and_eq_true_iff.mp hand).1

variable (ha : d.get DEV_SAFE_ACTIVE ≠ 1) (hh : d.isHead = true) (he : d.entry c i = none)
include ha hh he

theorem pushVerdict_outside (hr : inRange d c i src.handle.isSome = false) : pushVerdict d c i src = .outside := by
  unfold pushVerdict
  simp only
  rw [if_neg (by simp [ha, hh]), if_neg (notStanding he), if_pos hr]

theorem pushVerdict_queued (hr : inRange d c i src.handle.isSome = true) (hsafe : src.safe = false)
    (hbad : descBad d c (d.desc i 0) (d.desc i 1) (d.desc i 2) (bitsOf (d.desc i 0) 31 30) (bitsOf (d.desc i 0) 24 22) = false)
    (hlen : ((d.chan c).tx.filter (fun e => e.qt == bitsOf (d.desc i 0) 31 30 && e.idx != i)).length < 255)
    (hscope : ∀ n sc, src.owner = some (n, sc) → scopeAdmits sc c (d.desc i 0) = true) : pushVerdict d c i src = .queued := by
  unfold pushVerdict
  simp only
  rw [if_neg (by simp [ha, hh]), if_neg (notStanding he), if_neg (by simp [hr]), if_neg]
  · cases ho : src.owner with
    | none => rfl
    | some o => exact if_neg (by rw [hscope o.1 o.2 ho]; decide)
  · rw [hbad, hsafe]
    rintro (h | ⟨hq, h⟩ | ⟨hq, h⟩ | ⟨h, -⟩)
    · cases h
    · rw [hq] at hlen
      omega
    · rw [hq] at hlen
      omega
    · cases h

end verdict

/-- The entry that a push makes of a descriptor. -/
def pushedEntry (d : Dev) (c i : Nat) (src : PushSrc) : TxEntry :=
  { idx := i, qt := bitsOf (d.desc i 0) 31 30, c := bitsOf (d.desc i 0) 24 22, ec := bitsOf (d.desc i 0) 24 22,
    mid := bitsOf (d.desc i 0) 21 0, slot := bitsOf (d.desc i 1) 15 0,
    retry := bitsOf (d.desc i 1) 31 28, ntf := bitOf (d.desc i 1) 27, w := 0, att := 0, proms := 0, st := 1, copy := none,
    pushed := d.aon.cycles, since := d.aon.cycles, due := 0, owner := src.owner,
    window := if bitsOf (d.desc i 0) 31 30 = 0 then (if d.usInTick < d.get (CHC_WIN_SCHED_END c) then d.tick else d.tick + 1)
      else oneShotWindow d c,
    handle := src.handle, safe := src.safe, keyFrame := src.key, aborting := false }

/-- The part with a push in the queue. -/
def queuedTx (d : Dev) (c i : Nat) (src : PushSrc) : Dev :=
  d.modChan c fun x => { x with tx := x.tx.filter (fun f => f.idx != i) ++ [pushedEntry d c i src] }

/-- The part with a push queued, before the queue counts and the curfew follow. -/
def queued (d : Dev) (c i : Nat) (src : PushSrc) : Dev := (queuedTx d c i src).setDesc i 3 (pushW3 d i 1)

theorem chan_setDesc (d : Dev) (i j x c : Nat) : (d.setDesc i j x).chan c = d.chan c := rfl

theorem pushOp_queued (rz : Dev → Nat → Nat → Dev) {d : Dev} {c i : Nat} {src : PushSrc} (h : pushVerdict d c i src = .queued) :
    pushOp rz d c i src = curfewCause (qstat (queued d c i src) c) c 2 := by
  unfold pushOp
  rw [h]
  rfl

theorem pushOp_outside (rz : Dev → Nat → Nat → Dev) {d : Dev} {c i : Nat} {src : PushSrc} (h : pushVerdict d c i src = .outside) :
    pushOp rz d c i src = rz (d.ist (pCHT c) 6) (pCHT c) 0 := by
  unfold pushOp
  rw [h]

theorem pushOp_held (rz : Dev → Nat → Nat → Dev) {d : Dev} {c i : Nat} {src : PushSrc} (h : pushVerdict d c i src = .held)
    (hr : inRange d c i src.handle.isSome = true) : pushOp rz d c i src = d.setDesc i 3 (pushW3 d i 9) := by
  unfold pushOp
  rw [h]
  exact if_pos hr

theorem queued_fields {d : Dev} {c i : Nat} {src : PushSrc} (hlt : c < d.chans.length) :
    let e := curfewCause (qstat (queued d c i src) c) c 2
    e.entry c i = some (pushedEntry d c i src) ∧ bitsOf (e.desc i 3) 31 28 = 1
      ∧ bitsOf (e.desc i 3) 27 25 = bitsOf (d.desc i 0) 24 22
      ∧ (∀ a, ¬ (16 * i + 12 ≤ a ∧ a < 16 * i + 16) → Memory.get e.mem a = Memory.get d.mem a)
      ∧ (∀ b, b ≠ c → (e.chan b).tx = (d.chan b).tx) := by
  have hmem : (curfewCause (qstat (queued d c i src) c) c 2).mem = (queued d c i src).mem := by
    rw [curfewCause_same Dev.mem (fun _ _ => rfl) (fun _ _ => rfl), qstat_same Dev.mem (fun _ _ => rfl)]
  have hdesc : (curfewCause (qstat (queued d c i src) c) c 2).desc i 3 = pushW3 d i 1 % 2 ^ 32 := by
    rw [Dev.desc, hmem]
    exact desc_setDesc_same _ i 3 _
  have htx : ∀ b, ((curfewCause (qstat (queued d c i src) c) c 2).chan b).tx = ((queued d c i src).chan b).tx := fun b => by
    rw [curfewCause_tx, qstat_same (Dev.chan · b) (fun _ _ => rfl)]
  refine ⟨?_, ?_, ?_, fun a ha => ?_, fun b hb => ?_⟩
  · rw [Dev.entry, htx, queued, chan_setDesc, queuedTx, chan_modChan_same _ _ _ hlt]
    exact find_push rfl
  · rw [hdesc, pushW3_status _ _ (by decide)]
  · rw [hdesc, pushW3_class]
  · rw [hmem]
    exact get_setDesc_out (d := d) (j := 3) (by omega)
  · rw [htx, queued, chan_setDesc, queuedTx, chan_modChan_ne _ hb]

theorem pushSrc_safe (d : Dev) (w : Who) : (pushSrc d w).safe = false := by cases w <;> rfl
theorem pushSrc_key (d : Dev) (w : Who) : (pushSrc d w).key = false := by cases w <;> rfl
theorem pushSrc_handle (d : Dev) (w : Who) : (pushSrc d w).handle.isSome = false := by cases w <;> rfl

theorem pushSrc_owner {d : Dev} {w : Who} {n : Nat} {sc : Scope} (h : (pushSrc d w).owner = some (n, sc)) :
    w = .session n ∧ sc = (d.ses n).scope := by
  cases w with
  | session m =>
    obtain ⟨rfl, rfl⟩ := Prod.mk.inj (Option.some.inj h)
    exact ⟨rfl, rfl⟩
  | _ => cases h

/-- Settles O33: the verdict on the push decides, and `queued` is what a queued push does. -/
theorem pushQueuesOrRefuses : Obligations.PushQueuesOrRefuses := by
  refine ⟨fun s w c idx hc hlt hi hadm ha hh he hr hbad hlen hscope => ?_, fun s w c idx hc hi hadm hheld hr => ?_,
    fun s w c idx hc hi hadm ha hh he hr => ?_⟩
  · have hv : pushVerdict s.dev c idx (pushSrc s.dev w) = .queued := by
      refine pushVerdict_queued ha hh he (by rw [pushSrc_handle]; exact hr) (pushSrc_safe _ _) hbad hlen fun n sc ho => ?_
      obtain ⟨rfl, rfl⟩ := pushSrc_owner ho
      exact hscope n rfl
    obtain ⟨hentry, hst, hcls, hmem, htx⟩ := queued_fields (i := idx) (src := pushSrc s.dev w) hlt
    exact ⟨s.put (curfewCause (qstat (queued s.dev c idx (pushSrc s.dev w)) c) c 2), pushedEntry s.dev c idx (pushSrc s.dev w),
      by rw [exec_push hc hi hadm, pushOp_queued _ hv], put_otp s _, put_pending s _, hentry, rfl, rfl, rfl, rfl, rfl, rfl, hst, hcls,
      hmem, htx⟩
  · rw [exec_push hc hi hadm, pushOp_held _ (pushVerdict_held (pushSrc_safe _ _) (pushSrc_key _ _) hheld)
      (by rw [pushSrc_handle]; exact hr)]
    rfl
  · rw [exec_push hc hi hadm, pushOp_outside _ (pushVerdict_outside ha hh he (by rw [pushSrc_handle]; exact hr))]

/-! ### Aborts (R148) -/

theorem entry_idx {d : Dev} {c i : Nat} {e : TxEntry} (h : d.entry c i = some e) : e.idx = i := by
  simpa using List.find?_some h

theorem entryW3_status {d : Dev} {e : TxEntry} (hst : e.st < 16) (hec : e.ec < 8) : bitsOf (entryW3 d e % 2 ^ 32) 31 28 = e.st := by
  have htick : d.tick16 < 65536 := Nat.mod_lt _ (by decide)
  simp only [entryW3, bitsOf]
  omega

/-- An entry that leaves the queue, before the counters of its end. -/
def unqueued (d : Dev) (c : Nat) (e : TxEntry) (st : Nat) : Dev :=
  qstat ((d.setDesc e.idx 3 (entryW3 d { e with st := st, ec := e.c })).modChan c
    fun x => { x with tx := x.tx.filter (fun f => f.idx != e.idx) }) c

theorem endEntry_aborted (d : Dev) (c : Nat) (e : TxEntry) : endEntry d c e 6 = (unqueued d c e 6).inc (CHT_ENDCNT_ABORTED c) := rfl

theorem unqueued_fields {d : Dev} {c : Nat} {e : TxEntry} {st : Nat} (hlt : c < d.chans.length) (hst : st < 16) (hec : e.c < 8) :
    (unqueued d c e st).entry c e.idx = none ∧ bitsOf ((unqueued d c e st).desc e.idx 3) 31 28 = st
      ∧ (∀ a, ¬ (16 * e.idx + 12 ≤ a ∧ a < 16 * e.idx + 16) → Memory.get (unqueued d c e st).mem a = Memory.get d.mem a)
      ∧ (∀ k, k ≠ CHT_QSTAT c → (unqueued d c e st).getW k = d.getW k) := by
  have hmem : (unqueued d c e st).mem = (d.setDesc e.idx 3 (entryW3 d { e with st := st, ec := e.c })).mem := by
    rw [unqueued, qstat_same Dev.mem (fun _ _ => rfl)]
    rfl
  refine ⟨?_, ?_, fun a ha => ?_, fun k hk => ?_⟩
  · rw [unqueued, qstat_same (Dev.entry · c e.idx) (fun _ _ => rfl), Dev.entry, chan_modChan_same _ _ _ (by exact hlt)]
    exact find_filter_ne _ _
  · rw [Dev.desc, hmem]
    refine (congrArg (bitsOf · 31 28) (desc_setDesc_same d e.idx 3 _)).trans ?_
    exact entryW3_status hst hec
  · rw [hmem]
    exact get_setDesc_out (by omega)
  · rw [unqueued, qstat_getW hk]
    rfl

theorem endcnt_ne_qstat (c : Nat) : CHT_ENDCNT c ≠ CHT_QSTAT c := by
  simp only [CHT_ENDCNT, CHT_QSTAT, rkey]
  omega

theorem aborted_fields {d : Dev} {c : Nat} {e : TxEntry} (hlt : c < d.chans.length) (hec : e.c < 8) :
    (endEntry d c e 6).entry c e.idx = none ∧ bitsOf ((endEntry d c e 6).desc e.idx 3) 31 28 = 6
      ∧ (endEntry d c e 6).get (CHT_ENDCNT_ABORTED c) = min (d.get (CHT_ENDCNT_ABORTED c) + 1) (fldTop (CHT_ENDCNT_ABORTED c))
      ∧ (∀ a, ¬ (16 * e.idx + 12 ≤ a ∧ a < 16 * e.idx + 16) → Memory.get (endEntry d c e 6).mem a = Memory.get d.mem a)
      ∧ (∀ k, k ≠ CHT_QSTAT c → k ≠ CHT_ENDCNT c → (endEntry d c e 6).getW k = d.getW k) := by
  obtain ⟨hentry, hdesc, hmem, hregs⟩ := unqueued_fields (st := 6) hlt (by decide) hec
  rw [endEntry_aborted]
  refine ⟨?_, ?_, ?_, fun a ha => ?_, fun k hq hend => ?_⟩
  · rw [same_inc (Dev.entry · c e.idx) (fun _ _ => rfl), hentry]
  · rw [same_inc (Dev.desc · e.idx 3) (fun _ _ => rfl), hdesc]
  · rw [get_inc_same _ _ rfl, get_of_getW (hregs _ (endcnt_ne_qstat c))]
  · rw [inc_mem, hmem a ha]
  · rw [getW_inc_ne _ _ hend, hregs k hq]

theorem abortOp_of_entry {d : Dev} {c i : Nat} {e : TxEntry} (h : d.entry c i = some e) : abortOp d c i = abortEntry d c e := by
  rw [abortOp, h]

theorem abortOp_none {d : Dev} {c i : Nat} (h : d.entry c i = none) : abortOp d c i = d := by
  rw [abortOp, h]

/-- Settles O34. -/
theorem abortsEndQueuedEntries : Obligations.AbortsEndQueuedEntries := by
  refine ⟨fun s w c idx e hc hlt hi hadm he hst hec => ?_, fun s w c idx e hc hi hadm he hst => ?_,
    fun s w c idx hc hi hadm he => ?_, fun s w c hc hadm => exec_abortAll hc hadm⟩
  · obtain rfl := entry_idx he
    refine ⟨s.put (endEntry s.dev c e 6), ?_, put_otp s _, put_pending s _, aborted_fields hlt hec⟩
    rw [exec_abort hc hi hadm, abortOp_of_entry he, abortEntry, if_neg hst]
  · obtain rfl := entry_idx he
    rw [exec_abort hc hi hadm, abortOp_of_entry he, abortEntry, if_pos hst]
  · rw [exec_abort hc hi hadm, abortOp_none he]
    rfl

end Sys2Proof.Machine
end

section
/-! The order of the entries, failed attempts and aging (R136 to R140, R145, R188). -/

namespace Sys2Proof.Machine

open Sys2Proof

/-! ### The first entry by an order (R137, R138) -/

section order
variable {lt : TxEntry → TxEntry → Bool} (hasymm : ∀ a b, lt a b = true → lt b a = false)
  (htrans : ∀ a b c, lt b a = false → lt c b = false → lt c a = false)
include hasymm htrans

/-- The entry that a scan keeps is one of those scanned, and no other comes before it. -/
theorem scan_first (l : List TxEntry) (e : TxEntry) :
    let b := l.foldl (fun best f => if lt f best then f else best) e
    (b = e ∨ b ∈ l) ∧ lt e b = false ∧ ∀ f ∈ l, lt f b = false := by
  induction l generalizing e with
  | nil =>
    refine ⟨.inl rfl, ?_, by simp⟩
    cases h : lt e e with
    | false => exact h
    | true => exact (hasymm e e h)
  | cons x l ih =>
    rw [List.foldl_cons]
    obtain ⟨hmem, hkept, hall⟩ := ih (if lt x e then x else e)
    generalize l.foldl (fun best f => if lt f best then f else best) (if lt x e then x else e) = b at hmem hkept hall ⊢
    cases hx : lt x e with
    | true =>
      simp only [hx, if_true] at hmem hkept
      refine ⟨.inr (List.mem_cons.mpr hmem), htrans b x e hkept (hasymm x e hx), ?_⟩
      intro f hf
      rcases List.mem_cons.mp hf with rfl | hf
      · exact hkept
      · exact hall f hf
    | false =>
      simp only [hx, Bool.false_eq_true, if_false] at hmem hkept
      refine ⟨hmem.imp_right (List.mem_cons_of_mem x), hkept, ?_⟩
      intro f hf
      rcases List.mem_cons.mp hf with rfl | hf
      · exact htrans b e f hkept hx
      · exact hall f hf

theorem firstBy_some {l : List TxEntry} {e : TxEntry} (h : firstBy lt l = some e) : e ∈ l ∧ ∀ f ∈ l, lt f e = false := by
  cases l with
  | nil => cases h
  | cons x l =>
    obtain rfl := Option.some.inj h
    obtain ⟨hmem, hkept, hall⟩ := scan_first hasymm htrans l x
    refine ⟨List.mem_cons.mpr hmem, fun f hf => ?_⟩
    rcases List.mem_cons.mp hf with rfl | hf
    · exact hkept
    · exact hall f hf

end order

theorem firstBy_none {lt : TxEntry → TxEntry → Bool} {l : List TxEntry} (h : firstBy lt l = none) : l = [] := by
  cases l with
  | nil => rfl
  | cons x l => cases h

theorem arbBefore_iff (a b : TxEntry) :
    arbBefore a b = true ↔ a.ec < b.ec ∨ (a.ec = b.ec ∧ (a.mid < b.mid ∨ (a.mid = b.mid ∧ a.idx < b.idx))) := by
  simp [arbBefore]

theorem schedBefore_iff (a b : TxEntry) : schedBefore a b = true ↔ a.slot < b.slot ∨ (a.slot = b.slot ∧ a.idx < b.idx) := by
  simp [schedBefore]

theorem arbBefore_asymm (a b : TxEntry) (h : arbBefore a b = true) : arbBefore b a = false := by
  rw [← Bool.not_eq_true, arbBefore_iff]
  rw [arbBefore_iff] at h
  omega

theorem arbBefore_trans (a b c : TxEntry) (h : arbBefore b a = false) (h' : arbBefore c b = false) : arbBefore c a = false := by
  rw [← Bool.not_eq_true, arbBefore_iff] at h h' ⊢
  omega

theorem schedBefore_asymm (a b : TxEntry) (h : schedBefore a b = true) : schedBefore b a = false := by
  rw [← Bool.not_eq_true, schedBefore_iff]
  rw [schedBefore_iff] at h
  omega

theorem schedBefore_trans (a b c : TxEntry) (h : schedBefore b a = false) (h' : schedBefore c b = false) : schedBefore c a = false := by
  rw [← Bool.not_eq_true, schedBefore_iff] at h h' ⊢
  omega

theorem chooseEntry_scheduled {d : Dev} {c t : Nat} (h : t < d.get (CHC_WIN_SCHED_END c) * 1000) :
    chooseEntry d c t = firstBy schedBefore ((d.chan c).tx.filter (schedReady d c t)) := if_pos h

theorem chooseEntry_arbitrated {d : Dev} {c t : Nat} (h : d.get (CHC_WIN_SCHED_END c) * 1000 ≤ t) :
    chooseEntry d c t = if d.bell.inst + t < (d.chan c).ownNs then none
      else firstBy arbBefore ((d.chan c).tx.filter (arbReady d c)) := if_neg (by omega)

/-- Settles O35. -/
theorem headStartsTheFirstEligibleEntry : Obligations.HeadStartsTheFirstEligibleEntry := by
  refine ⟨fun d c t e ht he => ?_, fun d c t e ht he => ?_, fun d c t ht hown he f hf => ?_, fun d c t ht hown => ?_⟩
  · rw [chooseEntry_arbitrated ht] at he
    split at he
    · cases he
    · obtain ⟨hmem, hfirst⟩ := firstBy_some arbBefore_asymm arbBefore_trans he
      obtain ⟨hmem, hready⟩ := List.mem_filter.mp hmem
      refine ⟨hmem, hready, fun f hf hr => ?_⟩
      have hle := hfirst f (List.mem_filter.mpr ⟨hf, hr⟩)
      rw [← Bool.not_eq_true, arbBefore_iff] at hle
      omega
  · rw [chooseEntry_scheduled ht] at he
    obtain ⟨hmem, hfirst⟩ := firstBy_some schedBefore_asymm schedBefore_trans he
    obtain ⟨hmem, hready⟩ := List.mem_filter.mp hmem
    refine ⟨hmem, hready, fun f hf hr => ?_⟩
    have hle := hfirst f (List.mem_filter.mpr ⟨hf, hr⟩)
    rw [← Bool.not_eq_true, schedBefore_iff] at hle
    omega
  · rw [chooseEntry_arbitrated ht, if_neg (by omega)] at he
    rw [← Bool.not_eq_true]
    exact List.filter_eq_nil_iff.mp (firstBy_none he) f hf
  · rw [chooseEntry_arbitrated ht, if_pos hown]

/-! ### The queue with one entry replaced -/

/-- The queue with the entries of descriptor `e.idx` replaced by `e`. -/
def replaced (d : Dev) (c : Nat) (e : TxEntry) : Dev :=
  d.modChan c fun x => { x with tx := x.tx.map (fun f => if f.idx = e.idx then e else f) }

theorem find_replaced {l : List TxEntry} {e f : TxEntry} {i : Nat} (h : l.find? (fun f => f.idx == i) = some f) (he : e.idx = i) :
    (l.map (fun f => if f.idx = e.idx then e else f)).find? (fun f => f.idx == i) = some e := by
  induction l with
  | nil => cases h
  | cons x l ih =>
    rw [List.map_cons]
    by_cases hx : x.idx = e.idx
    · rw [if_pos hx, List.find?_cons_of_pos (by simpa using he)]
    · rw [if_neg hx, List.find?_cons_of_neg (by simpa [← he] using hx)]
      rw [List.find?_cons_of_neg (by simpa [← he] using hx)] at h
      exact ih h

theorem replaced_entry {d : Dev} {c : Nat} {e f : TxEntry} (hlt : c < d.chans.length) (h : d.entry c e.idx = some f) :
    (replaced d c e).entry c e.idx = some e := by
  rw [Dev.entry, replaced, chan_modChan_same _ _ _ hlt]
  exact find_replaced h rfl

theorem entry_setDesc (d : Dev) (i j x c k : Nat) : (d.setDesc i j x).entry c k = d.entry c k := rfl

/-! ### Aging (R145) -/

/-- The entry after an aging step that leaves its class. -/
def waited (e : TxEntry) : TxEntry := { e with w := e.w + 1, due := e.due - 1 }

/-- The entry after an aging step that raises it by a class. -/
def promoted (e : TxEntry) : TxEntry := { e with ec := e.ec - 1, w := 0, proms := min (e.proms + 1) 15, due := e.due - 1 }

theorem ageEntry_waits {d : Dev} {c : Nat} {e : TxEntry}
    (h : ¬ (d.get (CHT_AGELIM_AGELIM c) ≠ 0 ∧ d.get (CHT_AGELIM_AGELIM c) < e.w + 1 ∧ 2 < e.ec)) :
    ageEntry d c e = replaced d c (waited e) := if_neg h

theorem ageEntry_rises {d : Dev} {c : Nat} {e : TxEntry} (h0 : d.get (CHT_AGELIM_AGELIM c) ≠ 0)
    (hw : d.get (CHT_AGELIM_AGELIM c) < e.w + 1) (hec : 2 < e.ec) :
    ageEntry d c e = (((replaced d c (promoted e)).setDesc e.idx 3
      (putBits (putBits (d.desc e.idx 3) 27 25 (e.ec - 1)) 19 16 (min (e.proms + 1) 15))).inc (CHT_MISC_PROM c)).ist (pCHT c) 4 :=
  if_pos ⟨h0, hw, hec⟩

theorem misc_ne_ist (c : Nat) : (CHT_MISC_PROM c).key ≠ PG_IST (pCHT c) := by
  simp only [CHT_MISC_PROM, CHT_MISC, PG_IST, pCHT, rkey]
  omega

theorem replaced_get (d : Dev) (c : Nat) (e : TxEntry) (f : Fld) : (replaced d c e).get f = d.get f := rfl

theorem get_setDesc (d : Dev) (i j x : Nat) (f : Fld) : (d.setDesc i j x).get f = d.get f := rfl

theorem ageEntry_rises_fields {d : Dev} {c : Nat} {e : TxEntry} (hlt : c < d.chans.length) (he : d.entry c e.idx = some e)
    (h0 : d.get (CHT_AGELIM_AGELIM c) ≠ 0) (hw : d.get (CHT_AGELIM_AGELIM c) < e.w + 1) (hec : 2 < e.ec) :
    (ageEntry d c e).entry c e.idx = some (promoted e)
      ∧ (ageEntry d c e).get (CHT_MISC_PROM c) = min (d.get (CHT_MISC_PROM c) + 1) (fldTop (CHT_MISC_PROM c))
      ∧ (∀ a, ¬ (16 * e.idx + 12 ≤ a ∧ a < 16 * e.idx + 16) → Memory.get (ageEntry d c e).mem a = Memory.get d.mem a) := by
  rw [ageEntry_rises h0 hw hec]
  refine ⟨?_, ?_, fun a ha => ?_⟩
  · rw [same_ist (Dev.entry · c e.idx) (fun _ _ => rfl), same_inc (Dev.entry · c e.idx) (fun _ _ => rfl), entry_setDesc]
    exact replaced_entry (e := promoted e) hlt he
  · rw [get_of_getW (getW_ist_ne _ (misc_ne_ist c)), get_inc_same _ _ rfl, get_setDesc, replaced_get]
  · rw [ist_mem, inc_mem]
    exact get_setDesc_out (d := replaced d c (promoted e)) (j := 3) (by omega)

theorem ageEntry_waits_fields {d : Dev} {c : Nat} {e : TxEntry} (hlt : c < d.chans.length) (he : d.entry c e.idx = some e)
    (h : ¬ (d.get (CHT_AGELIM_AGELIM c) ≠ 0 ∧ d.get (CHT_AGELIM_AGELIM c) < e.w + 1 ∧ 2 < e.ec)) :
    (ageEntry d c e).entry c e.idx = some (waited e) ∧ (ageEntry d c e).mem = d.mem ∧ (ageEntry d c e).regs = d.regs := by
  rw [ageEntry_waits h]
  exact ⟨replaced_entry (e := waited e) hlt he, rfl, rfl⟩

theorem ageDue_one {d : Dev} {c : Nat} {e : TxEntry} (he : d.entry c e.idx = some e) (hdue : e.due = 1) :
    ageDue d c e.idx = ageEntry d c e := by
  have hstep : endAttempt d c e.idx ageEntry = ageEntry d c e := by
    rw [endAttempt, he]
  rw [ageDue, he]
  simp only [hdue]
  exact hstep

theorem ageDue_none {d : Dev} {c i : Nat} {e : TxEntry} (he : d.entry c i = some e) (hdue : e.due = 0) : ageDue d c i = d := by
  rw [ageDue, he]
  simp only [hdue]
  rfl

/-! ### The ends of an attempt in a transmit error (R136, R139, R140) -/

theorem entryError_retries {d : Dev} {c t : Nat} {e : TxEntry} (ha : e.aborting = false) (hq : e.qt = 1) (hatt : e.att < 15) :
    entryError d c t e = if e.retry < 15 ∧ e.retry < e.att + 1
      then endEntry d c { e with att := e.att + 1, copy := none, since := d.aon.cycles } 4
      else putEntry d c { e with att := e.att + 1, copy := none, st := 1, since := d.aon.cycles } := by
  unfold entryError
  simp only [show min (e.att + 1) 15 = e.att + 1 by omega]
  rw [if_neg (by simp [ha]), if_neg (by omega), if_neg (by omega)]

theorem entryError_oneShot {d : Dev} {c t : Nat} {e : TxEntry} (ha : e.aborting = false) (hq : e.qt = 2) :
    entryError d c t e = endEntry d c { e with att := min (e.att + 1) 15, copy := none, since := d.aon.cycles } 4 := by
  unfold entryError
  simp only
  rw [if_neg (by simp [ha]), if_neg (by omega), if_pos hq]

theorem entryError_scheduled {d : Dev} {c : Nat} {e : TxEntry} (ha : e.aborting = false) (hq : e.qt = 0) :
    entryError d c d.tick e = ((putEntry d c
      { e with att := min (e.att + 1) 15, copy := none, st := 4, since := d.aon.cycles }).ist (pCHT c) 1).inc (CHT_ENDCNT_FAILED c) := by
  unfold entryError
  simp only
  rw [if_neg (by simp [ha]), if_pos hq, if_pos trivial]

/-- Settles O37. -/
theorem failedAttemptsAndAging : Obligations.FailedAttemptsAndAging := by
  refine ⟨fun d c t e => entryError_oneShot, fun d c t e ha hq hr hle hatt => ?_, fun d c t e ha hq hr hatt => ?_,
    fun d c e => entryError_scheduled, fun cn e h => if_neg (by omega), fun cn e hq hst hcn => if_pos ⟨hq, hst, hcn⟩,
    fun d c i e => ageDue_none, fun d c e hlt => ageDue_one, fun d c e hlt he hno => ?_, fun d c e hlt he h0 hw hec => ?_⟩
  · rw [entryError_retries ha hq hatt, if_pos ⟨hr, by omega⟩]
  · rw [entryError_retries ha hq hatt, if_neg (by omega)]
  · exact ageEntry_waits_fields hlt he hno
  · obtain ⟨hentry, hprom, hmem⟩ := ageEntry_rises_fields hlt he h0 hw hec
    exact ⟨hentry, by omega, hprom, hmem⟩

end Sys2Proof.Machine
end

section
/-! Wheel slots, copies, expiries and tick-bound work (R134, R140, R208, R210, R329). -/

namespace Sys2Proof.Machine

open Sys2Proof

/-! ### The owner of a free slot (R208) -/

/-- One step of the search for the channel that has waited longest. -/
def longerWait (w : Nat → Option Nat) (best : Option Nat) (i : Nat) : Option Nat :=
  match w i, best with
  | none, _ => best
  | some _, none => some i
  | some t, some j => if t < (w j).getD 0 then some i else best

theorem longest_eq (d : Dev) (h : Nat) : longest d h = (List.range 8).foldl (longerWait fun i => waitSince d (8 * h + i)) none := rfl

/-- Of the channels below `n`, `best` has waited longest, the lowest on a tie. -/
def LongestBelow (w : Nat → Option Nat) (n : Nat) : Option Nat → Prop
  | none => ∀ i < n, w i = none
  | some j => j < n ∧ ∃ t, w j = some t ∧ ∀ i u, i < n → w i = some u → t < u ∨ (t = u ∧ j ≤ i)

theorem longerWait_longest {w : Nat → Option Nat} {n : Nat} {best : Option Nat} (h : LongestBelow w n best) :
    LongestBelow w (n + 1) (longerWait w best n) := by
  unfold longerWait
  cases hn : w n with
  | none =>
    cases best with
    | none =>
      intro i hi
      rcases Nat.lt_succ_iff_lt_or_eq.mp hi with hi | rfl
      · exact h i hi
      · exact hn
    | some j =>
      obtain ⟨hj, t, ht, hall⟩ := h
      refine ⟨by omega, t, ht, fun i u hi hu => ?_⟩
      rcases Nat.lt_succ_iff_lt_or_eq.mp hi with hi | rfl
      · exact hall i u hi hu
      · rw [hn] at hu
        cases hu
  | some t' =>
    cases best with
    | none =>
      refine ⟨by omega, t', hn, fun i u hi hu => ?_⟩
      rcases Nat.lt_succ_iff_lt_or_eq.mp hi with hi | rfl
      · rw [h i hi] at hu
        cases hu
      · rw [hn] at hu
        obtain rfl := Option.some.inj hu
        exact .inr ⟨rfl, Nat.le_refl i⟩
    | some j =>
      obtain ⟨hj, t, ht, hall⟩ := h
      simp only [ht, Option.getD_some]
      by_cases hlt : t' < t
      · rw [if_pos hlt]
        refine ⟨by omega, t', hn, fun i u hi hu => ?_⟩
        rcases Nat.lt_succ_iff_lt_or_eq.mp hi with hi | rfl
        · have := hall i u hi hu
          omega
        · rw [hn] at hu
          obtain rfl := Option.some.inj hu
          exact .inr ⟨rfl, Nat.le_refl i⟩
      · rw [if_neg hlt]
        refine ⟨by omega, t, ht, fun i u hi hu => ?_⟩
        rcases Nat.lt_succ_iff_lt_or_eq.mp hi with hi | rfl
        · exact hall i u hi hu
        · rw [hn] at hu
          obtain rfl := Option.some.inj hu
          omega

theorem foldl_longestBelow (w : Nat → Option Nat) (n : Nat) : LongestBelow w n ((List.range n).foldl (longerWait w) none) := by
  induction n with
  | zero => intro i hi; omega
  | succ n ih =>
    rw [List.range_succ, List.foldl_append]
    exact longerWait_longest ih

theorem slotHolder_longest {d : Dev} {h k j : Nat} (hw : waitSince d (8 * h + k % 8) = none) (hj : slotHolder d h k = some j) :
    j < 8 ∧ ∃ t, waitSince d (8 * h + j) = some t
      ∧ ∀ i u, i < 8 → waitSince d (8 * h + i) = some u → t < u ∨ (t = u ∧ j ≤ i) := by
  have hbest := foldl_longestBelow (fun i => waitSince d (8 * h + i)) 8
  rw [slotHolder, hw, if_neg (by decide), longest_eq] at hj
  rw [hj] at hbest
  exact hbest

/-! ### The turn of the wheel leaves what a piece works on -/

theorem serve_same {β : Type} (g : Dev → β) (ha : ∀ (d : Dev) (a : Aon), g { d with aon := a } = g d)
    (hh : ∀ (d : Dev) (l : List Ham), g { d with hams := l } = g d) {d e : Dev} {c : Nat} {p : Piece} (h : serve d c p = some e) :
    g e = g d := by
  unfold serve at h
  split at h
  · cases h
  · split at h
    · cases h
    · obtain ⟨-, h⟩ := Option.ite_none_right_eq_some.mp h
      obtain rfl := Option.some.inj h
      exact (hh _ _).trans (ha d _)

theorem transmitCopy_served {d e : Dev} {c i : Nat} {x : TxEntry} (ecc : Bool) (hx : d.entry c i = some x)
    (hs : serve d c (.copy i) = some e) : transmitCopy d c i ecc = copyEntry e c x ecc := by
  unfold transmitCopy
  rw [hx]
  simp only [hs]

theorem transmitCopy_idle {d : Dev} {c i : Nat} (ecc : Bool) (hs : serve d c (.copy i) = none) : transmitCopy d c i ecc = d := by
  unfold transmitCopy
  rw [hs]
  split <;> rfl

/-- The entry with the copy that the mill makes of its descriptor (R134). -/
def copied (d : Dev) (e : TxEntry) : TxEntry :=
  { e with
      copy := some ⟨word (d.desc e.idx 0), word (d.desc e.idx 1),
        d.memB (granAddr (bitsOf (d.desc e.idx 2) 16 0)) (bitsOf (d.desc e.idx 1) 25 16)⟩,
      mid := bitsOf (d.desc e.idx 0) 21 0, slot := bitsOf (d.desc e.idx 1) 15 0, retry := bitsOf (d.desc e.idx 1) 31 28,
      ntf := bitOf (d.desc e.idx 1) 27 }

theorem copyEntry_complete {d : Dev} {c : Nat} {e : TxEntry} (hsafe : e.safe = false)
    (hbad : descBad d c (d.desc e.idx 0) (d.desc e.idx 1) (d.desc e.idx 2) e.qt e.c = false)
    (hscope : ∀ n sc, e.owner = some (n, sc) → scopeAdmits sc c (d.desc e.idx 0) = true) :
    copyEntry d c e false = replaced d c (copied d e) := by
  unfold copyEntry
  simp only
  rw [if_neg (by decide), if_neg (by simp [hbad, hsafe])]
  split
  · next s sc ho =>
    rw [if_neg (by rw [hscope s sc ho]; decide)]
    rfl
  · rfl

theorem copyEntry_ecc (d : Dev) (c : Nat) (e : TxEntry) : copyEntry d c e true = raise (endEntry d c e 4) (pCHT c) 1 := by
  unfold copyEntry
  simp only
  rw [if_pos trivial]

theorem oneShotEnd_due {d : Dev} {c i : Nat} {e : TxEntry} (he : d.entry c i = some e) (hq : e.qt = 2) (hst : e.st = 1)
    (hw : e.window ≤ d.tick) :
    oneShotEnd d c i = endEntry (d.advanceTo (d.bell.inst + d.get (CHC_WIN_ARB_END c) * 1000)) c e 5 := by
  unfold oneShotEnd
  rw [he]
  exact if_pos ⟨hq, hst, hw⟩

theorem toMissed_due {d : Dev} {h : Nat} {o : TimedOut} (ho : d.svc.outs.find? (fun o => o.handle == h) = some o)
    (ht : o.tick ≤ d.tick + 1) (hd : o.desc = none) :
    toMissed d h = toEnd (d.advanceTo (d.bell.inst + d.get (CHC_WIN_ARB_END o.ch) * 1000)) h 4 0 := by
  have hh : o.handle = h := by simpa using List.find?_some ho
  unfold toMissed
  simp only [ho]
  rw [if_pos ht, outMissed, hd, hh]

/-! ### The tick-bound work of a channel (R210) -/

section bound
variable {P : Dev → Prop} {c : Nat} (hr : ∀ {d : Dev} (r : List (Nat × Word)), P d → P { d with regs := r })
  (hm : ∀ {d : Dev} (m : List Host.Cell), P d → P { d with mem := m }) (hc : ∀ {d : Dev} (f : Chan → Chan), P d → P (d.modChan c f))
include hr hm hc

theorem endEntry_keeps {d : Dev} (e : TxEntry) (st : Nat) (hd : P d) : P (endEntry d c e st) := by
  have hset : ∀ {d : Dev} (f : Fld) (x : Nat), P d → P (d.set f x) := fun f x h => hr _ h
  have hinc : ∀ {d : Dev} (f : Fld), P d → P (d.inc f) := fun f h => hr _ h
  have hist : ∀ {d : Dev} (p i : Nat), P d → P (d.ist p i) := fun p i h => hr _ h
  have hq : P (unqueued d c e st) := hset _ _ (hset _ _ (hset _ _ (hc _ (hm _ hd))))
  unfold endEntry
  split
  · exact iff_keeps P _ _ _ hq (hist _ _ hq)
  · split
    · exact hinc _ (hist _ _ hq)
    · split
      · exact hinc _ (hist _ _ hq)
      · split
        · exact hinc _ hq
        · exact hq

theorem ageEntry_keeps {d : Dev} (e : TxEntry) (hd : P d) : P (ageEntry d c e) := by
  have hinc : ∀ {d : Dev} (f : Fld), P d → P (d.inc f) := fun f h => hr _ h
  have hist : ∀ {d : Dev} (p i : Nat), P d → P (d.ist p i) := fun p i h => hr _ h
  unfold ageEntry
  simp only
  split
  · exact hist _ _ (hinc _ (hm _ (hc _ hd)))
  · exact hc _ hd

theorem abortEntry_keeps {d : Dev} (e : TxEntry) (hd : P d) : P (abortEntry d c e) := by
  unfold abortEntry
  split
  · exact hc _ hd
  · exact endEntry_keeps hr hm hc e 6 hd

theorem ageDue_keeps {d : Dev} (i : Nat) (hd : P d) : P (ageDue d c i) := by
  refine forEach_keeps P _ _ (fun e _ he => ?_) d hd
  unfold endAttempt
  split
  · exact ageEntry_keeps hr hm hc _ he
  · exact he

/-- The part when the tick-bound work of channel `c` is done, but for the flags of the channel. -/
theorem boundWork_keeps {d : Dev} (hd : P d) :
    ∃ e, P e ∧ boundWork d c = e.modChan c fun x => { x with formed := true, aged := true, descWork := [] } := by
  have hdesc : ∀ {d : Dev} (r : RxDescInit), P d → P (applyDesc d r) := fun r h => hm _ (hm _ (hm _ (hm _ h)))
  unfold boundWork
  refine ⟨_, forEach_keeps P _ _ (fun e a he => abortEntry_keeps hr hm hc a he) _ ?_, rfl⟩
  refine forEach_keeps P _ _ (fun e r he => hdesc r he) _ ?_
  exact forEach_keeps P _ _ (fun e a he => ageDue_keeps hr hm hc a.idx he) d hd

end bound

theorem boundWork_fields {d : Dev} {c : Nat} (hlt : c < d.chans.length) :
    ((boundWork d c).chan c).aged = true ∧ ((boundWork d c).chan c).formed = true ∧ ((boundWork d c).chan c).descWork = []
      ∧ (∀ b, b ≠ c → (boundWork d c).chan b = d.chan b) ∧ (boundWork d c).sess = d.sess ∧ (boundWork d c).aon = d.aon := by
  obtain ⟨e, ⟨hlen, hchan, hsess, haon⟩, he⟩ := boundWork_keeps (c := c)
    (P := fun e => e.chans.length = d.chans.length ∧ (∀ b, b ≠ c → e.chan b = d.chan b) ∧ e.sess = d.sess ∧ e.aon = d.aon)
    (fun _ h => h) (fun _ h => h)
    (fun f h => ⟨(modChan_length _ _ _).trans h.1, fun b hb => (chan_modChan_ne _ hb f).trans (h.2.1 b hb), h.2.2⟩)
    (d := d) ⟨rfl, fun _ _ => rfl, rfl, rfl⟩
  have hsame := chan_modChan_same e c (fun x => { x with formed := true, aged := true, descWork := [] }) (by omega)
  rw [he]
  exact ⟨congrArg Chan.aged hsame, congrArg Chan.formed hsame, congrArg Chan.descWork hsame,
    fun b hb => (chan_modChan_ne _ hb _).trans (hchan b hb), hsess, haon⟩

theorem tickWork_served {d e : Dev} {c : Nat} (hc : d.hasChan c = true) (hs : serve d c .tick = some e) : tickWork d c = boundWork e c := by
  unfold tickWork
  rw [if_neg (by simp [hc])]
  simp only [hs]

theorem tickWork_idle {d : Dev} {c : Nat} (hs : serve d c .tick = none) : tickWork d c = d := by
  unfold tickWork
  split
  · rfl
  · simp only [hs]

/-- Settles O38. -/
theorem copiesExpiriesAndTickWork : Obligations.CopiesExpiriesAndTickWork := by
  refine ⟨fun d h k hw => if_pos hw, fun d h k j => slotHolder_longest, fun s c i e d hp he hs hlt hsafe hbad hscope => ?_,
    fun s c i e d hp he hs => ?_, fun s c i ecc hs => next_self (transmitCopy_idle ecc hs) rfl,
    fun s c i e hp he hq hst hw => next_put hp (oneShotEnd_due he hq hst hw) rfl,
    fun s h o hp ho ht hd => next_put hp (toMissed_due ho ht hd) rfl, fun s c d hp hc hs hlt => ?_,
    fun s c hs => next_self (tickWork_idle hs) rfl⟩
  · obtain rfl := entry_idx he
    have hmem : d.mem = s.dev.mem := serve_same Dev.mem (fun _ _ => rfl) (fun _ _ => rfl) hs
    have hregs : d.regs = s.dev.regs := serve_same Dev.regs (fun _ _ => rfl) (fun _ _ => rfl) hs
    have hdesc : ∀ j, d.desc e.idx j = s.dev.desc e.idx j := fun j => congrArg (fun m => natOf (Memory.getAll m _ 4)) hmem
    have hcopied : copied d e = copied s.dev e := by
      simp only [copied, hdesc, Dev.memB, hmem]
    have hcopy : copyEntry d c e false = replaced d c (copied s.dev e) := by
      rw [copyEntry_complete hsafe, hcopied]
      · rw [hdesc, hdesc, hdesc, ← hbad]
        exact serve_same (fun x => descBad x c _ _ _ e.qt e.c) (fun _ _ => rfl) (fun _ _ => rfl) hs
      · simpa only [hdesc] using hscope
    have hent : d.entry c (copied s.dev e).idx = some e :=
      (serve_same (Dev.entry · c e.idx) (fun _ _ => rfl) (fun _ _ => rfl) hs).trans he
    have hlt' : c < d.chans.length := by
      rw [serve_same (fun x => x.chans.length) (fun _ _ => rfl) (fun _ _ => rfl) hs]
      exact hlt
    exact ⟨s.put (replaced d c (copied s.dev e)), next_put hp ((transmitCopy_served false he hs).trans hcopy) rfl, put_otp s _,
      put_pending s _, hmem, hregs, rfl, rfl, replaced_entry hlt' hent⟩
  · exact next_put hp ((transmitCopy_served true he hs).trans (copyEntry_ecc d c e)) rfl
  · have hlt' : c < d.chans.length := by
      rw [serve_same (fun x => x.chans.length) (fun _ _ => rfl) (fun _ _ => rfl) hs]
      exact hlt
    obtain ⟨haged, hformed, hwork, hchan, hsess, haon⟩ := boundWork_fields hlt'
    refine ⟨s.put (boundWork d c), next_put hp (tickWork_served hc hs) rfl, put_otp s _, put_pending s _, haged, hformed, hwork,
      fun b hb => (hchan b hb).trans ?_, hsess.trans ?_, haon⟩
    · exact serve_same (Dev.chan · b) (fun _ _ => rfl) (fun _ _ => rfl) hs
    · exact serve_same Dev.sess (fun _ _ => rfl) (fun _ _ => rfl) hs

end Sys2Proof.Machine
end

section
/-! The attempt of an entry whose class is none (R135, R141). -/

namespace Sys2Proof.Machine

open Sys2Proof

/-- A copy of a frame of FT 1 and MID 0x123 without payload. -/
def wideCopy : TxCopy := ⟨word (2 ^ 25 + 0x123), 0#32, []⟩

/-- An entry of effective class 8, which word 3 of its descriptor has no room for. -/
def wideEntry : TxEntry :=
  { idx := 0x20, qt := 1, c := 5, ec := 8, mid := 0x123, slot := 0, retry := 3, ntf := false, w := 0, att := 0, proms := 0, st := 1,
    copy := some wideCopy, pushed := 0, since := 0, due := 0, owner := none, window := 0, handle := none, safe := false,
    keyFrame := false, aborting := false }

/-- A head whose channel 0 runs after its bell, with an arbitrated window of 900 us and `wideEntry` in its queue. -/
def wideState : State :=
  let d := ((State.reset.dev.set (PG_CTL_EN 0x100) 1).set (PG_CTL_EN 0x101) 1).set (CHC_WIN_ARB_END 0) 900
  let d := (d.set TWIN_STAT_ROLE 1).modChan 0 fun x => { x with bell := .sent, tx := [wideEntry] }
  State.reset.put { d with bell := { d.bell with started := true } }

/-- The head starts the frame of `wideEntry` 300 us after the bell. -/
def wideAttempt : Attempt := ⟨.start, 300000, 400000, .delivered, false⟩

/-- ST of descriptor `i` in the next state of an outcome. -/
def statusAfter (o : Host.Outcome State Fault Refusal) (i : Nat) : Nat :=
  match o with
  | .next t => bitsOf (t.dev.desc i 3) 31 28
  | _ => 0

theorem wideAttempt_started :
    let s := wideState
    s.dev.powered = true ∧ mayStart s.dev 0 300000 = true ∧ 0 < s.dev.chans.length
      ∧ chooseEntry (skipPassed s.dev 0 300000) 0 300000 = some wideEntry
      ∧ (skipPassed s.dev 0 300000).entry 0 wideEntry.idx = some wideEntry := by
  decide +kernel

theorem wideAttempt_status : statusAfter (exec (.frameAttempt 0 wideAttempt) wideState) wideEntry.idx = 3 := by
  decide +kernel

/-- Refutes O36: the statement bounds the class of no entry. With EC = 8 the class runs over into ST of word 3, and the entry
that the head starts shows 3 and not 2. -/
theorem not_attemptsRunToTheirEnd : ¬ Obligations.AttemptsRunToTheirEnd := by
  intro h
  obtain ⟨-, -, hstart, -⟩ := h
  obtain ⟨hp, hmay, hlt, hchoose, hentry⟩ := wideAttempt_started
  obtain ⟨t, tag, ht, -, -, -, -, -, -, hst, -⟩ := hstart wideState 0 wideAttempt wideEntry wideCopy hp rfl hmay (by decide)
    hchoose hentry rfl hlt
  have hthree := wideAttempt_status
  rw [ht] at hthree
  exact absurd (hst.symm.trans hthree) (by decide)

end Sys2Proof.Machine
end

section
/-! Verdicts and placement of received frames (R151, R162, R172 to R182, R232 to R242). -/

namespace Sys2Proof.Machine

open Sys2Proof

/-! ### The verdict (R151, R235) -/

theorem fenceCheck_reason (d : Dev) (c : Nat) (f : RxFrame) (win : Option (Nat × Nat)) :
    (fenceCheck d c f win).1 = if fenced d c f.src then 5 else 0 := by
  unfold fenceCheck
  split <;> rfl

theorem pairGt_iff (a b : Nat × Nat) : pairGt a b = true ↔ b.1 < a.1 ∨ (a.1 = b.1 ∧ b.2 < a.2) := by
  simp [pairGt]

section verdict
variable {d : Dev} {c : Nat} {f : RxFrame} (hc : f.copiesDiffer = false)
include hc

theorem verdict_untagged (ha : f.a = false) :
    verdict d c f = if d.get (CHX_AUTHCFG_ENFORCE c) = 1 ∧ bitOf (d.get (CHX_AUTHCFG_PROT c)) f.ft = true then (1, none)
      else fenceCheck d c f none := by
  rw [verdict, if_neg (by simp [hc]), if_pos ha]

theorem verdict_noKey (ha : f.a = true) (hs : candSlots d c f = []) : verdict d c f = (4, none) := by
  rw [verdict, if_neg (by simp [hc]), if_neg (by simp [ha]), if_pos hs]

theorem verdict_tagged (ha : f.a = true) (hs : candSlots d c f ≠ []) :
    verdict d c f = match winner d c f with
      | none => (2, none)
      | some kt => if pairGt (kt.2, f.seq) (lastPair d c f.src) = true then fenceCheck d c f (some kt) else (3, none) := by
  rw [verdict, if_neg (by simp [hc]), if_neg (by simp [ha]), if_neg hs] <;> rfl

theorem verdict_winner {k t : Nat} (ha : f.a = true) (hs : candSlots d c f ≠ []) (hw : winner d c f = some (k, t)) :
    verdict d c f = if pairGt (t, f.seq) (lastPair d c f.src) = true then fenceCheck d c f (some (k, t)) else (3, none) := by
  rw [verdict_tagged hc ha hs, hw]

end verdict

theorem candTicks_mem {d : Dev} {f : RxFrame} {t : Nat} (h : t ∈ candTicks d f) : t = sofTick d f ∨ t + 1 = sofTick d f := by
  unfold candTicks at h
  split at h
  · rw [List.mem_singleton] at h
    omega
  · simp only [List.mem_cons, List.not_mem_nil, or_false] at h
    omega

theorem slotKey_retired {d : Dev} {c n : Nat} {k : EpKey} (h : slotKey d c n = some k) : k.retired = false := by
  have := (Option.filter_eq_some_iff.mp h).2
  simpa using this

/-- Settles O39. -/
theorem verdictFollowsTheChecksInOrder : Obligations.VerdictFollowsTheChecksInOrder := by
  refine ⟨fun d c f hc => ?_, fun d c f hc ha he hp => ?_, fun d c f hc ha hno => ?_, fun d c f hc ha hs => ?_,
    fun d c f hc ha hs hw => ?_, fun d c f k t hc ha hs hw hgt => ?_, fun d c f k t hc ha hs hw hgt => ?_, fun d c f n t hw => ?_⟩
  · rw [verdict, if_pos hc]
  · rw [verdict_untagged hc ha, if_pos ⟨he, hp⟩]
  · rw [verdict_untagged hc ha, if_neg hno, fenceCheck_reason]
  · rw [verdict_noKey hc ha hs]
  · rw [verdict_tagged hc ha hs, hw]
  · rw [verdict_winner hc ha hs hw, if_pos ((pairGt_iff _ _).mpr (by omega)), fenceCheck_reason]
  · rw [verdict_winner hc ha hs hw, if_neg (by rw [pairGt_iff]; omega)]
  · have hmem := List.mem_of_find?_eq_some hw
    have htag := List.find?_some hw
    obtain ⟨t', ht', hk⟩ := List.mem_flatMap.mp hmem
    obtain ⟨k', hk', he⟩ := List.mem_map.mp hk
    obtain ⟨rfl, rfl⟩ := Prod.mk.inj he
    refine ⟨candTicks_mem ht', hk', ?_⟩
    simp only at htag
    split at htag
    · next k hkey => exact ⟨k, hkey, slotKey_retired hkey, by simpa using htag⟩
    · cases htag

/-! ### Words of a descriptor -/

theorem natOf_lt (l : List Byte) : natOf l < 256 ^ l.length := by
  induction l with
  | nil => simp [natOf]
  | cons b l ih =>
    have hb : b.toNat < 256 := b.isLt
    rw [natOf_cons, List.length_cons, Nat.pow_succ]
    have := Nat.mul_le_mul_right (256 ^ l.length) (Nat.le_of_lt_succ hb)
    omega

theorem getAll_length (m : List Host.Cell) (a n : Nat) : (Memory.getAll m a n).length = n := by
  induction n generalizing a with
  | zero => rfl
  | succ n ih => rw [Memory.getAll, List.length_cons, ih]

theorem desc_lt (d : Dev) (i j : Nat) : d.desc i j < 2 ^ 32 := by
  have h := natOf_lt (Memory.getAll d.mem (16 * i + 4 * j) 4)
  rw [getAll_length] at h
  exact h

/-! ### Placement in a receive descriptor (R172 to R177) -/

/-- The descriptor's range and layout are those of R172. -/
def Placeable (d : Dev) (c i : Nat) : Prop :=
  d.get (CHX_RXRANGE_BASE c) ≤ i ∧ i < d.get (CHX_RXRANGE_BASE c) + d.get (CHX_RXRANGE_CNT c) ∧ bitsOf (d.desc i 0) 31 30 < 2
    ∧ bitsOf (d.desc i 0) 23 16 ≠ 0 ∧ bitsOf (d.desc i 0) 9 0 ≤ 512
    ∧ bitsOf (d.desc i 1) 16 0 + bitsOf (d.desc i 0) 23 16 * ((bitsOf (d.desc i 0) 9 0 + 63) / 64) ≤ 98304

theorem placeable_check {d : Dev} {c i : Nat} (h : Placeable d c i) :
    ¬ (i < d.get (CHX_RXRANGE_BASE c) ∨ d.get (CHX_RXRANGE_BASE c) + d.get (CHX_RXRANGE_CNT c) ≤ i
      ∨ 2 ≤ bitsOf (d.desc i 0) 31 30 ∨ bitsOf (d.desc i 0) 23 16 = 0 ∨ 512 < bitsOf (d.desc i 0) 9 0
      ∨ 98304 < bitsOf (d.desc i 1) 16 0 + bitsOf (d.desc i 0) 23 16 * ((bitsOf (d.desc i 0) 9 0 + 63) / 64)) := by
  obtain ⟨h1, h2, h3, h4, h5, h6⟩ := h
  omega

theorem placeBuf_ecc {d : Dev} {c i : Nat} (x : Held) (h : Placeable d c i) : placeBuf d c i x true = (raise d (pCHX c) 1, none) := by
  unfold placeBuf
  simp only
  rw [if_neg (placeable_check h), if_pos trivial]

/-- The part with a frame lost at a full descriptor (R175). -/
def overflowed (d : Dev) (c i : Nat) : Dev :=
  ((d.inc (CHX_OVFCNT_OVF c)).ist (pCHX c) 1).setDesc i 3 (putBits (d.desc i 3) 7 0 (min (bitsOf (d.desc i 3) 7 0 + 1) 255))

theorem placeBuf_full {d : Dev} {c i : Nat} (x : Held) (h : Placeable d c i)
    (hfull : bitsOf (d.desc i 0) 23 16 ≤ bitsOf (d.desc i 3) 15 8) (hovw : bitOf (d.desc i 0) 29 = false) :
    placeBuf d c i x false = (overflowed d c i, none) := by
  unfold placeBuf
  simp only
  rw [if_neg (placeable_check h), if_neg (by decide), if_pos ⟨hfull, hovw⟩, decide_eq_true hfull, if_pos hfull]
  rfl

theorem ovfcnt_ne_ist (c : Nat) : (CHX_OVFCNT_OVF c).key ≠ PG_IST (pCHX c) := by
  simp only [CHX_OVFCNT_OVF, CHX_OVFCNT, PG_IST, pCHX, rkey]
  omega

theorem bit_setDesc (d : Dev) (i j x k n : Nat) : (d.setDesc i j x).bit k n = d.bit k n := rfl

theorem overflowed_fields (d : Dev) (c i : Nat) :
    bitsOf ((overflowed d c i).desc i 3) 7 0 = min (bitsOf (d.desc i 3) 7 0 + 1) 255
      ∧ bitsOf ((overflowed d c i).desc i 3) 31 8 = bitsOf (d.desc i 3) 31 8
      ∧ (overflowed d c i).get (CHX_OVFCNT_OVF c) = min (d.get (CHX_OVFCNT_OVF c) + 1) (fldTop (CHX_OVFCNT_OVF c))
      ∧ (overflowed d c i).bit (PG_IST (pCHX c)) 1 = true
      ∧ (∀ a, ¬ (16 * i + 12 ≤ a ∧ a < 16 * i + 16) → Memory.get (overflowed d c i).mem a = Memory.get d.mem a) := by
  have hw3 : (overflowed d c i).desc i 3 = putBits (d.desc i 3) 7 0 (min (bitsOf (d.desc i 3) 7 0 + 1) 255) := by
    rw [overflowed, desc_setDesc_same]
    exact Nat.mod_eq_of_lt (putBits_lt _ _ _ _ _ (by decide) (by decide) (desc_lt d i 3))
  refine ⟨?_, ?_, ?_, ?_, fun a ha => ?_⟩
  · rw [hw3, bitsOf_putBits _ _ _ _ (by decide)]
    exact Nat.mod_eq_of_lt (by omega)
  · rw [hw3, bitsOf_putBits_other _ _ _ _ _ _ (by decide) (.inl (by decide))]
  · rw [overflowed, get_setDesc, get_of_getW (getW_ist_ne _ (ovfcnt_ne_ist c)), get_inc_same _ _ rfl]
  · rw [overflowed, bit_setDesc]
    exact (bit_setBit _ (PG_IST (pCHX c)) 1 1 true (by decide)).trans (if_pos rfl)
  · rw [overflowed, get_setDesc_out (by omega), ist_mem, inc_mem]

/-- The payload takes its granules, and they alone (R173). -/
theorem putPayload_fields (d : Dev) (g : Nat) (l : List Byte) :
    Memory.getAll (putPayload d g l).mem (granAddr g) l.length = l
      ∧ (∀ a, ¬ (granAddr g ≤ a ∧ a < granAddr g + (l.length + 63) / 64 * 64) →
          Memory.get (putPayload d g l).mem a = Memory.get d.mem a) := by
  unfold putPayload
  simp only
  split
  · next h =>
    exact ⟨getAll_putAll _ _ _, fun a ha => get_putAll_out _ _ _ _ (by omega)⟩
  · next h =>
    generalize hfill : ((List.range ((l.length + 63) / 64 * 64 - l.length)).map
      fun i => Config.freeByte d.fresh (granAddr g + l.length + i)) = fill
    have hlen : fill.length = (l.length + 63) / 64 * 64 - l.length := by rw [← hfill, List.length_map, List.length_range]
    refine ⟨?_, fun a ha => ?_⟩
    · show Memory.getAll (Memory.putAll d.mem (granAddr g) (l ++ fill)) (granAddr g) l.length = l
      rw [putAll_append, getAll_putAll_out (.inl (Nat.le_refl _)), getAll_putAll]
    · exact get_putAll_out _ _ _ _ (by rw [List.length_append, hlen]; omega)

/-- Word 3 of a descriptor after a placement in slot `wr` (R172). -/
def placedW3 (wr depth rd fill ovf : Nat) : Nat := (wr + 1) % depth * 2 ^ 24 + rd * 2 ^ 16 + fill * 2 ^ 8 + ovf

theorem placedW3_fields {wr depth rd fill ovf : Nat} (hd : depth < 256) (h0 : depth ≠ 0) (hrd : rd < 256) (hfill : fill < 256)
    (hovf : ovf < 256) :
    bitsOf (placedW3 wr depth rd fill ovf % 2 ^ 32) 31 24 = (wr + 1) % depth ∧ bitsOf (placedW3 wr depth rd fill ovf % 2 ^ 32) 15 8 = fill
      ∧ bitsOf (placedW3 wr depth rd fill ovf % 2 ^ 32) 23 16 = rd ∧ bitsOf (placedW3 wr depth rd fill ovf % 2 ^ 32) 7 0 = ovf := by
  have hnext : (wr + 1) % depth < depth := Nat.mod_lt _ (Nat.pos_of_ne_zero h0)
  obtain ⟨n, hn⟩ : ∃ n, n = (wr + 1) % depth := ⟨_, rfl⟩
  rw [← hn] at hnext
  simp only [placedW3, ← hn, bitsOf]
  omega

/-- The head of a slot (R172). -/
def slotHead (x : Held) : List Byte :=
  bytesOf (slotW0 x.f x.late) ++ bytesOf (x.f.seq * 2 ^ 16 + x.f.len) ++ bytesOf (x.tick % 2 ^ 32) ++ bytesOf x.ns

theorem slotHead_length (x : Held) : (slotHead x).length = 16 := rfl

/-- The granule of slot `wr` of descriptor `i`. -/
def slotGran (d : Dev) (i wr : Nat) : Nat := bitsOf (d.desc i 1) 16 0 + wr * ((bitsOf (d.desc i 0) 9 0 + 63) / 64)

/-- The part with a frame in slot `wr` of descriptor `i`, and its word 3 left. -/
def slotFilled (d : Dev) (i wr : Nat) (x : Held) : Dev :=
  (putPayload d (slotGran d i wr) x.f.payload).setMemB (d.desc i 2 + 16 * wr) (slotHead x)

/-- The part with a frame placed in slot `wr` of descriptor `i` of channel `c`, where a slot was free. -/
def placed (d : Dev) (c i wr : Nat) (x : Held) : Dev :=
  ((slotFilled d i wr x).setDesc i 3 (placedW3 wr (bitsOf (d.desc i 0) 23 16) (bitsOf (d.desc i 3) 23 16)
    (bitsOf (d.desc i 3) 15 8 + 1) (bitsOf (d.desc i 3) 7 0))).inc (CHX_RXCNT_COUNT c)

theorem putPayload_desc {d : Dev} {g i j : Nat} (l : List Byte) (hi : i < 2 ^ 14) (hj : j < 4) :
    (putPayload d g l).desc i j = d.desc i j := by
  refine congrArg natOf (getAll_congr fun a h1 h2 => (putPayload_fields d g l).2 a ?_)
  simp only [granAddr]
  omega

theorem placeBuf_free {d : Dev} {c i : Nat} {x : Held} (h : Placeable d c i) (hi : i < 2 ^ 14)
    (hfree : bitsOf (d.desc i 3) 15 8 < bitsOf (d.desc i 0) 23 16) (hlen : x.f.payload.length = x.f.len)
    (hmax : x.f.len ≤ bitsOf (d.desc i 0) 9 0) :
    placeBuf d c i x false = ((placed d c i (bitsOf (d.desc i 3) 31 24) x).iff (bitOf (d.desc i 0) 28) (fun d => d.ist (pCHX c) 0),
      some (bitsOf (d.desc i 3) 31 24)) := by
  have hnot : ¬ bitsOf (d.desc i 0) 23 16 ≤ bitsOf (d.desc i 3) 15 8 := by omega
  have hno : ¬ bitsOf (d.desc i 0) 9 0 < x.f.len := by omega
  have htake : x.f.payload.take x.f.len = x.f.payload := List.take_of_length_le (by omega)
  unfold placeBuf
  simp only
  rw [if_neg (placeable_check h), if_neg (by decide), if_neg fun h => hnot h.1, decide_eq_false hnot, decide_eq_false hno,
    Nat.min_eq_left hmax, htake]
  simp only [iff_false, if_neg hnot, b2n, Bool.false_eq_true, if_false, Nat.zero_mul, Nat.add_zero]
  have hhd : natOf ((putPayload d (slotGran d i (bitsOf (d.desc i 3) 31 24)) x.f.payload).memB (16 * i + 8) 4) = d.desc i 2 :=
    putPayload_desc (j := 2) _ hi (by decide)
  unfold slotGran at hhd
  rw [hhd]
  rfl

theorem iff_ist_mem (d : Dev) (b : Bool) (p i : Nat) : (d.iff b fun d => d.ist p i).mem = d.mem := by cases b <;> rfl

theorem iff_ist_getW {d : Dev} {p k : Nat} (b : Bool) (i : Nat) (h : k ≠ PG_IST p) : (d.iff b fun d => d.ist p i).getW k = d.getW k := by
  cases b
  · rfl
  · exact getW_ist_ne _ h

/-- The bytes of a placement: the head of the slot, the payload, and no other but word 3 of the descriptor. -/
theorem placed_mem {d : Dev} {c i wr : Nat} {x : Held} (hi : i < 2 ^ 14) (hhd : 0x40000 ≤ d.desc i 2 + 16 * wr) :
    Memory.getAll (placed d c i wr x).mem (d.desc i 2 + 16 * wr) 16 = slotHead x
      ∧ (d.desc i 2 + 16 * wr + 16 ≤ granAddr (slotGran d i wr)
          ∨ granAddr (slotGran d i wr) + x.f.payload.length ≤ d.desc i 2 + 16 * wr →
        Memory.getAll (placed d c i wr x).mem (granAddr (slotGran d i wr)) x.f.payload.length = x.f.payload)
      ∧ (∀ a, ¬ (granAddr (slotGran d i wr) ≤ a ∧ a < granAddr (slotGran d i wr) + (x.f.payload.length + 63) / 64 * 64) →
          ¬ (16 * i + 12 ≤ a ∧ a < 16 * i + 16) → ¬ (d.desc i 2 + 16 * wr ≤ a ∧ a < d.desc i 2 + 16 * wr + 16) →
          Memory.get (placed d c i wr x).mem a = Memory.get d.mem a) := by
  obtain ⟨hpay, hout⟩ := putPayload_fields d (slotGran d i wr) x.f.payload
  have hgran : 0x400000 ≤ granAddr (slotGran d i wr) := by simp only [granAddr]; omega
  have hdesc : ∀ {a n : Nat}, 16 * i + 16 ≤ a → Memory.getAll (placed d c i wr x).mem a n = Memory.getAll (slotFilled d i wr x).mem a n := by
    intro a n ha
    exact getAll_putAll_out (.inr (by rw [bytesOf_length]; omega))
  refine ⟨?_, fun hdis => ?_, fun a h1 h2 h3 => ?_⟩
  · rw [hdesc (by omega)]
    exact getAll_putAll _ _ (slotHead x)
  · rw [hdesc (by omega)]
    refine (getAll_putAll_out ?_).trans hpay
    rw [slotHead_length]
    omega
  · refine (get_setDesc_out (d := slotFilled d i wr x) (j := 3) (by omega)).trans ?_
    refine (get_putAll_out _ _ _ _ ?_).trans (hout a h1)
    rw [slotHead_length]
    omega

theorem placed_desc (d : Dev) (c i wr : Nat) (x : Held) :
    (placed d c i wr x).desc i 3 = placedW3 wr (bitsOf (d.desc i 0) 23 16) (bitsOf (d.desc i 3) 23 16)
      (bitsOf (d.desc i 3) 15 8 + 1) (bitsOf (d.desc i 3) 7 0) % 2 ^ 32 := by
  rw [placed, same_inc (Dev.desc · i 3) (fun _ _ => rfl), desc_setDesc_same]

theorem putPayload_get (d : Dev) (g : Nat) (l : List Byte) (f : Fld) : (putPayload d g l).get f = d.get f := by
  unfold putPayload
  simp only
  split <;> rfl

theorem slotFilled_get (d : Dev) (i wr : Nat) (x : Held) (f : Fld) : (slotFilled d i wr x).get f = d.get f :=
  putPayload_get d _ _ f

theorem placed_count (d : Dev) (c i wr : Nat) (x : Held) :
    (placed d c i wr x).get (CHX_RXCNT_COUNT c) = min (d.get (CHX_RXCNT_COUNT c) + 1) (fldTop (CHX_RXCNT_COUNT c)) := by
  rw [placed, get_inc_same _ _ rfl, get_setDesc, slotFilled_get]

theorem rxcnt_ne_ist (c : Nat) : (CHX_RXCNT_COUNT c).key ≠ PG_IST (pCHX c) := by
  simp only [CHX_RXCNT_COUNT, CHX_RXCNT, PG_IST, pCHX, rkey]
  omega

/-- Settles O41. -/
theorem placementFillsASlotOrDropsTheNewest : Obligations.PlacementFillsASlotOrDropsTheNewest := by
  refine ⟨?_, ?_, fun d c i x h1 h2 h3 h4 h5 h6 => placeBuf_ecc x ⟨h1, h2, h3, h4, h5, h6⟩⟩
  · intro d c i x
    simp only
    intro h1 h2 h3 h4 h5 h6 hfree hwr hi hhd hlen hmax
    have hfree' := placeBuf_free ⟨h1, h2, h3, h4, h5, h6⟩ hi hfree hlen hmax
    obtain ⟨hhead, hpay, hframe⟩ := placed_mem (c := c) (x := x) hi hhd
    have hdepth : bitsOf (d.desc i 0) 23 16 < 256 := bitsOf_lt _ _ _
    obtain ⟨gwr, gfill, grd, govf⟩ := placedW3_fields (wr := bitsOf (d.desc i 3) 31 24) hdepth h4 (bitsOf_lt (d.desc i 3) 23 16)
      (show bitsOf (d.desc i 3) 15 8 + 1 < 256 by omega) (bitsOf_lt (d.desc i 3) 7 0)
    rw [hfree']
    have hmem := iff_ist_mem (placed d c i (bitsOf (d.desc i 3) 31 24) x) (bitOf (d.desc i 0) 28) (pCHX c) 0
    have hcnt := iff_ist_getW (d := placed d c i (bitsOf (d.desc i 3) 31 24) x) (bitOf (d.desc i 0) 28) 0 (rxcnt_ne_ist c)
    generalize hr : (placed d c i (bitsOf (d.desc i 3) 31 24) x).iff (bitOf (d.desc i 0) 28) (fun d => d.ist (pCHX c) 0) = r at *
    have hdesc : r.desc i 3 = _ := (congrArg (fun m => natOf (Memory.getAll m (16 * i + 4 * 3) 4)) hmem).trans (placed_desc d c i _ x)
    rw [hdesc, hmem]
    rw [hlen] at hpay hframe
    exact ⟨rfl, gwr, gfill, grd, govf, (get_of_getW hcnt).trans (placed_count _ _ _ _ _), hhead, hpay, hframe⟩
  · intro d c i x
    simp only
    intro h1 h2 h3 h4 h5 h6 hfull hovw
    rw [placeBuf_full x ⟨h1, h2, h3, h4, h5, h6⟩ hfull hovw]
    exact ⟨rfl, overflowed_fields d c i⟩

/-! ### The oldest held frame, and releases (R162, R174, R182, R209) -/

theorem placement_idle {d : Dev} {c : Nat} {e : MemErr} (h : d.hasChan c = false ∨ d.get DEV_VIGSTAT_STATE ≠ 0 ∨ serve d c .frame = none) :
    placement d c e = d := by
  unfold placement
  split
  · rfl
  · next hno =>
    obtain ⟨hc, hv⟩ := not_or.mp hno
    have hs : serve d c .frame = none := (h.resolve_left hc).resolve_left hv
    simp only [hs]

theorem placement_served {d e : Dev} {c : Nat} {k : MemErr} {x : Held} {l : List Held} (hc : d.hasChan c = true)
    (hv : d.get DEV_VIGSTAT_STATE = 0) (hs : serve d c .frame = some e) (hh : (d.chan c).hold = x :: l) :
    placement d c k
      = (let e := if x.reason ≠ 0 then pinfold (e.modChan c fun y => { y with hold := l }) c x
           else placeAccepted (e.modChan c fun y => { y with hold := l }) c x k
         { e with bell := { e.bell with closed := e.nowNs } }) := by
  have hhold : (e.chan c).hold = x :: l := (serve_same (fun d => (d.chan c).hold) (fun _ _ => rfl) (fun _ _ => rfl) hs).trans hh
  unfold placement
  rw [if_neg (by simp [hc, hv])]
  simp only [hs]
  unfold placeHeld
  rw [hhold]

theorem writeChan_rxrel (d : Dev) (w : Who) (c v : Nat) : writeChan d w (pCHX c) 0x04C v = rxrelOp d c (bitsOf v 13 0) (bitsOf v 31 24) := by
  have hm := chan_page_mod c 2 (by decide)
  have hp := pageChan_chan c 2 (by decide)
  unfold writeChan pCHX
  simp [hm, hp]

theorem exec_rxrel {s : State} {w : Who} {c idx n : Nat} (hc : s.dev.hasChan c = true) (hi : idx < 2 ^ 14) (hn : n < 256)
    (ha : Admits s w 1 (regAddr (pCHX c) 0x04C) [n * 2 ^ 24 + idx]) :
    exec (.rxrel w c idx n) s = .next (s.put (rxrelOp s.dev c idx n)) := by
  have he : exec (.rxrel w c idx n) s = regWrite s w (regAddr (pCHX c) 0x04C) (n % 2 ^ 8 * 2 ^ 24 + idx % 2 ^ 14) := rfl
  have hlow : bitsOf (n * 2 ^ 24 + idx) 13 0 = idx := by simp only [bitsOf]; omega
  have hhigh : bitsOf (n * 2 ^ 24 + idx) 31 24 = n := by simp only [bitsOf]; omega
  rw [he, Nat.mod_eq_of_lt hi, Nat.mod_eq_of_lt (show n < 2 ^ 8 by omega)]
  refine (chan_write 2 hc (by decide) (by decide) (by decide) (by decide) ha).trans ?_
  exact congrArg (fun d => Host.Outcome.next (s.put d)) ((writeChan_rxrel _ _ _ _).trans (by rw [hlow, hhigh]))

/-- Word 3 of a descriptor with `m` slots released. -/
def releasedW3 (w3 depth m : Nat) : Nat := putBits (putBits w3 23 16 ((bitsOf w3 23 16 + m) % depth)) 15 8 (bitsOf w3 15 8 - m)

theorem releasedW3_fields {w3 depth m : Nat} (hw : w3 < 2 ^ 32) (h0 : depth ≠ 0) (hd : depth < 256) :
    bitsOf (releasedW3 w3 depth m % 2 ^ 32) 15 8 = bitsOf w3 15 8 - m
      ∧ bitsOf (releasedW3 w3 depth m % 2 ^ 32) 23 16 = (bitsOf w3 23 16 + m) % depth
      ∧ bitsOf (releasedW3 w3 depth m % 2 ^ 32) 31 24 = bitsOf w3 31 24
      ∧ bitsOf (releasedW3 w3 depth m % 2 ^ 32) 7 0 = bitsOf w3 7 0 := by
  have hlt : releasedW3 w3 depth m < 2 ^ 32 :=
    putBits_lt _ _ _ _ _ (by decide) (by decide) (putBits_lt _ _ _ _ _ (by decide) (by decide) hw)
  have hfill : bitsOf w3 15 8 < 256 := bitsOf_lt _ _ _
  have hrd : (bitsOf w3 23 16 + m) % depth < depth := Nat.mod_lt _ (Nat.pos_of_ne_zero h0)
  rw [Nat.mod_eq_of_lt hlt, releasedW3]
  refine ⟨?_, ?_, ?_, ?_⟩
  · rw [bitsOf_putBits _ _ _ _ (by decide)]
    exact Nat.mod_eq_of_lt (by omega)
  · rw [bitsOf_putBits_other _ _ _ _ _ _ (by decide) (.inl (by decide)), bitsOf_putBits _ _ _ _ (by decide)]
    exact Nat.mod_eq_of_lt (by omega)
  · rw [bitsOf_putBits_other _ _ _ _ _ _ (by decide) (.inl (by decide)), bitsOf_putBits_other _ _ _ _ _ _ (by decide) (.inl (by decide))]
  · rw [bitsOf_putBits_other _ _ _ _ _ _ (by decide) (.inr (by decide)), bitsOf_putBits_other _ _ _ _ _ _ (by decide) (.inr (by decide))]

theorem rxrelOp_eq {d : Dev} {c i n : Nat} (h1 : d.get (CHX_RXRANGE_BASE c) ≤ i)
    (h2 : i < d.get (CHX_RXRANGE_BASE c) + d.get (CHX_RXRANGE_CNT c)) (h0 : bitsOf (d.desc i 0) 23 16 ≠ 0) :
    rxrelOp d c i n = d.setDesc i 3 (releasedW3 (d.desc i 3) (bitsOf (d.desc i 0) 23 16) (min n (bitsOf (d.desc i 3) 15 8))) := by
  unfold rxrelOp
  rw [if_neg (by omega)]
  exact if_neg h0

theorem writeReg_ham (o : Otp) (d : Dev) (w : Who) {h : Nat} (v : Nat) (hh : h < 8) :
    writeReg o d w (pHAM h) 0x10C v = pfpopOp d h (bitsOf v 6 0) := by
  unfold writeReg pHAM
  rw [if_neg (by decide), if_neg (by omega), if_pos (by omega), if_neg (by decide), if_pos rfl, Nat.add_sub_cancel_left]

theorem hasHam_lt {d : Dev} {h : Nat} (hh : d.hasHam h = true) : h < 8 := by
  have h1 : Variant.hamlets d.part ≤ 8 := by cases d.part <;> decide
  have h2 : h < Variant.hamlets d.part := by simpa [Dev.hasHam] using hh
  omega

theorem exec_pfpop {s : State} {w : Who} {h n : Nat} (hh : s.dev.hasHam h = true) (hn : n < 128)
    (ha : Admits s w 1 (regAddr (pHAM h) 0x10C) [n]) : exec (.pfpop w h n) s = .next (s.put (pfpopOp s.dev h n)) := by
  have hlt := hasHam_lt hh
  have he : exec (.pfpop w h n) s = regWrite s w (regAddr (pHAM h) 0x10C) (n % 2 ^ 7) := rfl
  have hrow : (regRow (pHAM h) 0x10C).isSome = true := by
    rw [regRow_ham h _ hlt (by decide)]
    decide
  rw [he, Nat.mod_eq_of_lt (show n < 2 ^ 7 from hn), regWrite_admitted ha (populated_ham hh) (by decide) hrow (by simp [pHAM]), writeReg_ham _ _ _ _ hlt,
    bitsOf_of_lt hn]

theorem pfstat_apart (h : Nat) : (HAM_PFSTAT_FILL h).apart (HAM_PFSTAT_RD h) = true ∧ (HAM_PFSTAT_FILL h).apart (HAM_PFSTAT_LOST h) = true
    ∧ (HAM_PFSTAT_RD h).apart (HAM_PFSTAT_LOST h) = true ∧ (HAM_PFSTAT_RD h).apart (HAM_PFSTAT_FILL h) = true := by
  simp [Fld.apart, HAM_PFSTAT_FILL, HAM_PFSTAT_RD, HAM_PFSTAT_LOST]

theorem pfpopOp_fields (d : Dev) (h n : Nat) :
    let m := min n (d.get (HAM_PFSTAT_FILL h))
    (pfpopOp d h n).mem = d.mem ∧ (pfpopOp d h n).get (HAM_PFSTAT_FILL h) = d.get (HAM_PFSTAT_FILL h) - m
      ∧ (pfpopOp d h n).get (HAM_PFSTAT_RD h) = (d.get (HAM_PFSTAT_RD h) + m) % 64
      ∧ (pfpopOp d h n).get (HAM_PFSTAT_LOST h) = d.get (HAM_PFSTAT_LOST h)
      ∧ (∀ k, k ≠ HAM_PFSTAT h → (pfpopOp d h n).getW k = d.getW k) := by
  obtain ⟨hfr, hfl, hrl, hrf⟩ := pfstat_apart h
  have hfill := get_lt d (HAM_PFSTAT_FILL h)
  simp only [HAM_PFSTAT_FILL] at hfill
  unfold pfpopOp
  simp only
  refine ⟨rfl, ?_, ?_, ?_, fun k hk => ?_⟩
  · rw [get_set_same _ _ _ rfl]
    simp only [HAM_PFSTAT_FILL]
    omega
  · rw [get_set_apart _ _ _ _ rfl hfr, get_set_same _ _ _ rfl]
    simp only [HAM_PFSTAT_RD]
    omega
  · rw [get_set_apart _ _ _ _ rfl hfl, get_set_apart _ _ _ _ rfl hrl]
  · rw [getW_set_ne _ _ _ hk, getW_set_ne _ _ _ hk]

/-- Settles O42. -/
theorem placementTakesAndReleasesFree : Obligations.PlacementTakesAndReleasesFree := by
  refine ⟨fun s c k x l d hp hc hv hs hh => next_put hp (placement_served hc hv hs hh) rfl,
    fun s c k h => next_self (placement_idle h) rfl, fun s w c idx n hc hi hn ha h1 h2 h0 => ?_, fun s w h n hh hn ha => ?_⟩
  · obtain ⟨hfill, hrd, hwr, hovf⟩ := releasedW3_fields (m := min n (bitsOf (s.dev.desc idx 3) 15 8)) (desc_lt s.dev idx 3) h0
      (bitsOf_lt (s.dev.desc idx 0) 23 16)
    refine ⟨s.put (s.dev.setDesc idx 3 _), by rw [exec_rxrel hc hi hn ha, rxrelOp_eq h1 h2 h0], put_otp s _, put_pending s _, ?_⟩
    have hw3 := desc_setDesc_same s.dev idx 3 (releasedW3 (s.dev.desc idx 3) (bitsOf (s.dev.desc idx 0) 23 16)
      (min n (bitsOf (s.dev.desc idx 3) 15 8)))
    rw [← hw3] at hfill hrd hwr hovf
    exact ⟨hfill, hrd, hwr, hovf, rfl, rfl, fun a ha => get_setDesc_out (by omega)⟩
  · exact ⟨s.put (pfpopOp s.dev h n), exec_pfpop hh hn ha, put_otp s _, put_pending s _, pfpopOp_fields s.dev h n⟩

end Sys2Proof.Machine
end

section
/-! Error counters, bus-off recovery and line events (R105, R117 to R121, R186 to R195, R203 to R205). -/

namespace Sys2Proof.Machine

open Sys2Proof

/-! ### Registers by key and bit range

The side conditions are arithmetic, so that `omega` meets them once the names of the registers are unfolded. -/

section ranges
variable (d : Dev)

theorem get_set_off {f g : Fld} (x : Nat) (hf : f.lo ≤ f.hi ∧ f.hi < 32) (ha : f.key ≠ g.key ∨ f.hi < g.lo ∨ g.hi < f.lo) :
    (d.set f x).get g = d.get g := by
  refine get_set_apart d f g x ?_ ?_
  · simpa only [Fld.ok, Bool.and_eq_true, decide_eq_true_eq] using hf
  · simpa only [Fld.apart, Bool.or_eq_true, bne_iff_ne, decide_eq_true_eq, or_assoc] using ha

theorem get_set_on {f : Fld} (x : Nat) (hf : f.lo ≤ f.hi ∧ f.hi < 32) : (d.set f x).get f = x % 2 ^ (f.hi + 1 - f.lo) :=
  get_set_same d f x (by simpa only [Fld.ok, Bool.and_eq_true, decide_eq_true_eq] using hf)

theorem get_setB_off {f g : Fld} (b : Bool) (hf : f.lo ≤ f.hi ∧ f.hi < 32) (ha : f.key ≠ g.key ∨ f.hi < g.lo ∨ g.hi < f.lo) :
    (d.setB f b).get g = d.get g := get_set_off d _ hf ha

theorem get_inc_off {f g : Fld} (hf : f.lo ≤ f.hi ∧ f.hi < 32) (ha : f.key ≠ g.key ∨ f.hi < g.lo ∨ g.hi < f.lo) :
    (d.inc f).get g = d.get g := get_set_off d _ hf ha

theorem get_inc_on {f : Fld} (hf : f.lo ≤ f.hi ∧ f.hi < 32) : (d.inc f).get f = min (d.get f + 1) (fldTop f) :=
  get_inc_same d f (by simpa only [Fld.ok, Bool.and_eq_true, decide_eq_true_eq] using hf)

theorem get_setBit_off {k : Nat} {g : Fld} (i : Nat) (b : Bool) (h : g.key ≠ k) : (d.setBit k i b).get g = d.get g :=
  get_setW_ne d g _ h

theorem get_ist_off {p : Nat} {g : Fld} (i : Nat) (h : g.key ≠ PG_IST p) : (d.ist p i).get g = d.get g := get_setW_ne d g _ h

theorem bit_set_off {k : Nat} {f : Fld} (x i : Nat) (h : k ≠ f.key) : (d.set f x).bit k i = d.bit k i :=
  congrArg (bitOf · i) (getW_set_ne d f x h)

theorem bit_inc_off {k : Nat} {f : Fld} (i : Nat) (h : k ≠ f.key) : (d.inc f).bit k i = d.bit k i := bit_set_off d _ i h

theorem bit_setW_off {k j : Nat} (x i : Nat) (h : k ≠ j) : (d.setW j x).bit k i = d.bit k i := congrArg (bitOf · i) (getW_setW_ne d h x)

theorem bit_ist_on {p i : Nat} (h : i < 32) : (d.ist p i).bit (PG_IST p) i = true := (bit_setBit d _ i i true h).trans (if_pos rfl)

@[simp] theorem bit_modChan (c : Nat) (f : Chan → Chan) (k i : Nat) : (d.modChan c f).bit k i = d.bit k i := rfl
@[simp] theorem bit_modPage (p : Nat) (f : PageX → PageX) (k i : Nat) : (d.modPage p f).bit k i = d.bit k i := rfl
@[simp] theorem bit_setHam (h : Nat) (x : Ham) (k i : Nat) : (d.setHam h x).bit k i = d.bit k i := rfl

end ranges

/-! ### The end of a fault's condition (R494) -/

theorem clearLive_same {β : Type} (g : Dev → β) (hr : ∀ (d : Dev) (r : List (Nat × Word)), g { d with regs := r } = g d)
    (hp : ∀ (d : Dev) (l : List (Nat × PageX)), g { d with pages := l } = g d) (d : Dev) (p n : Nat) : g (clearLive d p n) = g d := by
  unfold clearLive
  split
  · refine (hp _ _).trans ?_
    split
    · exact same_set g hr d _ _
    · rfl
  · rfl

theorem filter_of_not_contains {l : List Nat} {n : Nat} (h : ¬ l.contains n = true) : l.filter (· != n) = l := by
  refine List.filter_eq_self.mpr fun x hx => ?_
  simp only [List.contains_iff_mem] at h
  simp only [bne_iff_ne]
  rintro rfl
  exact h hx

theorem health_live (x : PageX) (p : Nat) : (health x p).live = x.live := rfl

theorem clearLive_live (d : Dev) (p n : Nat) : ((clearLive d p n).page p).live = (d.page p).live.filter (· != n) := by
  unfold clearLive
  split
  · rw [page_modPage_same, health_live]
    split
    · rw [page_set]
    · rfl
  · next h => rw [filter_of_not_contains h]

theorem put_self (s : State) : s.put s.dev = s := rfl

theorem filter_not_contains (l : List Nat) (n : Nat) : (l.filter (· != n)).contains n = false := by
  rw [← Bool.not_eq_true, List.contains_iff_mem]
  simp

/-- Two registers of one page at different offsets have different keys. -/
theorem rkey_ne {p a b : Nat} (h : a / 4 ≠ b / 4) : rkey p a ≠ rkey p b := by
  simp only [rkey]
  omega

theorem setB_eq_set (d : Dev) (f : Fld) (b : Bool) : d.setB f b = d.set f (b2n b) := rfl

/-! ### TEC and REC (R186 to R190) -/

theorem confState_active {tec rc : Nat} (h : tec < 256) : confState tec rc = if 128 ≤ tec ∨ 128 ≤ rc then 1 else 0 :=
  if_neg (by omega)

/-- The counters written, before the warnings are shown. -/
def countersSet (d : Dev) (c tec rc : Nat) : Dev :=
  (((d.set (CHS_TEC_TEC c) tec).set (CHS_REC_REC c) (min rc 255)).setB (CHS_TEC_WARN c) (96 ≤ tec || 96 ≤ min rc 255))

theorem setCounters_eq {d : Dev} {c tec rc : Nat} (h : tec < 256) :
    ∃ b b' : Bool, setCounters d c tec rc = (((countersSet d c tec rc).iff b fun d => d.ist (pCHS c) 0).iff b'
      fun d => d.ist (pCHS c) 1).set (CHS_TEC_STATE c) (confState tec (min rc 255)) := by
  refine ⟨(96 ≤ tec && d.get (CHS_TEC_TEC c) < 96) || (96 ≤ min rc 255 && d.get (CHS_REC_REC c) < 96),
    (128 ≤ tec && d.get (CHS_TEC_TEC c) < 128) || (128 ≤ min rc 255 && d.get (CHS_REC_REC c) < 128), ?_⟩
  unfold setCounters
  simp only [show min tec 511 = tec by omega]
  rw [if_neg (by omega), countersSet]

theorem tec_apart (c : Nat) : (CHS_TEC_STATE c).apart (CHS_TEC_TEC c) = true ∧ (CHS_TEC_STATE c).apart (CHS_TEC_WARN c) = true
    ∧ (CHS_TEC_STATE c).apart (CHS_TEC_STUCK c) = true ∧ (CHS_TEC_WARN c).apart (CHS_TEC_TEC c) = true
    ∧ (CHS_TEC_WARN c).apart (CHS_TEC_STUCK c) = true ∧ (CHS_TEC_TEC c).apart (CHS_TEC_STUCK c) = true
    ∧ (CHS_TEC_WARN c).apart (CHS_TEC_STATE c) = true := by
  simp [Fld.apart, CHS_TEC_STATE, CHS_TEC_TEC, CHS_TEC_WARN, CHS_TEC_STUCK]

theorem chs_keys (c : Nat) : CHS_TEC c ≠ CHS_REC c ∧ CHS_TEC c ≠ PG_IST (pCHS c) ∧ CHS_REC c ≠ PG_IST (pCHS c) :=
  ⟨rkey_ne (by decide), rkey_ne (by decide), rkey_ne (by decide)⟩

theorem setCounters_fields {d : Dev} {c tec rc : Nat} (h : tec < 256) :
    let e := setCounters d c tec rc
    e.get (CHS_TEC_TEC c) = tec ∧ e.get (CHS_REC_REC c) = min rc 255
      ∧ e.get (CHS_TEC_STATE c) = (if 128 ≤ tec ∨ 128 ≤ rc then 1 else 0)
      ∧ e.get (CHS_TEC_WARN c) = b2n (96 ≤ tec || 96 ≤ rc) ∧ e.get (CHS_TEC_STUCK c) = d.get (CHS_TEC_STUCK c)
      ∧ (∀ k, k ∉ [CHS_TEC c, CHS_REC c, PG_IST (pCHS c)] → e.getW k = d.getW k) ∧ e.mem = d.mem ∧ e.chans = d.chans := by
  obtain ⟨b, b', he⟩ := setCounters_eq (d := d) (c := c) (rc := rc) h
  obtain ⟨hst, hsw, hss, hwt, hws, hts, -⟩ := tec_apart c
  obtain ⟨htr, hti, hri⟩ := chs_keys c
  have hconf : confState tec (min rc 255) = if 128 ≤ tec ∨ 128 ≤ rc then 1 else 0 := by
    rw [confState_active h]
    split <;> split <;> omega
  simp only
  rw [he]
  generalize hx : ((countersSet d c tec rc).iff b fun d => d.ist (pCHS c) 0).iff b' (fun d => d.ist (pCHS c) 1) = x
  have hkeep : ∀ k, k ≠ PG_IST (pCHS c) → x.getW k = (countersSet d c tec rc).getW k := fun k hk => by
    rw [← hx, iff_ist_getW _ _ hk, iff_ist_getW _ _ hk]
  have hmem : x.mem = d.mem := by rw [← hx, iff_ist_mem, iff_ist_mem]; rfl
  have hchans : x.chans = d.chans := by rw [← hx]; cases b <;> cases b' <;> rfl
  refine ⟨?_, ?_, ?_, ?_, ?_, fun k hk => ?_, hmem, hchans⟩
  · rw [get_set_apart _ _ _ _ rfl hst, get_of_getW (hkeep _ hti), countersSet, setB_eq_set, get_set_apart _ _ _ _ rfl hwt,
      get_of_getW (getW_set_ne _ _ _ htr), get_set_same _ _ _ rfl]
    exact Nat.mod_eq_of_lt (by simp only [CHS_TEC_TEC]; omega)
  · rw [get_of_getW (getW_set_ne _ _ _ htr.symm), get_of_getW (hkeep _ hri), countersSet, setB_eq_set,
      get_of_getW (getW_set_ne _ _ _ htr.symm), get_set_same _ _ _ rfl]
    exact Nat.mod_eq_of_lt (by simp only [CHS_REC_REC]; omega)
  · rw [get_set_same _ _ _ rfl, hconf]
    split <;> rfl
  · rw [get_set_apart _ _ _ _ rfl hsw, get_of_getW (hkeep _ hti), countersSet, setB_get_same _ rfl rfl]
    refine congrArg b2n (congrArg (decide (96 ≤ tec) || ·) (decide_eq_decide.mpr ?_))
    omega
  · rw [get_set_apart _ _ _ _ rfl hss, get_of_getW (hkeep _ hti), countersSet, setB_eq_set, get_set_apart _ _ _ _ rfl hws,
      get_of_getW (getW_set_ne _ _ _ htr), get_set_apart _ _ _ _ rfl hts]
  · simp only [List.mem_cons, List.not_mem_nil, or_false, not_or] at hk
    obtain ⟨ht, hr, hi⟩ := hk
    rw [getW_set_ne _ _ _ ht, hkeep _ hi, countersSet, setB_eq_set, getW_set_ne _ _ _ ht, getW_set_ne _ _ _ hr, getW_set_ne _ _ _ ht]

theorem counting_of_head {d : Dev} {c : Nat} (hh : d.isHead = true) (hb : busOff d c = false) : counting d c = true := by
  rw [counting, hh, hb]
  rfl

theorem counting_off {d : Dev} {c : Nat} (h : d.isHead = false ∨ busOff d c = true) : counting d c = false := by
  rw [counting]
  rcases h with h | h <;> simp [h]

/-- Settles O43: below 256 the counters are written by `setCounters` alone, and without headship or in bus-off none counts. -/
theorem errorCountersAndState : Obligations.ErrorCountersAndState := by
  refine ⟨fun d c tec rc h => setCounters_fields h, fun d c hh hb => ?_, fun d c h => ?_⟩
  · have hcount := counting_of_head hh hb
    exact ⟨if_pos hcount, if_pos hcount, if_pos hcount⟩
  · have hoff : ¬ counting d c = true := by rw [counting_off h]; decide
    exact ⟨if_neg hoff, if_neg hoff, if_neg hoff, if_neg hoff⟩

/-! ### Bus-off recovery (R193 to R195) -/

/-- The part with the error counters and the state of channel `c` started afresh, and RECOVERED shown. -/
def errorsCleared (d : Dev) (c : Nat) : Dev :=
  ((((((d.set (CHS_TEC_TEC c) 0).set (CHS_REC_REC c) 0).set (CHS_TEC_STATE c) 0).set (CHS_TEC_WARN c) 0).inc
    (CHS_BOSTAT_RCNT c)).ist (pCHS c) 3)

/-- The part with channel `c` recovered, its bus-off conditions not yet ended. -/
def recoveredBus (d : Dev) (c : Nat) : Dev :=
  ((errorsCleared d c).set (CHS_BOSTAT_SEQ c) 0).modChan c
    fun x => { x with await := true, awaitNs := (errorsCleared d c).nowNs, noAuto := false }

theorem busOffEnd_eq (d : Dev) (c : Nat) : busOffEnd d c = clearLive (clearLive (recoveredBus d c) (pCHS c) 0) (pCHS c) 2 := by
  rw [busOffEnd, recoveredBus, errorsCleared]

theorem errorsCleared_same {β : Type} (g : Dev → β) (hr : ∀ (d : Dev) (r : List (Nat × Word)), g { d with regs := r } = g d) (d : Dev)
    (c : Nat) : g (errorsCleared d c) = g d := by
  rw [errorsCleared, same_ist g hr, same_inc g hr, same_set g hr, same_set g hr, same_set g hr, same_set g hr]

theorem recoveredBus_mem (d : Dev) (c : Nat) : (recoveredBus d c).mem = d.mem := by
  rw [recoveredBus, modChan_mem, set_mem, errorsCleared_same Dev.mem fun _ _ => rfl]

theorem recoveredBus_chan_same (d : Dev) {c : Nat} (hlt : c < d.chans.length) :
    (recoveredBus d c).chan c = { d.chan c with await := true, awaitNs := (errorsCleared d c).nowNs, noAuto := false } := by
  have hchans : ((errorsCleared d c).set (CHS_BOSTAT_SEQ c) 0).chans = d.chans := by
    rw [same_set Dev.chans (fun _ _ => rfl), errorsCleared_same Dev.chans fun _ _ => rfl]
  rw [recoveredBus, chan_modChan_same _ _ _ (by rwa [hchans]), Dev.chan, hchans, ← Dev.chan]

theorem recoveredBus_chan_ne (d : Dev) {b c : Nat} (hb : b ≠ c) : (recoveredBus d c).chan b = d.chan b := by
  rw [recoveredBus, chan_modChan_ne _ hb, chan_set, errorsCleared_same (Dev.chan · b) fun _ _ => rfl]

theorem recoveredBus_length (d : Dev) (c : Nat) : (recoveredBus d c).chans.length = d.chans.length := by
  rw [recoveredBus, modChan_length, same_set Dev.chans (fun _ _ => rfl), errorsCleared_same Dev.chans fun _ _ => rfl]

theorem busOffEnd_getW {d : Dev} {c k : Nat} (hk : k ≠ PG_FLT (pCHS c)) : (busOffEnd d c).getW k = (recoveredBus d c).getW k := by
  rw [busOffEnd_eq, clearLive_getW _ hk, clearLive_getW _ hk]

theorem busOffEnd_chan (d : Dev) (c b : Nat) : (busOffEnd d c).chan b = (recoveredBus d c).chan b := by
  rw [busOffEnd_eq, clearLive_same (Dev.chan · b) (fun _ _ => rfl) (fun _ _ => rfl),
    clearLive_same (Dev.chan · b) (fun _ _ => rfl) (fun _ _ => rfl)]

theorem busOffEnd_live (d : Dev) (c : Nat) : ((busOffEnd d c).page (pCHS c)).live.contains 0 = false := by
  rw [busOffEnd_eq, clearLive_live, clearLive_live, List.filter_filter, ← Bool.not_eq_true, List.contains_iff_mem]
  simp

theorem recoveredBus_fields (d : Dev) (c : Nat) :
    (recoveredBus d c).get (CHS_TEC_TEC c) = 0 ∧ (recoveredBus d c).get (CHS_REC_REC c) = 0 ∧ (recoveredBus d c).get (CHS_TEC_STATE c) = 0
      ∧ (recoveredBus d c).get (CHS_BOSTAT_RCNT c) = min (d.get (CHS_BOSTAT_RCNT c) + 1) 255
      ∧ (recoveredBus d c).bit (PG_IST (pCHS c)) 3 = true := by
  obtain ⟨hst, -, -, hwt, -, -, hws⟩ := tec_apart c
  obtain ⟨htr, hti, hri⟩ := chs_keys c
  have hseq : (CHS_BOSTAT_SEQ c).apart (CHS_BOSTAT_RCNT c) = true := by simp [Fld.apart, CHS_BOSTAT_SEQ, CHS_BOSTAT_RCNT]
  have hbt : CHS_TEC c ≠ CHS_BOSTAT c := rkey_ne (by decide)
  have hbr : CHS_REC c ≠ CHS_BOSTAT c := rkey_ne (by decide)
  have hbi : CHS_BOSTAT c ≠ PG_IST (pCHS c) := rkey_ne (by decide)
  have htail : ∀ {k : Nat}, k ≠ CHS_BOSTAT c → k ≠ PG_IST (pCHS c) → (recoveredBus d c).getW k
      = ((((d.set (CHS_TEC_TEC c) 0).set (CHS_REC_REC c) 0).set (CHS_TEC_STATE c) 0).set (CHS_TEC_WARN c) 0).getW k := fun hb hi => by
    rw [recoveredBus, errorsCleared, getW_modChan, getW_set_ne _ _ _ hb, getW_ist_ne _ hi, getW_inc_ne _ _ hb]
  refine ⟨?_, ?_, ?_, ?_, ?_⟩
  · rw [get_of_getW (htail hbt hti), get_set_apart _ _ _ _ rfl hwt, get_set_apart _ _ _ _ rfl hst, get_of_getW (getW_set_ne _ _ _ htr),
      get_set_same _ _ _ rfl, Nat.zero_mod]
  · rw [get_of_getW (htail hbr hri), get_of_getW (getW_set_ne _ _ _ htr.symm), get_of_getW (getW_set_ne _ _ _ htr.symm),
      get_set_same _ _ _ rfl, Nat.zero_mod]
  · rw [get_of_getW (htail hbt hti), get_set_apart _ _ _ _ rfl hws, get_set_same _ _ _ rfl, Nat.zero_mod]
  · rw [recoveredBus, errorsCleared, get_modChan, get_set_apart _ _ _ _ rfl hseq, get_of_getW (getW_ist_ne _ hbi), get_inc_same _ _ rfl,
      get_of_getW (getW_set_ne _ _ _ hbt.symm), get_of_getW (getW_set_ne _ _ _ hbt.symm), get_of_getW (getW_set_ne _ _ _ hbr.symm),
      get_of_getW (getW_set_ne _ _ _ hbt.symm)]
    rfl
  · rw [Dev.bit, recoveredBus, getW_modChan, getW_set_ne _ _ _ hbi.symm]
    exact (bit_setBit _ (PG_IST (pCHS c)) 3 3 true (by decide)).trans (if_pos rfl)

theorem busOffEnd_fields (d : Dev) {c : Nat} (hlt : c < d.chans.length) :
    (busOffEnd d c).mem = d.mem ∧ (busOffEnd d c).get (CHS_TEC_TEC c) = 0 ∧ (busOffEnd d c).get (CHS_REC_REC c) = 0
      ∧ (busOffEnd d c).get (CHS_TEC_STATE c) = 0
      ∧ (busOffEnd d c).get (CHS_BOSTAT_RCNT c) = min (d.get (CHS_BOSTAT_RCNT c) + 1) 255
      ∧ (busOffEnd d c).bit (PG_IST (pCHS c)) 3 = true ∧ ((busOffEnd d c).chan c).await = true
      ∧ ((busOffEnd d c).page (pCHS c)).live.contains 0 = false ∧ (∀ b, b ≠ c → (busOffEnd d c).chan b = d.chan b)
      ∧ (busOffEnd d c).chans.length = d.chans.length := by
  obtain ⟨htec, hrec, hstate, hrcnt, hist⟩ := recoveredBus_fields d c
  have hkey : ∀ {off : Nat}, off / 4 ≠ 0x01C / 4 → (busOffEnd d c).getW (rkey (0x100 + 4 * c + 3) off)
      = (recoveredBus d c).getW (rkey (0x100 + 4 * c + 3) off) := fun h => busOffEnd_getW (rkey_ne h)
  have hother : ∀ b, b ≠ c → (busOffEnd d c).chan b = d.chan b := fun b hb => by
    rw [busOffEnd_chan, recoveredBus_chan_ne _ hb]
  refine ⟨?_, ?_, ?_, ?_, ?_, ?_, ?_, busOffEnd_live d c, hother, ?_⟩
  · rw [busOffEnd_eq, clearLive_same Dev.mem (fun _ _ => rfl) (fun _ _ => rfl), clearLive_same Dev.mem (fun _ _ => rfl) (fun _ _ => rfl),
      recoveredBus_mem]
  · rw [get_of_getW (hkey (by decide)), htec]
  · rw [get_of_getW (hkey (by decide)), hrec]
  · rw [get_of_getW (hkey (by decide)), hstate]
  · rw [get_of_getW (hkey (by decide)), hrcnt]
  · exact (congrArg (bitOf · 3) (hkey (off := 0x010) (by decide))).trans hist
  · rw [busOffEnd_chan, recoveredBus_chan_same _ hlt]
  · rw [busOffEnd_eq, clearLive_same Dev.chans (fun _ _ => rfl) (fun _ _ => rfl),
      clearLive_same Dev.chans (fun _ _ => rfl) (fun _ _ => rfl), recoveredBus_length]

theorem writeChan_boctl (d : Dev) (w : Who) (c v : Nat) : writeChan d w (pCHS c) 0x04C v
    = if bitOf v 0 then restartOp (if bitOf v 1 then rclrOp d c else d) c else if bitOf v 1 then rclrOp d c else d := by
  have hm := chan_page_mod c 3 (by decide)
  have hp := pageChan_chan c 3 (by decide)
  unfold writeChan pCHS
  simp [hm, hp]

theorem exec_restart {s : State} {w : Who} {c : Nat} (hc : s.dev.hasChan c = true) (ha : Admits s w 1 (regAddr (pCHS c) 0x04C) [1]) :
    exec (.boctlRestart w c) s = .next (s.put (restartOp s.dev c)) := by
  refine (chan_write 3 hc (by decide) (by decide) (by decide) (by decide) ha).trans ?_
  exact congrArg (fun d => Host.Outcome.next (s.put d)) (writeChan_boctl _ _ _ _)

theorem exec_rclr {s : State} {w : Who} {c : Nat} (hc : s.dev.hasChan c = true) (ha : Admits s w 1 (regAddr (pCHS c) 0x04C) [2]) :
    exec (.rclr w c) s = .next (s.put (rclrOp s.dev c)) := by
  refine (chan_write 3 hc (by decide) (by decide) (by decide) (by decide) ha).trans ?_
  exact congrArg (fun d => Host.Outcome.next (s.put d)) (writeChan_boctl _ _ _ _)

/-- The AUTO path: recovery with R105 met. -/
theorem autoRecovery_fields {d : Dev} {c : Nat} (hc : d.hasChan c = true) (hlt : c < d.chans.length) (hoff : busOff d c = true)
    (hauto : (d.chan c).noAuto = false) (hmode : d.get (CHS_BOCFG_MODE c) = 0 ∨ d.get (CHS_BOCFG_MODE c) = 2) :
    (autoRecovery d c).mem = d.mem ∧ (autoRecovery d c).get (CHS_TEC_TEC c) = 0 ∧ (autoRecovery d c).get (CHS_REC_REC c) = 0
      ∧ (autoRecovery d c).get (CHS_TEC_STATE c) = 0
      ∧ (autoRecovery d c).get (CHS_BOSTAT_RCNT c) = min (d.get (CHS_BOSTAT_RCNT c) + 1) 255
      ∧ ((autoRecovery d c).chan c).await = false ∧ ((autoRecovery d c).chan c).mute = false := by
  obtain ⟨hmem, htec, hrec, hstate, hrcnt, -, -, -, -, hlen⟩ := busOffEnd_fields d hlt
  unfold autoRecovery
  rw [if_pos ⟨hc, hoff, hauto, hmode⟩]
  rw [modChan_mem, get_modChan, get_modChan, get_modChan, get_modChan]
  refine ⟨hmem, htec, hrec, hstate, hrcnt, ?_, ?_⟩
  · rw [chan_modChan_same _ _ _ (by rwa [hlen])]
  · rw [chan_modChan_same _ _ _ (by rwa [hlen])]

/-- Settles O45: both paths are `busOffEnd`, the AUTO path with the wait of R105 met. -/
theorem busOffRecovery : Obligations.BusOffRecovery := by
  refine ⟨fun s w c hc hlt ha hoff hmode => ?_, fun s w c hc ha hor => ?_, fun s w c hc ha => exec_rclr hc ha,
    fun s c hp hc hlt hoff hauto hmode => ?_⟩
  · obtain ⟨hmem, htec, hrec, hstate, hrcnt, hist, hawait, hlive, hother, -⟩ := busOffEnd_fields s.dev hlt
    have he : restartOp s.dev c = busOffEnd s.dev c := if_pos ⟨hoff, .inl hmode⟩
    exact ⟨s.put (busOffEnd s.dev c), (exec_restart hc ha).trans (by rw [he]), put_otp s _, put_pending s _, hmem, htec, hrec, hstate,
      hrcnt, hist, hawait, hlive, hother⟩
  · have he : restartOp s.dev c = s.dev := by
      refine if_neg fun ⟨h1, h2⟩ => ?_
      rcases hor with hor | ⟨hor, hauto⟩
      · simp [hor] at h1
      · simp [hor, hauto] at h2
    rw [exec_restart hc ha, he, put_self]
  · exact ⟨s.put (autoRecovery s.dev c), next_put hp rfl rfl, put_otp s _, put_pending s _, autoRecovery_fields hc hlt hoff hauto hmode⟩

/-! ### Line events of a channel (R105, R117, R119, R121, R203, R205) -/

theorem stuckEnd_fields {d : Dev} {c us : Nat} (hc : d.hasChan c = true) (hlt : c < d.chans.length) (hs : d.get (CHS_TEC_STUCK c) = 1)
    (hus : us < 2 ^ 24) :
    (stuckEnd d c us).mem = d.mem ∧ (stuckEnd d c us).get (CHS_TEC_STUCK c) = 0
      ∧ (stuckEnd d c us).get (CHS_STUCK_MAXDUR c) = max (d.get (CHS_STUCK_MAXDUR c)) us ∧ ((stuckEnd d c us).chan c).await = true
      ∧ ((stuckEnd d c us).page (pCHS c)).live.contains 1 = false
      ∧ (∀ k, k ∉ [CHS_TEC c, CHS_STUCK c, PG_FLT (pCHS c)] → (stuckEnd d c us).getW k = d.getW k) := by
  have htop : fldTop (CHS_STUCK_MAXDUR c) = 2 ^ 24 - 1 := rfl
  have hmax := get_lt d (CHS_STUCK_MAXDUR c)
  simp only [CHS_STUCK_MAXDUR] at hmax
  have hkt : CHS_TEC c ≠ PG_FLT (pCHS c) := rkey_ne (by decide)
  have hks : CHS_STUCK c ≠ PG_FLT (pCHS c) := rkey_ne (by decide)
  have hts : CHS_TEC c ≠ CHS_STUCK c := rkey_ne (by decide)
  unfold stuckEnd
  rw [if_pos ⟨hc, hs⟩]
  simp only [get_of_getW (getW_set_ne d (CHS_TEC_STUCK c) 0 hts.symm : _ = d.getW (CHS_STUCK_MAXDUR c).key), condEnd, waitAfter]
  refine ⟨?_, ?_, ?_, ?_, ?_, fun k hk => ?_⟩
  · rw [clearLive_same Dev.mem (fun _ _ => rfl) (fun _ _ => rfl), modChan_mem, set_mem, set_mem]
  · rw [get_of_getW (clearLive_getW _ hkt), get_modChan, get_of_getW (getW_set_ne _ _ _ hts), get_set_same _ _ _ rfl, Nat.zero_mod]
  · rw [get_of_getW (clearLive_getW _ hks), get_modChan, get_set_same _ _ _ rfl, htop]
    simp only [CHS_STUCK_MAXDUR] at *
    omega
  · rw [clearLive_same (Dev.chan · c) (fun _ _ => rfl) (fun _ _ => rfl), chan_modChan_same _ _ _ (by exact hlt)]
  · rw [clearLive_live, filter_not_contains]
  · simp only [List.mem_cons, List.not_mem_nil, or_false, not_or] at hk
    obtain ⟨ht, hst, hf⟩ := hk
    rw [clearLive_getW _ hf, getW_modChan, getW_set_ne _ _ _ hst, getW_set_ne _ _ _ ht]

theorem fenced_eq (d : Dev) (c a : Nat) : fenced d c a = d.bit (CHS_FENCE c) a := rfl

/-- An unfence by the hold time (R203). -/
theorem unfence_fields {d : Dev} {c a : Nat} (ha : a ≤ 31) (hf : fenced d c a = true) :
    (unfence d c a false).mem = d.mem ∧ fenced (unfence d c a false) c a = false
      ∧ (unfence d c a false).get (CHS_NODE_SCORE c a) = 64 ∧ (unfence d c a false).get (CHS_NODE_FENCED c a) = 0
      ∧ (unfence d c a false).get (CHS_NODE_WARN c a) = 0 ∧ (unfence d c a false).bit (PG_IST (pCHS c)) 6 = true
      ∧ (unfence d c a false).get (CHS_FCNT_UNFAUTO c) = min (d.get (CHS_FCNT_UNFAUTO c) + 1) (fldTop (CHS_FCNT_UNFAUTO c)) := by
  unfold unfence
  rw [if_neg (by simp [hf])]
  simp only [Bool.false_eq_true, if_false]
  refine ⟨?_, ?_, ?_, ?_, ?_, ?_, ?_⟩
  · simp only [inc_mem, modChan_mem, ist_mem, setBit_mem, set_mem]
  · rw [fenced_eq]
    simp (disch := (dsimp only [CHS_FCNT_UNFAUTO, CHS_FCNT, PG_IST, CHS_WARNM, CHS_NODE_WARN, CHS_NODE_SCORE, CHS_NODE_FENCED, CHS_NODE,
      CHS_FENCE, pCHS, rkey]; omega)) only [bit_inc_off, bit_modChan, Dev.ist, bit_setBit_ne, bit_set_off]
    rw [bit_setBit _ _ _ _ _ (by omega), if_pos rfl]
  · simp (disch := (dsimp only [CHS_FCNT_UNFAUTO, CHS_FCNT, PG_IST, CHS_WARNM, CHS_NODE_WARN, CHS_NODE_SCORE, CHS_NODE_FENCED, CHS_NODE,
      CHS_FENCE, pCHS, rkey]; omega)) only [get_inc_off, get_modChan, get_ist_off, get_setBit_off, get_set_off, get_set_on]
    rfl
  · simp (disch := (dsimp only [CHS_FCNT_UNFAUTO, CHS_FCNT, PG_IST, CHS_WARNM, CHS_NODE_WARN, CHS_NODE_SCORE, CHS_NODE_FENCED, CHS_NODE,
      CHS_FENCE, pCHS, rkey]; omega)) only [get_inc_off, get_modChan, get_ist_off, get_setBit_off, get_set_off, get_set_on]
    rfl
  · simp (disch := (dsimp only [CHS_FCNT_UNFAUTO, CHS_FCNT, PG_IST, CHS_WARNM, CHS_NODE_WARN, CHS_NODE_SCORE, CHS_NODE_FENCED, CHS_NODE,
      CHS_FENCE, pCHS, rkey]; omega)) only [get_inc_off, get_modChan, get_ist_off, get_setBit_off, get_set_on]
    rfl
  · rw [bit_inc_off _ _ (rkey_ne (by decide)), bit_modChan, bit_ist_on _ (by decide)]
  · simp (disch := (dsimp only [CHS_FCNT_UNFAUTO, CHS_FCNT, PG_IST, CHS_WARNM, CHS_NODE_WARN, CHS_NODE_SCORE, CHS_NODE_FENCED, CHS_NODE,
      CHS_FENCE, pCHS, rkey]; omega)) only [get_inc_on, get_modChan, get_ist_off, get_setBit_off, get_set_off]

/-- Settles O46: each row is one branch of its operation; the end of a stuck line and an unfence are read field by field. -/
theorem lineEventsOfAChannel : Obligations.LineEventsOfAChannel := by
  refine ⟨fun s c hp hc hrun => next_put hp (if_pos ⟨hc, hrun⟩) rfl,
    fun s c hp hc hrun hcur hst hsb hhb hoff hw => next_put hp ?_ rfl,
    fun s c hp hc hrun hcur hst hsb hhb hoff hauto hmode => next_put hp ?_ rfl,
    fun s c hp hc hrun hcur hst hsb hhb hiso hham => next_put hp (if_pos ⟨hc, hrun, hcur, hst, hsb, hhb, hiso, hham⟩) rfl,
    fun s c us hp hc hlt hst hus => ?_, fun s c a e hp hc ha1 ha hcfg hhold hmem hawake hdue hf hreq => ?_⟩
  · exact (if_pos ⟨hc, hrun, hcur, hst, hsb, hhb⟩).trans ((if_neg (by simp [hoff])).trans (if_pos hw))
  · exact (if_pos ⟨hc, hrun, hcur, hst, hsb, hhb⟩).trans ((if_pos hoff).trans (if_neg (by simp [hauto, hmode])))
  · exact ⟨s.put (stuckEnd s.dev c us), next_put hp rfl rfl, put_otp s _, put_pending s _, stuckEnd_fields hc hlt hst hus⟩
  · have hany : ((s.dev.chan c).fenceUntil.any fun e => e.1 == a && e.2 + b2n (asleepNode s.dev c a) ≤ s.dev.tick + 1) = true :=
      List.any_eq_true.mpr ⟨(a, e), hmem, by simp [hawake, b2n, hdue]⟩
    have hop : autoUnfence s.dev c a = unfence s.dev c a false := by
      unfold autoUnfence
      rw [if_pos ⟨hc, hcfg, hhold, hany⟩, hreq]
    exact ⟨s.put (unfence s.dev c a false), next_put hp hop rfl, put_otp s _, put_pending s _, unfence_fields ha hf⟩

end Sys2Proof.Machine
end

section
/-! Mills: lockstep, migration, self-tests (R211 to R224). -/

namespace Sys2Proof.Machine

open Sys2Proof

/-! ### Writes of mill and hamlet registers -/

theorem hasMill_lt {d : Dev} {m : Nat} (hm : d.hasMill m = true) : m < 16 := by
  have h1 : Variant.mills d.part ≤ 16 := by cases d.part <;> decide
  have h2 : m < Variant.mills d.part := by simpa [Dev.hasMill] using hm
  omega

theorem writeReg_bist (o : Otp) (d : Dev) (w : Who) {m : Nat} (v : Nat) (hm : m < 16) :
    writeReg o d w (pMILL m) 0x04C v = if bitOf v 31 then bistWrite d m else d := by
  unfold writeReg pMILL
  rw [if_neg (by decide), if_neg (by omega), if_neg (by omega), if_pos (by omega), if_pos rfl, Nat.add_sub_cancel_left]

theorem writeReg_migrate (o : Otp) (d : Dev) (w : Who) {h : Nat} (v : Nat) (hh : h < 8) :
    writeReg o d w (pHAM h) 0x044 v = if bitOf v 0 then migrateOp d h else d := by
  unfold writeReg pHAM
  rw [if_neg (by decide), if_neg (by omega), if_pos (by omega), if_pos rfl, Nat.add_sub_cancel_left]

theorem exec_bistStart {s : State} {w : Who} {m : Nat} (hm : s.dev.hasMill m = true)
    (ha : Admits s w 1 (regAddr (pMILL m) 0x04C) [2 ^ 31]) : exec (.bistStart (some w) m) s = .next (s.put (bistWrite s.dev m)) := by
  have hlt := hasMill_lt hm
  have hrow : (regRow (pMILL m) 0x04C).isSome = true := by
    rw [regRow_mill m _ hlt (by decide)]
    decide
  have he : exec (.bistStart (some w) m) s = regWrite s w (regAddr (pMILL m) 0x04C) (2 ^ 31) := rfl
  rw [he, regWrite_admitted ha (populated_mill hm) (by decide) hrow (by simp [pMILL]), writeReg_bist _ _ _ _ hlt, if_pos (by decide)]

theorem exec_migrateGo {s : State} {w : Who} {h : Nat} (hh : s.dev.hasHam h = true) (ha : Admits s w 1 (regAddr (pHAM h) 0x044) [1]) :
    exec (.migrateGo w h) s = .next (s.put (migrateOp s.dev h)) := by
  have hlt := hasHam_lt hh
  have hrow : (regRow (pHAM h) 0x044).isSome = true := by
    rw [regRow_ham h _ hlt (by decide)]
    decide
  have he : exec (.migrateGo w h) s = regWrite s w (regAddr (pHAM h) 0x044) 1 := rfl
  rw [he, regWrite_admitted ha (populated_ham hh) (by decide) hrow (by simp [pHAM]), writeReg_migrate _ _ _ _ hlt, if_pos (by decide)]

/-! ### Lockstep mismatches (R211, R221) -/

theorem flatMap_filter_key {α : Type} (x : α) {key : α → Nat} {l : List Nat} (hk : key x ∈ l) (hl : l.Nodup) :
    (l.flatMap fun j => [x].filter fun y => key y == j) = [x] := by
  induction l with
  | nil => simp at hk
  | cons a l ih =>
    rw [List.nodup_cons] at hl
    rw [List.flatMap_cons]
    by_cases ha : key x = a
    · have hrest : (l.flatMap fun j => [x].filter fun y => key y == j) = [] :=
        List.flatMap_eq_nil_iff.mpr fun j hj => by
          have : key x ≠ j := fun h => hl.1 (ha ▸ h ▸ hj)
          simp [this]
      rw [hrest]
      simp [ha]
    · rw [ih ((List.mem_cons.mp hk).resolve_left ha) hl.2]
      simp [ha]

/-- A single mismatch is handled at once. -/
theorem lockstepAll_single (d : Dev) (m port ch : Nat) : lockstepAll d [(m, port, ch)] = lockstep d m port ch := by
  unfold lockstepAll
  simp only
  rw [flatMap_filter_key (m, port, ch) (key := fun x => (d.get (MILL_STAT_HAM x.1) + 1) % 16)
    (List.mem_range.mpr (Nat.mod_lt _ (by decide : 0 < 16))) List.nodup_range, forEach_cons, forEach_nil]

theorem lockstep_spare {d : Dev} {m : Nat} (port ch : Nat) (hm : d.hasMill m = true) (hst : d.get (MILL_STAT_STATE m) = 2) :
    lockstep d m port ch = ((raise (((d.inc (MILL_MMCNT_COUNT m)).setW (MILL_MMINFO m) (port * 2 ^ 28 + ch * 2 ^ 25 + d.tick16)).ist
      (pMILL m) 0) (pMILL m) 0).set (MILL_BIST_RESULT m) 2).set (MILL_STAT_STATE m) 5 := by
  unfold lockstep
  simp only [hst]
  rw [if_neg (by simp [hm]), if_neg (by decide), if_neg (by decide), if_neg (by decide)]

theorem lockstep_serving {d : Dev} {m : Nat} (port ch : Nat) (hm : d.hasMill m = true) (hst : d.get (MILL_STAT_STATE m) = 1) :
    lockstep d m port ch = millHalts (((d.inc (MILL_MMCNT_COUNT m)).setW (MILL_MMINFO m)
      (port * 2 ^ 28 + ch * 2 ^ 25 + d.tick16)).ist (pMILL m) 0) m 0 := by
  unfold lockstep
  simp only [hst]
  rw [if_neg (by simp [hm]), if_pos trivial]

/-! ### The start of a migration (R214, R215, R224) -/

theorem migrateOp_refused {d : Dev} {h : Nat} (hr : spareOf d = none ∨ (d.ham h).mig.isSome = true ∨ (d.ham h).isolated = true) :
    migrateOp d h = d.ist (pHAM h) 2 :=
  if_pos (hr.imp_left fun hs => by rw [hs]; rfl)

/-- Mill `old` leaves its hamlet and tests itself, on maintenance. -/
def millLeaves (d : Dev) (old : Nat) : Dev :=
  let e := (d.set (MILL_STAT_STATE old) 4).set (MILL_STAT_HAM old) 0xF
  e.setMill old ⟨3, false, e.tick + e.get (PG_QUIET_QUIET (pMILL old)), false⟩

/-- Spare `sp` takes over from mill `old` at hamlet `h`, on maintenance, before the shadow of `old` opens. -/
def spareTakes (d : Dev) (h old sp : Nat) : Dev :=
  let e := ((d.set (MILL_STAT_STATE sp) 3).setMill sp { d.mill sp with asked := false }).ist (pHAM h) 0
  e.setHam h { (e.ham h) with mig := some ⟨sp, some old, 3⟩, isolated := false }

theorem spareOf_congr {d e : Dev} (hp : e.part = d.part) (h : ∀ m, e.get (MILL_STAT_STATE m) = 2 ↔ d.get (MILL_STAT_STATE m) = 2) :
    spareOf e = spareOf d := by
  unfold spareOf Dev.millList
  rw [hp]
  exact congrArg (List.find? · _) (funext fun m => Bool.eq_iff_iff.mpr (by simpa using h m))

theorem millStat_ne {m n : Nat} (h : m ≠ n) : MILL_STAT m ≠ MILL_STAT n := by
  simp only [MILL_STAT, rkey]
  omega

theorem millLeaves_fields (d : Dev) (old : Nat) : (millLeaves d old).get (MILL_STAT_STATE old) = 4
    ∧ (millLeaves d old).get (MILL_STAT_HAM old) = 0xF ∧ (∀ k, k ≠ MILL_STAT old → (millLeaves d old).getW k = d.getW k)
    ∧ (millLeaves d old).part = d.part ∧ (millLeaves d old).hams = d.hams ∧ (millLeaves d old).mem = d.mem := by
  unfold millLeaves
  simp only [get_setMill, getW_setMill, setMill_mem, set_mem]
  refine ⟨?_, ?_, fun k hk => ?_, rfl, rfl, trivial⟩
  · rw [get_set_apart _ _ _ _ rfl (by simp [Fld.apart, MILL_STAT_HAM, MILL_STAT_STATE]), get_set_same _ _ _ rfl]
    rfl
  · rw [get_set_same _ _ _ rfl]
    rfl
  · rw [getW_set_ne _ _ _ hk, getW_set_ne _ _ _ hk]

theorem hams_setHam_length (d : Dev) (h : Nat) (x : Ham) : (d.setHam h x).hams.length = d.hams.length := length_putAt _ _ _

theorem ham_setHam_same {d : Dev} {h : Nat} (x : Ham) (hh : h < d.hams.length) : (d.setHam h x).ham h = x :=
  elemAt_putAt_same _ _ _ _ hh

theorem ham_setHam_ne {d : Dev} {h j : Nat} (x : Ham) (hj : j ≠ h) : (d.setHam h x).ham j = d.ham j := elemAt_putAt_ne _ _ _ _ _ hj

theorem pHAM_ne_pMILL {h m a b : Nat} (hm : m < 16) (ha : a < 4096) (hb : b < 4096) : rkey (pHAM h) a ≠ rkey (pMILL m) b := by
  simp only [rkey, pHAM, pMILL]
  omega

theorem startMigration_eq {d : Dev} {h old sp : Nat} (hmill : d.get (HAM_MILL_MILL h) = old) (hold : old ≠ 0xF)
    (hserv : d.get (MILL_STAT_STATE old) = 1) (hsp : spareOf d = some sp) :
    startMigration raise d h 3 = openShadow (spareTakes (millLeaves d old) h old sp) (pMILL old) (some h) false := by
  obtain ⟨hst, -, hkeep, hpart, -⟩ := millLeaves_fields d old
  have hspare : spareOf (millLeaves d old) = some sp := by
    rw [spareOf_congr hpart fun m => ?_, hsp]
    by_cases hm : m = old
    · rw [hm, hst, hserv]
      decide
    · rw [get_of_getW (hkeep _ (millStat_ne hm))]
  unfold startMigration
  simp only [hmill, hserv]
  rw [if_neg hold, if_neg (by decide), if_neg (by decide)]
  have he : ((d.set (MILL_STAT_STATE old) 4).set (MILL_STAT_HAM old) 0xF).setMill old ⟨3, false,
    ((d.set (MILL_STAT_STATE old) 4).set (MILL_STAT_HAM old) 0xF).tick
      + ((d.set (MILL_STAT_STATE old) 4).set (MILL_STAT_HAM old) 0xF).get (PG_QUIET_QUIET (pMILL old)), false⟩ = millLeaves d old := rfl
  rw [he, hspare]
  simp only
  rw [if_neg hold, if_neg hold, ← spareTakes]

theorem spareTakes_fields {d : Dev} {h old sp : Nat} (hh : h < d.hams.length) (hlt : sp < 16) :
    (spareTakes d h old sp).ham h = { d.ham h with mig := some ⟨sp, some old, 3⟩, isolated := false }
      ∧ (spareTakes d h old sp).get (MILL_STAT_STATE sp) = 3 ∧ (spareTakes d h old sp).bit (PG_IST (pHAM h)) 0 = true
      ∧ (∀ k, k ≠ MILL_STAT sp → k ≠ PG_IST (pHAM h) → (spareTakes d h old sp).getW k = d.getW k)
      ∧ (spareTakes d h old sp).mem = d.mem := by
  have hkey : MILL_STAT sp ≠ PG_IST (pHAM h) := (pHAM_ne_pMILL hlt (by decide) (by decide)).symm
  unfold spareTakes
  simp only
  refine ⟨?_, ?_, ?_, fun k hs hi => ?_, ?_⟩
  · exact ham_setHam_same _ hh
  · rw [get_setHam, get_ist_off _ _ hkey, get_setMill, get_set_same _ _ _ rfl]
    rfl
  · rw [bit_setHam, bit_ist_on _ (by decide)]
  · rw [getW_setHam, getW_ist_ne _ hi, getW_setMill, getW_set_ne _ _ _ hs]
  · rw [setHam_mem, ist_mem, setMill_mem, set_mem]

theorem spareOf_some {d : Dev} {sp : Nat} (h : spareOf d = some sp) : d.hasMill sp = true ∧ d.get (MILL_STAT_STATE sp) = 2 := by
  refine ⟨?_, ?_⟩
  · have hmem := List.mem_of_find?_eq_some h
    simpa [Dev.hasMill, Dev.millList] using hmem
  · simpa using List.find?_some h

theorem migrateOp_fields {d : Dev} {h old sp : Nat} (hmill : d.get (HAM_MILL_MILL h) = old) (hold : old ≠ 0xF)
    (hserv : d.get (MILL_STAT_STATE old) = 1) (hsp : spareOf d = some sp) (hmig : (d.ham h).mig = none)
    (hiso : (d.ham h).isolated = false) (hh : h < d.hams.length) (hlen : d.get (PG_ESC_SHADOW (pMILL old)) ≠ 0) :
    (migrateOp d h).mem = d.mem ∧ ((migrateOp d h).ham h).mig = some ⟨sp, some old, 3⟩ ∧ (migrateOp d h).get (MILL_STAT_STATE sp) = 3
      ∧ (migrateOp d h).get (MILL_STAT_STATE old) = 4 ∧ (migrateOp d h).get (MILL_STAT_HAM old) = 0xF
      ∧ ((migrateOp d h).page (pMILL old)).shadow.isSome = true ∧ ((migrateOp d h).page (pMILL old)).cover = some h
      ∧ (migrateOp d h).bit (PG_IST (pHAM h)) 0 = true := by
  obtain ⟨hhas, hstate⟩ := spareOf_some hsp
  have hne : sp ≠ old := fun e => by rw [e, hserv] at hstate; cases hstate
  have hlt := hasMill_lt hhas
  have hold16 : old < 16 := hmill ▸ get_lt d (HAM_MILL_MILL h)
  obtain ⟨hst, hham, hkeep, -, hhams, hmem⟩ := millLeaves_fields d old
  obtain ⟨tham, tstate, tist, tkeep, tmem⟩ := spareTakes_fields (d := millLeaves d old) (h := h) (old := old) (by rwa [hhams]) hlt
  have hstat : MILL_STAT old ≠ PG_IST (pHAM h) := (pHAM_ne_pMILL hold16 (by decide) (by decide)).symm
  have hesc : (spareTakes (millLeaves d old) h old sp).get (PG_ESC_SHADOW (pMILL old)) = d.get (PG_ESC_SHADOW (pMILL old)) := by
    refine get_of_getW ((tkeep _ ?_ (pHAM_ne_pMILL hold16 (by decide) (by decide)).symm).trans (hkeep _ (rkey_ne (by decide))))
    simp only [MILL_STAT, rkey, pMILL]
    omega
  have he : migrateOp d h = openShadow (spareTakes (millLeaves d old) h old sp) (pMILL old) (some h) false :=
    (if_neg (by simp [hsp, hmig, hiso])).trans (startMigration_eq hmill hold hserv hsp)
  rw [he, openShadow_of_length _ _ (by rwa [hesc]), page_modPage_same, modPage_mem, get_modPage, get_modPage, get_modPage, bit_modPage]
  refine ⟨tmem.trans hmem, ?_, tstate, ?_, ?_, rfl, rfl, tist⟩
  · exact congrArg Ham.mig tham
  · rw [get_of_getW (tkeep _ (millStat_ne hne.symm) hstat), hst]
  · rw [get_of_getW (tkeep _ (millStat_ne hne.symm) hstat), hham]

/-! ### The end of a migration (R215) -/

theorem quietAfter_calm {d : Dev} (hq : ∀ p, (d.page p).quietDue ≠ 2) (l : List Nat) : quietAfter d l = d := by
  induction l with
  | nil => rfl
  | cons p l ih => rw [quietAfter, if_neg (hq p), ih]

theorem settleHeld_none {d : Dev} {c : Nat} (h : (d.chan c).outcome = none) : settleHeld d c = d := by
  unfold settleHeld
  rw [h]
  cases (d.chan c).wire <;> rfl

/-- The spare of migration `g` serves hamlet `h`: what the mill's registers show. -/
def spareServes (d : Dev) (h : Nat) (g : Migration) : Dev :=
  let d := (d.set (MILL_STAT_STATE g.spare) 1).set (MILL_STAT_HAM g.spare) h
  if d.get (MILL_BIST_RESULT g.spare) = 3 then d.set (MILL_BIST_RESULT g.spare) 0 else d

/-- Hamlet `h` shows its new mill and the migration that gave it. -/
def migrationShown (d : Dev) (h ns : Nat) (g : Migration) : Dev :=
  let d := ((d.set (HAM_MILL_MILL h) g.spare).set (HAM_MILL_PREV h) (g.old.getD 0xF)).inc (HAM_MILL_MIGCNT h)
  (d.set (HAM_MIGLAST_CAUSE h) g.cause).set (HAM_MIGLAST_DUR h) (min ns (fldTop (HAM_MIGLAST_DUR h)))

/-- The hamlet after its migration: no piece of work begun on the wheel. -/
def migratedHam (d : Dev) (h : Nat) : Ham :=
  { d.ham h with mig := none, wheel :=
    { Wheel.fromCycle d.aon.cycles with used := (d.ham h).wheel.used, lent := (d.ham h).wheel.lent } }

theorem spareServes_same {β : Type} (f : Dev → β) (hr : ∀ (d : Dev) (r : List (Nat × Word)), f { d with regs := r } = f d) (d : Dev)
    (h : Nat) (g : Migration) : f (spareServes d h g) = f d := by
  unfold spareServes
  simp only
  split
  · rw [same_set f hr, same_set f hr, same_set f hr]
  · rw [same_set f hr, same_set f hr]

theorem migrationShown_same {β : Type} (f : Dev → β) (hr : ∀ (d : Dev) (r : List (Nat × Word)), f { d with regs := r } = f d) (d : Dev)
    (h ns : Nat) (g : Migration) : f (migrationShown d h ns g) = f d := by
  unfold migrationShown
  simp only
  rw [same_set f hr, same_set f hr, same_inc f hr, same_set f hr, same_set f hr]

/-- The part with the migration ended, but for what waited for its end. -/
def migrationEnded (d : Dev) (h ns : Nat) (g : Migration) : Dev :=
  let e := migrationShown (spareServes d h g) h ns g
  (e.ist (pHAM h) 1).setHam h (migratedHam e h)

theorem migrationEnded_same {β : Type} (f : Dev → β) (hr : ∀ (d : Dev) (r : List (Nat × Word)), f { d with regs := r } = f d)
    (hh : ∀ (d : Dev) (h : Nat) (x : Ham), f (d.setHam h x) = f d) (d : Dev) (h ns : Nat) (g : Migration) :
    f (migrationEnded d h ns g) = f d := by
  rw [migrationEnded, hh, same_ist f hr, migrationShown_same f hr, spareServes_same f hr]

theorem migrationDone_eq {d : Dev} {h ns : Nat} {g : Migration} (hmig : (d.ham h).mig = some g) (hq : ∀ p, (d.page p).quietDue ≠ 2)
    (hout : ∀ c, (d.chan c).outcome = none) : migrationDone d h ns = migrationEnded d h ns g := by
  have hdone : migrationDone d h ns = quietAfter ((migrationEnded d h ns g).forEach ((migrationEnded d h ns g).hamChans h) settleHeld)
      (pHAM h :: g.old.toList.map pMILL) := by
    unfold migrationDone
    rw [hmig]
    simp only [migrationEnded, migrationShown, spareServes, migratedHam]
  rw [hdone, forEach_unchanged fun c _ => settleHeld_none ?_, quietAfter_calm fun p => ?_]
  · rw [migrationEnded_same (Dev.page · p) (fun _ _ => rfl) fun _ _ _ => rfl]
    exact hq p
  · rw [migrationEnded_same (Dev.chan · c) (fun _ _ => rfl) fun _ _ _ => rfl, hout]

theorem spareServes_fields (d : Dev) {h : Nat} {g : Migration} (hh : h < 8) : (spareServes d h g).get (MILL_STAT_STATE g.spare) = 1
    ∧ (spareServes d h g).get (MILL_STAT_HAM g.spare) = h ∧ (spareServes d h g).get (MILL_BIST_RESULT g.spare) ≠ 3
    ∧ (∀ k, k ≠ MILL_STAT g.spare → k ≠ MILL_BIST g.spare → (spareServes d h g).getW k = d.getW k) := by
  have hapart : (MILL_STAT_HAM g.spare).apart (MILL_STAT_STATE g.spare) = true := by simp [Fld.apart, MILL_STAT_HAM, MILL_STAT_STATE]
  have hkey : MILL_STAT g.spare ≠ MILL_BIST g.spare := rkey_ne (by decide)
  unfold spareServes
  simp only
  generalize he : (d.set (MILL_STAT_STATE g.spare) 1).set (MILL_STAT_HAM g.spare) h = e
  have hstate : e.get (MILL_STAT_STATE g.spare) = 1 := by
    rw [← he, get_set_apart _ _ _ _ rfl hapart, get_set_same _ _ _ rfl]
    rfl
  have hham : e.get (MILL_STAT_HAM g.spare) = h := by
    rw [← he, get_set_same _ _ _ rfl]
    exact Nat.mod_eq_of_lt (by simp only [MILL_STAT_HAM]; omega)
  have hkeep : ∀ k, k ≠ MILL_STAT g.spare → e.getW k = d.getW k := fun k hk => by
    rw [← he, getW_set_ne _ _ _ hk, getW_set_ne _ _ _ hk]
  split
  · refine ⟨?_, ?_, ?_, fun k hs hb => ?_⟩
    · rw [get_of_getW (getW_set_ne _ _ _ hkey), hstate]
    · rw [get_of_getW (getW_set_ne _ _ _ hkey), hham]
    · rw [get_set_same _ _ _ rfl, Nat.zero_mod]
      decide
    · rw [getW_set_ne _ _ _ hb, hkeep k hs]
  · next h3 => exact ⟨hstate, hham, h3, fun k hs _ => hkeep k hs⟩

theorem migrationShown_fields (d : Dev) {h : Nat} (ns : Nat) {g : Migration} (hg : g.spare < 16) :
    (migrationShown d h ns g).get (HAM_MILL_MILL h) = g.spare
    ∧ (migrationShown d h ns g).get (HAM_MILL_MIGCNT h) = min (d.get (HAM_MILL_MIGCNT h) + 1) (fldTop (HAM_MILL_MIGCNT h))
    ∧ (∀ k, k ≠ HAM_MILL h → k ≠ HAM_MIGLAST h → (migrationShown d h ns g).getW k = d.getW k) := by
  have hkey : HAM_MILL h ≠ HAM_MIGLAST h := rkey_ne (by decide)
  have hcp : (HAM_MILL_MIGCNT h).apart (HAM_MILL_MILL h) = true := by simp [Fld.apart, HAM_MILL_MIGCNT, HAM_MILL_MILL]
  have hpm : (HAM_MILL_PREV h).apart (HAM_MILL_MILL h) = true := by simp [Fld.apart, HAM_MILL_PREV, HAM_MILL_MILL]
  have hpc : (HAM_MILL_PREV h).apart (HAM_MILL_MIGCNT h) = true := by simp [Fld.apart, HAM_MILL_PREV, HAM_MILL_MIGCNT]
  have hmc : (HAM_MILL_MILL h).apart (HAM_MILL_MIGCNT h) = true := by simp [Fld.apart, HAM_MILL_MILL, HAM_MILL_MIGCNT]
  unfold migrationShown
  simp only
  refine ⟨?_, ?_, fun k hm hl => ?_⟩
  · rw [get_of_getW (getW_set_ne _ _ _ hkey), get_of_getW (getW_set_ne _ _ _ hkey), get_inc_apart _ _ _ rfl hcp,
      get_set_apart _ _ _ _ rfl hpm, get_set_same _ _ _ rfl]
    exact Nat.mod_eq_of_lt (by simp only [HAM_MILL_MILL]; omega)
  · rw [get_of_getW (getW_set_ne _ _ _ hkey), get_of_getW (getW_set_ne _ _ _ hkey), get_inc_same _ _ rfl,
      get_set_apart _ _ _ _ rfl hpc, get_set_apart _ _ _ _ rfl hmc]
  · rw [getW_set_ne _ _ _ hl, getW_set_ne _ _ _ hl, getW_inc_ne _ _ hm, getW_set_ne _ _ _ hm, getW_set_ne _ _ _ hm]

theorem migrationEnded_fields {d : Dev} {h ns : Nat} {g : Migration} (hh : h < 8) (hg : g.spare < 15) (hlt : h < d.hams.length) :
    (migrationEnded d h ns g).mem = d.mem ∧ (migrationEnded d h ns g).ham h = migratedHam d h
      ∧ (migrationEnded d h ns g).get (HAM_MILL_MILL h) = g.spare ∧ (migrationEnded d h ns g).get (MILL_STAT_STATE g.spare) = 1
      ∧ (migrationEnded d h ns g).get (MILL_STAT_HAM g.spare) = h
      ∧ (migrationEnded d h ns g).get (HAM_MILL_MIGCNT h) = min (d.get (HAM_MILL_MIGCNT h) + 1) (fldTop (HAM_MILL_MIGCNT h))
      ∧ (migrationEnded d h ns g).bit (PG_IST (pHAM h)) 1 = true ∧ (migrationEnded d h ns g).pages = d.pages
      ∧ (migrationEnded d h ns g).chans = d.chans ∧ (∀ j, j ≠ h → (migrationEnded d h ns g).ham j = d.ham j)
      ∧ (migrationEnded d h ns g).get (MILL_BIST_RESULT g.spare) ≠ 3 := by
  obtain ⟨hstate, hham, hbist, hkeep⟩ := spareServes_fields d (g := g) hh
  obtain ⟨tmill, tcnt, tkeep⟩ := migrationShown_fields (spareServes d h g) ns (h := h) (show g.spare < 16 by omega)
  have hmh : ∀ {a b : Nat}, a < 4096 → b < 4096 → rkey (pMILL g.spare) b ≠ rkey (pHAM h) a := fun ha hb =>
    (pHAM_ne_pMILL (show g.spare < 16 by omega) ha hb).symm
  have hmill : ∀ {b : Nat}, b < 4096 → (migrationShown (spareServes d h g) h ns g).getW (rkey (pMILL g.spare) b)
      = (spareServes d h g).getW (rkey (pMILL g.spare) b) := fun hb => tkeep _ (hmh (by decide) hb) (hmh (by decide) hb)
  have hmig : migratedHam (migrationShown (spareServes d h g) h ns g) h = migratedHam d h := by
    rw [migrationShown_same (migratedHam · h) fun _ _ => rfl, spareServes_same (migratedHam · h) fun _ _ => rfl]
  have hlen : (migrationShown (spareServes d h g) h ns g).hams = d.hams := by
    rw [migrationShown_same Dev.hams fun _ _ => rfl, spareServes_same Dev.hams fun _ _ => rfl]
  refine ⟨migrationEnded_same Dev.mem (fun _ _ => rfl) (fun _ _ _ => rfl) d h ns g, ?_, ?_, ?_, ?_, ?_, ?_,
    migrationEnded_same Dev.pages (fun _ _ => rfl) (fun _ _ _ => rfl) d h ns g,
    migrationEnded_same Dev.chans (fun _ _ => rfl) (fun _ _ _ => rfl) d h ns g, fun j hj => ?_, ?_⟩ <;>
    rw [migrationEnded]
  · rw [ham_setHam_same _ (by rw [same_ist Dev.hams fun _ _ => rfl, hlen]; exact hlt), hmig]
  · rw [get_setHam, get_ist_off _ _ (rkey_ne (by decide)), tmill]
  · rw [get_setHam, get_ist_off _ _ (hmh (by decide) (by decide)), get_of_getW (hmill (by decide)), hstate]
  · rw [get_setHam, get_ist_off _ _ (hmh (by decide) (by decide)), get_of_getW (hmill (by decide)), hham]
  · rw [get_setHam, get_ist_off _ _ (rkey_ne (by decide)), tcnt]
    refine congrArg (min · _) (congrArg (· + 1) (get_of_getW (hkeep _ ?_ ?_)))
    · exact (hmh (by decide) (by decide)).symm
    · exact (hmh (by decide) (by decide)).symm
  · rw [bit_setHam, bit_ist_on _ (by decide)]
  · rw [ham_setHam_ne _ hj, ham_ist, migrationShown_same (Dev.ham · j) fun _ _ => rfl, spareServes_same (Dev.ham · j) fun _ _ => rfl]
  · rw [get_setHam, get_ist_off _ _ (hmh (by decide) (by decide)), get_of_getW (hmill (by decide))]
    exact hbist

/-! ### Self-tests (R220, R221) -/

/-- The end of a self-test as the mill's registers show it. -/
def bistShown (d : Dev) (m r : Nat) : Dev :=
  (((d.inc (MILL_BIST_RUNS m)).ist (pMILL m) 1).set (MILL_BIST_RESULT m) r).setMill m { d.mill m with asked := false }

theorem bistEnd_eq {d : Dev} {m : Nat} (pass : Bool) (hm : d.hasMill m = true) (hr : d.get (MILL_BIST_RESULT m) = 3) :
    bistEnd d m pass = if pass then bistPass (bistShown d m 1) m else bistFail (bistShown d m 2) m := by
  unfold bistEnd
  rw [if_neg (by simp [hm, hr])]
  cases pass <;> simp only [bistShown, mill_ist, mill_inc, Bool.false_eq_true, if_true, if_false]

theorem bistShown_state (d : Dev) (m r : Nat) : (bistShown d m r).get (MILL_STAT_STATE m) = d.get (MILL_STAT_STATE m) := by
  have hb : MILL_STAT m ≠ MILL_BIST m := rkey_ne (by decide)
  have hi : MILL_STAT m ≠ PG_IST (pMILL m) := rkey_ne (by decide)
  rw [bistShown, get_setMill, get_of_getW (getW_set_ne _ _ _ hb), get_of_getW (getW_ist_ne _ hi), get_of_getW (getW_inc_ne _ _ hb)]

theorem bistEnd_pass {d : Dev} {m : Nat} (hm : d.hasMill m = true) (hr : d.get (MILL_BIST_RESULT m) = 3)
    (hst : d.get (MILL_STAT_STATE m) = 2) : bistEnd d m true = bistShown d m 1 := by
  rw [bistEnd_eq true hm hr, if_pos rfl, bistPass, bistShown_state, hst]
  exact if_neg (by decide)

theorem bistEnd_fail {d : Dev} {m : Nat} (hm : d.hasMill m = true) (hr : d.get (MILL_BIST_RESULT m) = 3)
    (hst : d.get (MILL_STAT_STATE m) = 2) :
    bistEnd d m false = raise ((bistShown d m 2).set (MILL_STAT_STATE m) 5) (pMILL m) 1 := by
  rw [bistEnd_eq false hm hr, if_neg (by decide), bistFail, bistShown_state, hst]
  exact (if_neg (by decide)).trans ((if_neg (by decide)).trans (if_neg (by decide)))

/-- Settles O47: each row is a branch of its operation; the start and the end of a migration are read field by field. -/
theorem millsMigrateAndTest : Obligations.MillsMigrateAndTest := by
  refine ⟨fun s m port ch hp hm hst => next_put hp ((lockstepAll_single ..).trans (lockstep_spare port ch hm hst)) rfl,
    fun s m port ch hp hm hst => next_put hp ((lockstepAll_single ..).trans (lockstep_serving port ch hm hst)) rfl,
    fun s w h hh ha hr => (exec_migrateGo hh ha).trans (by rw [migrateOp_refused hr]),
    fun s w h old sp hh ha hmill hold hserv hsp hmig hiso hlt hlen => ?_,
    fun s h ns g hp hmig hh hg hlt hq hout => ?_, fun s h hp hmig => next_put hp (if_pos hmig) rfl,
    fun s h hp hh hiso hmig => next_put hp ?_ rfl,
    fun s w m hm ha hst => (exec_bistStart hm ha).trans (congrArg (fun d => Host.Outcome.next (s.put d)) (if_pos hst)),
    fun s m hp hm hst => next_put hp (if_pos ⟨hm, hst⟩) rfl,
    fun s m hp hm hr hst => ⟨next_put hp (bistEnd_pass hm hr hst) rfl, next_put hp (bistEnd_fail hm hr hst) rfl⟩⟩
  · exact ⟨s.put (migrateOp s.dev h), exec_migrateGo hh ha, put_otp s _, put_pending s _,
      migrateOp_fields hmill hold hserv hsp hmig hiso hlt hlen⟩
  · exact ⟨s.put (migrationEnded s.dev h ns g), next_put hp (migrationDone_eq hmig hq hout) rfl, put_otp s _, put_pending s _,
      migrationEnded_fields hh hg hlt⟩
  · refine (if_neg (by simp [hh, hiso])).trans ?_
    simp only [hmig]

end Sys2Proof.Machine
end

section
/-! Epoch keys: the start of a change, use limits, the deadline, activation and KEY frames (R245 to R257). -/

namespace Sys2Proof.Machine

open Sys2Proof

/-- What of a channel belongs to the keys of its epochs. -/
def Chan.epochs (x : Chan) : Option EpKey × Option EpKey × Option EpKey × Nat × Nat × Nat :=
  (x.next, x.cur, x.old, x.epWant, x.epDeadline, x.epLast)

theorem curfewCause_epochs (d : Dev) (b c n : Nat) : ((curfewCause d c n).chan b).epochs = (d.chan b).epochs := by
  unfold curfewCause
  split
  · refine modChan_keeps Chan.epochs ?_ _ b c
    exact fun _ => rfl
  · split
    · refine modChan_keeps Chan.epochs ?_ _ b c
      exact fun _ => rfl
    · rfl

/-! ### The start of a change (R245, R246) -/

theorem draw_same {β : Type} (f : Dev → β) (hs : ∀ (d : Dev) (x : SecSt) (n : Nat), f { d with sec := x, fresh := n } = f d) (d : Dev) :
    f d.draw.1 = f d := hs d _ _

theorem zero_same {β : Type} (f : Dev → β) (hr : ∀ (d : Dev) (r : List (Nat × Word)), f { d with regs := r } = f d) (d : Dev)
    (l : List Fld) : f (d.zero l) = f d := by
  induction l generalizing d with
  | nil => rfl
  | cons g l ih => exact (ih _).trans (same_set f hr d g 0)

/-- Channel `c` of the part with NEXT loaded with `key`. -/
def nextInto (d : Dev) (c : Nat) (key : BitVec 256) (x : Chan) : Chan :=
  { x with next := some ⟨nextEpochId d c, key, 0, false⟩, epWant := 0,
           epDeadline := (d.chan c).epStart + d.get (CHX_KEYCFG_LEAD c),
           keySent := x.keySent.filter (fun e => owesCur 0 ≤ e.1) }

/-- The part with NEXT loaded with `key`, its confirmations and postponements cleared. -/
def nextLoaded (d : Dev) (c : Nat) (key : BitVec 256) : Dev :=
  (d.draw.1.zero [CHX_CONFIRM_MASK c, CHX_EPSTAT_POSTP c]).modChan c (nextInto d c key)

theorem epochStart_eq {d : Dev} {c : Nat} (key : BitVec 256) (hc : d.hasChan c = true) (hh : d.isHead = true)
    (hu : underCurfew d c = false) (hn : (d.chan c).next = none) (hs : startDue d c = true) (hok : d.get SEC_RNG_OK = 1) :
    epochStart d c key = curfewCause (nextLoaded d c key) c 2 := if_pos ⟨hc, hh, hu, hn, hs, hok⟩

theorem nextEpochId_wanted {d : Dev} {c : Nat} (h : (d.chan c).epWant = 1) :
    nextEpochId d c = match d.keyInForce c with | some k => (k.id + 1) % 65536 | none => 1 := by
  unfold nextEpochId
  exact if_neg (by omega)

theorem epochStart_fields {d : Dev} {c : Nat} (key : BitVec 256) (hlt : c < d.chans.length) (hw : (d.chan c).epWant = 1) :
    let e := curfewCause (nextLoaded d c key) c 2
    e.mem = d.mem
      ∧ (e.chan c).next = some ⟨match d.keyInForce c with | some k => (k.id + 1) % 65536 | none => 1, key, 0, false⟩
      ∧ (e.chan c).epWant = 0 ∧ (e.chan c).epDeadline = (d.chan c).epStart + d.get (CHX_KEYCFG_LEAD c)
      ∧ e.get (CHX_CONFIRM_MASK c) = 0 ∧ (e.chan c).cur = (d.chan c).cur ∧ (e.chan c).old = (d.chan c).old := by
  have hz : ∀ {β : Type} (f : Dev → β), (∀ (d : Dev) (r : List (Nat × Word)), f { d with regs := r } = f d) →
      (∀ (d : Dev) (x : SecSt) (n : Nat), f { d with sec := x, fresh := n } = f d) →
      f (d.draw.1.zero [CHX_CONFIRM_MASK c, CHX_EPSTAT_POSTP c]) = f d := fun f hr hs => by
    rw [zero_same f hr, draw_same f hs]
  have hchan : (nextLoaded d c key).chan c = nextInto d c key (d.chan c) := by
    rw [nextLoaded, chan_modChan_same _ _ _ (by rw [hz Dev.chans (fun _ _ => rfl) fun _ _ _ => rfl]; exact hlt),
      hz (Dev.chan · c) (fun _ _ => rfl) fun _ _ _ => rfl]
  have hep := curfewCause_epochs (nextLoaded d c key) c c 2
  rw [hchan] at hep
  simp only [Chan.epochs, nextInto, Prod.mk.injEq] at hep
  obtain ⟨hnext, hcur, hold, hwant, hdead, -⟩ := hep
  refine ⟨?_, hnext.trans (by rw [nextEpochId_wanted hw]), hwant, hdead, ?_, hcur, hold⟩
  · rw [curfewCause_same Dev.mem (fun _ _ => rfl) fun _ _ => rfl, nextLoaded, modChan_mem,
      hz Dev.mem (fun _ _ => rfl) fun _ _ _ => rfl]
  · have hk : CHX_CONFIRM c ≠ CHC_CURCNT c ∧ CHX_CONFIRM c ≠ PG_IST (pCHC c) ∧ CHX_CONFIRM c ≠ CHC_CURSTAT c := by
      simp only [CHX_CONFIRM, CHC_CURCNT, PG_IST, CHC_CURSTAT, rkey, pCHC]
      omega
    obtain ⟨hcnt, hist, hst⟩ := hk
    rw [get_of_getW (curfewCause_getW hcnt hist hst), nextLoaded, get_modChan, Dev.zero, Dev.zero, Dev.zero,
      get_of_getW (getW_set_ne _ _ _ (rkey_ne (by decide))), get_set_same _ _ _ rfl, Nat.zero_mod]

theorem epochStart_idle {d : Dev} {c : Nat} (key : BitVec 256)
    (h : d.get SEC_RNG_OK ≠ 1 ∨ d.tick < (d.chan c).epStart ∨ d.bell.started = false) : epochStart d c key = d := by
  refine if_neg fun ⟨_, _, _, _, hs, hok⟩ => ?_
  simp only [startDue, Bool.and_eq_true, decide_eq_true_eq] at hs
  obtain ⟨⟨hb, -⟩, ht⟩ := hs
  rcases h with h | h | h
  · exact h hok
  · omega
  · rw [h] at hb
    cases hb

theorem epochRequest_new {d : Dev} {c : Nat} (hn : (d.chan c).next = none) (hw : (d.chan c).epWant = 0) :
    epochRequest d c = d.modChan c fun x => { x with epWant := 1, epStart := d.tick } := by
  refine if_neg ?_
  simp [hn, hw]

/-! ### Use limits (R253) -/

theorem epochRequest_fields (d : Dev) {c : Nat} (hlt : c < d.chans.length) :
    (epochRequest d c).mem = d.mem ∧ (∀ k, (epochRequest d c).getW k = d.getW k) ∧ ((epochRequest d c).chan c).cur = (d.chan c).cur
      ∧ ((d.chan c).next = none → ((epochRequest d c).chan c).epWant ≠ 0) := by
  unfold epochRequest
  split
  · next h => exact ⟨rfl, fun _ => rfl, rfl, fun hn => by simpa [hn] using h⟩
  · rw [chan_modChan_same _ _ _ hlt]
    exact ⟨rfl, fun _ => rfl, rfl, fun _ => by simp⟩

/-- The soft limit reached for the first time. -/
def softReached (d : Dev) (c : Nat) : Dev := epochRequest ((d.set (CHX_KEYUSE_SOFT c) 1).ist (pCHX c) 5) c

theorem keyUseCheck_soft {d : Dev} {c : Nat} {k : EpKey} (hc : d.hasChan c = true) (hs : served d c = true)
    (hcur : (d.chan c).cur = some k) (huse : 251658240 ≤ k.use) (hcap : capped (d.chan c) = 0) (hsoft : d.get (CHX_KEYUSE_SOFT c) = 0) :
    keyUseCheck d c = softReached d c := by
  unfold keyUseCheck
  rw [if_neg (by simp [hc, hs])]
  simp only [hcur, hcap]
  rw [if_pos trivial, if_pos ⟨huse, hsoft⟩, softReached]

theorem softReached_fields (d : Dev) {c : Nat} (hlt : c < d.chans.length) :
    (softReached d c).mem = d.mem ∧ (softReached d c).get (CHX_KEYUSE_SOFT c) = 1 ∧ (softReached d c).bit (PG_IST (pCHX c)) 5 = true
      ∧ ((d.chan c).next = none → ((softReached d c).chan c).epWant ≠ 0) ∧ ((softReached d c).chan c).cur = (d.chan c).cur := by
  obtain ⟨hmem, hget, hcur, hwant⟩ := epochRequest_fields ((d.set (CHX_KEYUSE_SOFT c) 1).ist (pCHX c) 5) (c := c) hlt
  have hkey : CHX_KEYUSE c ≠ PG_IST (pCHX c) := rkey_ne (by decide)
  unfold softReached
  refine ⟨by rw [hmem, ist_mem, set_mem], ?_, ?_, hwant, hcur⟩
  · rw [get_of_getW (hget _), get_ist_off _ _ hkey, get_set_same _ _ _ rfl]
    rfl
  · exact (congrArg (bitOf · 5) (hget _)).trans (bit_ist_on _ (by decide))

/-! ### Activation (R250) -/

theorem activate_fields (d : Dev) {c : Nat} (t : Nat) (hlt : c < d.chans.length) :
    let e := activate d c t
    (e.chan c).old = (d.chan c).cur ∧ (e.chan c).cur = (d.chan c).next ∧ (e.chan c).next = none
      ∧ (e.chan c).epLast = t ∧ e.get (CHX_EPCNT_CHANGES c) = min (d.get (CHX_EPCNT_CHANGES c) + 1) (fldTop (CHX_EPCNT_CHANGES c))
      ∧ e.bit (PG_IST (pCHX c)) 4 = true ∧ (∀ b, b ≠ c → e.chan b = d.chan b) := by
  have hchan : ∀ b, (activate d c t).chan b
      = (d.modChan c fun x => { x with old := x.cur, cur := x.next, next := none, epWant := 0, epLast := t }).chan b := fun b => by
    rw [activate, chan_ist, chan_inc, chan_set, zero_same (Dev.chan · b) fun _ _ => rfl]
  have hcu : CHX_EPCNT c ≠ CHX_KEYUSE c := rkey_ne (by decide)
  have hcs : CHX_EPCNT c ≠ CHX_EPSTAT c := rkey_ne (by decide)
  simp only
  rw [hchan, chan_modChan_same _ _ _ hlt]
  refine ⟨rfl, rfl, rfl, rfl, ?_, ?_, fun b hb => ?_⟩
  · rw [activate, get_ist_off _ _ (rkey_ne (by decide)), get_inc_same _ _ rfl, get_of_getW (getW_set_ne _ _ _ hcs),
      Dev.zero, Dev.zero, Dev.zero, Dev.zero, get_of_getW (getW_set_ne _ _ _ hcs), get_of_getW (getW_set_ne _ _ _ hcu),
      get_of_getW (getW_set_ne _ _ _ hcu), get_modChan]
  · rw [activate, bit_ist_on _ (by decide)]
  · rw [hchan, chan_modChan_ne _ hb]

/-! ### KEY frames (R247, R248) -/

/-- Descriptor `i` filled with the KEY frame for node `a`, and the sending noted. -/
def keyFrameFilled (d : Dev) (c a i : Nat) (ek : BitVec 256) (key : EpKey) : Dev :=
  let e := (d.setDesc i 0 (1 * 2 ^ 30 + 5 * 2 ^ 25 + 2 * 2 ^ 22 + 0x3FFF00 + a)).setDesc i 1 (15 * 2 ^ 28 + 52 * 2 ^ 16)
  let e := e.setMemB (granAddr (bitsOf (e.desc i 2) 16 0)) (keyPayload ek a key.id key.key)
  e.modChan c fun x =>
    { x with keySent := if x.keySent.any (fun e => e.1 == owesCur a) ∧ x.next.isSome then delKey (owesCur a) x.keySent
                        else bindKey a e.tick (delKey (owesCur a) x.keySent) }


theorem keyFrameFilled_fields (d : Dev) (c a i : Nat) (ek : BitVec 256) (key : EpKey) :
    let e := (d.setDesc i 0 (1 * 2 ^ 30 + 5 * 2 ^ 25 + 2 * 2 ^ 22 + 0x3FFF00 + a)).setDesc i 1 (15 * 2 ^ 28 + 52 * 2 ^ 16)
    (keyFrameFilled d c a i ek key).mem = (e.setMemB (granAddr (bitsOf (e.desc i 2) 16 0)) (keyPayload ek a key.id key.key)).mem
      ∧ (keyFrameFilled d c a i ek key).regs = d.regs := by
  intro e
  rw [keyFrameFilled, modChan_mem, modChan_regs, setMemB_regs, setDesc_regs, setDesc_regs]
  exact ⟨rfl, rfl⟩

theorem keyPush_eq {d : Dev} {c a i k : Nat} {ek : BitVec 256} {key : EpKey} (hc : d.hasChan c = true) (hh : d.isHead = true)
    (hk : keyToSend d c a = some k) (hek : enrollKey d c a = some ek) (hslot : slotKey d c k = some key) (hf : fenced d c a = false)
    (has : asleepNode d c a = false) (hr : inRange d c i false = true) (hi : d.entry c i = none) :
    keyPush d c a i = pushOp raise (keyFrameFilled d c a i ek key) c i ⟨none, none, false, true⟩ := by
  unfold keyPush
  rw [hk, hek]
  simp only [hslot]
  exact if_neg (by simp [hc, hh, hf, has, hr, hi])

/-- Settles O48: each row is a branch of its operation; a change's start, the soft limit and activation are read field by field. -/
theorem epochKeysChange : Obligations.EpochKeysChange := by
  refine ⟨fun s c key hp hc hlt hh hu hn hw hs hok => ?_, fun s c key h => next_self (epochStart_idle key h) rfl,
    fun s c hp hc hh hlife hdue hn hw => next_put hp ?_ rfl, fun s c k hp hc hs hcur huse hcap hsoft hlt => ?_,
    fun s c hp hc hh hu hn hs hhalf => next_put hp (if_pos ⟨hc, hh, hu, hn, hs, hhalf⟩) rfl,
    fun s c hp hc hh hn hw hdead hall => next_put hp ?_ rfl, fun s c hp hc hold hdue => next_put hp ?_ rfl,
    fun s c a i k ek key hp hc hh hk hek hslot hf has hr hi => ?_, fun d c t hlt => activate_fields d t hlt⟩
  · exact ⟨s.put (curfewCause (nextLoaded s.dev c key) c 2), next_put hp (epochStart_eq key hc hh hu hn hs hok) rfl,
      put_otp s _, put_pending s _, epochStart_fields key hlt hw⟩
  · refine (if_pos ⟨hc, hh, ?_, hdue⟩).trans (epochRequest_new hn hw)
    simpa [Dev.has] using hlife
  · obtain ⟨hmem, hsoft1, hist, hwant, hcur1⟩ := softReached_fields s.dev hlt
    exact ⟨s.put (softReached s.dev c), next_put hp (keyUseCheck_soft hc hs hcur huse hcap hsoft) rfl, put_otp s _, put_pending s _,
      hmem, hsoft1, hist, hwant, hcur1.trans hcur⟩
  · exact (if_pos ⟨hc, hh⟩).trans ((if_neg (by simp [hw]; exact ⟨Option.isSome_iff_ne_none.mp hn, hdead⟩)).trans (if_pos hall))
  · exact (if_pos hc).trans (if_pos ⟨hold, hdue⟩)
  · obtain ⟨hmem, hregs⟩ := keyFrameFilled_fields s.dev c a i ek key
    exact ⟨s.put (pushOp raise (keyFrameFilled s.dev c a i ek key) c i ⟨none, none, false, true⟩), keyFrameFilled s.dev c a i ek key,
      next_put hp (keyPush_eq hc hh hk hek hslot hf has hr hi) rfl, put_otp s _, put_pending s _, rfl, hmem, hregs⟩

end Sys2Proof.Machine
end

section
/-! Services: the tick's work, timed outputs, the event ring (R323 to R334). -/

namespace Sys2Proof.Machine

open Sys2Proof

/-! ### The work of a tick (R334) -/

/-- What the services' work of a tick leaves: the timed outputs, the channels, the pages and flash. -/
def Dev.unserved (d : Dev) : List TimedOut × List Chan × List (Nat × PageX) × Flash := (d.svc.outs, d.chans, d.pages, d.flash)

theorem set_unserved (d : Dev) (f : Fld) (x : Nat) : (d.set f x).unserved = d.unserved := rfl
theorem inc_unserved (d : Dev) (f : Fld) : (d.inc f).unserved = d.unserved := rfl
theorem setMemW_unserved (d : Dev) (a x : Nat) : (d.setMemW a x).unserved = d.unserved := rfl
theorem modSes_unserved (d : Dev) (n : Nat) (f : Sess → Sess) : (d.modSes n f).unserved = d.unserved := rfl


theorem ite_unserved {p : Prop} [Decidable p] {a b : Dev} {x : List TimedOut × List Chan × List (Nat × PageX) × Flash}
    (ha : a.unserved = x) (hb : b.unserved = x) : (if p then a else b).unserved = x := by
  split
  · exact ha
  · exact hb

theorem markRecord_unserved (d : Dev) (r bits : Nat) : (markRecord d r bits).unserved = d.unserved := by
  unfold markRecord
  extract_lets front back dirty copied w q changed marked svc noted svc' listed
  have hcopied : copied.unserved = d.unserved := ite_unserved rfl
    (forEach_same Dev.unserved _ _ (fun e _ => setMemW_unserved e _ _) d)
  have hmarked : marked.unserved = d.unserved := (setMemW_unserved _ _ _).trans hcopied
  have hnoted : noted.unserved = d.unserved := ite_unserved hmarked hmarked
  have hlisted : listed.unserved = d.unserved := ite_unserved hnoted hnoted
  exact (inc_unserved _ _).trans hlisted

theorem svcPost_unserved (d : Dev) (s : Nat) (soe : Bool) (r : EvRec) : (svcPost d s soe r).unserved = d.unserved := by
  unfold svcPost
  refine ite_unserved rfl (ite_unserved (ite_unserved rfl rfl) (ite_unserved rfl rfl))

theorem resync_unserved (d : Dev) (s n : Nat) : (resync d s n).unserved = d.unserved := by
  unfold resync
  extract_lets room changes
  have hchanges : changes.unserved = d.unserved := ite_unserved ((svcPost_unserved _ _ _ _).trans (set_unserved _ _ _)) rfl
  exact ite_unserved ((svcPost_unserved _ _ _ _).trans ((set_unserved _ _ _).trans hchanges)) hchanges

theorem publishRecord_unserved (d : Dev) (s : Nat) (k : SvcWork) (late : Bool) (r : Nat) :
    (publishRecord d s k late r).unserved = d.unserved := by
  unfold publishRecord
  split
  · rfl
  · refine ite_unserved rfl (ite_unserved ?_ ?_)
    · rw [svcPost_unserved, svcPost_unserved]
    · rw [svcPost_unserved]

theorem publishSoe_unserved (d : Dev) (s : Nat) (k : SvcWork) (late : Bool) (i : Nat) : (publishSoe d s k late i).unserved = d.unserved := by
  unfold publishSoe
  exact ite_unserved rfl (svcPost_unserved _ _ _ _)

theorem publishTo_unserved (d : Dev) (k : SvcWork) (late : Bool) (s : Nat) : (publishTo d k late s).unserved = d.unserved := by
  unfold publishTo
  simp only
  rw [forEach_same Dev.unserved _ _ (fun e i => publishSoe_unserved e s k late i),
    forEach_same Dev.unserved _ _ (fun e r => publishRecord_unserved e s k late r), resync_unserved]

theorem applyMarks_unserved (d : Dev) (n : Nat) (l : List Nat) : (applyMarks d n l).unserved = d.unserved := by
  refine forEach_same Dev.unserved _ _ (fun e mi => ite_unserved rfl ?_) d
  exact forEach_same Dev.unserved _ _ (fun e x => markRecord_unserved e _ _) e

/-- The work of a tick is closed, and nothing that the services leave has changed. -/
theorem tickServices_fields {d : Dev} {k : SvcWork} {l : List SvcWork} (hw : d.svc.work = k :: l) (hon : d.works 0x50 = true)
    (hv : d.get DEV_VIGSTAT_STATE = 0) : (tickServices d).svc.work = l ∧ (tickServices d).unserved = d.unserved := by
  unfold tickServices
  rw [hw]
  simp -zeta only
  rw [if_neg (by simp [hon, hv])]
  extract_lets late marked published closed load
  have hmarked : marked.unserved = d.unserved := ite_unserved rfl (applyMarks_unserved _ _ _)
  have hpublished : published.unserved = d.unserved :=
    (forEach_same Dev.unserved _ _ (fun e s => publishTo_unserved e k late s) _).trans hmarked
  exact ⟨rfl, (set_unserved _ _ _).trans ((set_unserved _ _ _).trans hpublished)⟩

/-! ### Timed outputs (R325, R326, R330) -/

/-- Word 7 of the request block of session `n`. -/
theorem writeReg_toreq (o : Otp) (d : Dev) (w : Who) {n : Nat} (v : Nat) (hn : n < 8) :
    writeReg o d w 0x53 (0x11C + 0x20 * n) v = toreqWrite d n v := by
  interval_cases n <;> rfl

theorem regRow_toreq {n : Nat} (hn : n < 8) : (regRow 0x53 (0x11C + 0x20 * n)).isSome = true := by
  interval_cases n <;> rfl

theorem populated_low (v : Variant) {p : Nat} (h : p ∈ [0x30, 0x31, 0x32, 0x33, 0x34, 0x35, 0x52, 0x53]) : populated v p = true := by
  simp only [List.mem_cons, List.not_mem_nil, or_false] at h
  rcases h with rfl | rfl | rfl | rfl | rfl | rfl | rfl | rfl <;> cases v <;> decide

theorem bitOf_putBit_same (x i : Nat) : bitOf (putBit x i true) i = true := by rw [bitOf_putBit, if_pos rfl]

theorem exec_timedOutputRequest {s : State} {w : Who} {n : Nat} {w7 : Word} (hn : n < 8)
    (ha : Admits s w 1 (regAddr 0x53 (0x11C + 0x20 * n)) [putBit w7.toNat 31 true]) :
    exec (.timedOutputRequest w n w7) s = .next (s.put (toRequest (writeFields s.dev 0x53 (0x11C + 0x20 * n) (putBit w7.toNat 31 true)) n
      (putBit w7.toNat 31 true))) := by
  have he : exec (.timedOutputRequest w n w7) s = regWrite s w (regAddr 0x53 (0x11C + 0x20 * n)) (putBit w7.toNat 31 true) := rfl
  rw [he, regWrite_admitted ha (populated_low _ (by decide)) (by omega) (regRow_toreq hn) (by simp), writeReg_toreq _ _ _ _ hn,
    toreqWrite, if_pos (bitOf_putBit_same _ _)]

theorem post_getW (d : Dev) (s : Nat) (r : EvRec) (k : Nat) : (d.post s r).getW k = d.getW k := by
  unfold Dev.post
  split <;> rfl

theorem post_svc (d : Dev) (s : Nat) (r : EvRec) : (d.post s r).svc = d.svc := by
  unfold Dev.post
  split <;> rfl

theorem toRequest_refused {d : Dev} {n w7 : Nat} (h : d.hasChan (bitsOf (d.getW (SVC_TOREQ n 0)) 31 26) = false ∨ 16 < bitsOf w7 4 0
    ∨ 1000000000 ≤ bitsOf (d.getW (SVC_TOREQ n 2)) 29 0) :
    (toRequest d n w7).getW (SVC_TORES n) = 2 ^ 31 + 8 * 2 ^ 24 + 0x1FFF ∧ (toRequest d n w7).svc = d.svc := by
  have he : toRequest d n w7 = toRefuse d n (bitsOf (d.getW (SVC_TOREQ n 0)) 31 26) 8 :=
    if_pos (h.imp_right fun h => h.imp_right .inl)
  rw [he, toRefuse, toStatus, post_getW, getW_setW_same, post_svc]
  exact ⟨rfl, rfl⟩

theorem toreq_page {n : Nat} (hn : n < 8) : (regAddr 0x53 (0x11C + 0x20 * n) - 0x2000000) / 4096 = 0x53
    ∧ regAddr 0x53 (0x11C + 0x20 * n) % 4096 = 0x11C + 0x20 * n :=
  ⟨regAddr_page (by omega), regAddr_off (by omega)⟩

theorem reqWord_toreq (d : Dev) (n v : Nat) :
    reqWord d n [(regAddr 0x53 (0x11C + 0x20 * n), v)] = d.getW (SVC_TOREQ n 0) := by
  have hne : 0x2053100 + 0x20 * n ≠ regAddr 0x53 (0x11C + 0x20 * n) := by
    simp only [regAddr]
    omega
  have hnone : findKey (0x2053100 + 0x20 * n) [(regAddr 0x53 (0x11C + 0x20 * n), v)] = none := by
    simp [findKey, hne.symm]
  rw [reqWord, hnone]
  rfl

/-- Word 7 of a request block carries none of the access codes that the gates guard apart. -/
theorem toreq_unguarded {n : Nat} (hn : n < 8) : regHas 0x53 (0x11C + 0x20 * n) .rwp = false ∧ regHas 0x53 (0x11C + 0x20 * n) .rwl = false
    ∧ boundTo 0x53 (0x11C + 0x20 * n) = some (some n) := by
  interval_cases n <;> exact ⟨rfl, rfl, rfl⟩

theorem regReason_toreq {d : Dev} {n v : Nat} (hr : d.get TWIN_STAT_ROLE ≠ 2) (hn : n < 8) (hv : bitOf v 31 = true)
    (hop : scopeOp (d.ses n).scope 4 = true)
    (hsc : toInScope d n (bitsOf (d.getW (SVC_TOREQ n 0)) 31 26) (bitsOf (d.getW (SVC_TOREQ n 0)) 21 0) = false) :
    regReason d (.session n) [(regAddr 0x53 (0x11C + 0x20 * n), v)] (regAddr 0x53 (0x11C + 0x20 * n)) v = 7 := by
  obtain ⟨hp, ho⟩ := toreq_page hn
  obtain ⟨hrwp, hrwl, hbound⟩ := toreq_unguarded hn
  have hout : outOfScope d n 0x53 (0x11C + 0x20 * n) v [(regAddr 0x53 (0x11C + 0x20 * n), v)] = true := by
    have hmod : (0x11C + 0x20 * n - 0x100) % 0x20 = 0x1C := by omega
    have hin : 0x100 ≤ 0x11C + 0x20 * n ∧ 0x11C + 0x20 * n < 0x200 := by omega
    rw [outOfScope, reqWord_toreq d n v, hmod, hsc, hv]
    simp [hin]
  unfold regReason
  simp only [hp, ho, hbound, hrwp, hrwl, hout, hop]
  rw [if_neg (by simp), if_neg (by simp [hr]), if_neg (by simp), if_neg (by simp), if_neg (by omega), if_neg (by omega), if_neg (by simp),
    if_neg (by omega), if_neg (by omega), if_neg (by omega), if_pos trivial]

theorem exec_tocan {s : State} {m : Nat} {val : Word} {o : TimedOut} (ha : Admits s (.session m) 1 (regAddr 0x53 0x048) [val.toNat])
    (hgo : bitOf val.toNat 31 = true)
    (hfind : s.dev.svc.outs.find? (fun o => o.handle == bitsOf val.toNat 12 0 && o.sess == m) = some o) (ho : o.desc = none) :
    exec (.tocan (.session m) val) s = .next (s.put (toEnd s.dev (bitsOf val.toNat 12 0) 5 0)) := by
  have he : exec (.tocan (.session m) val) s = regWrite s (.session m) (regAddr 0x53 0x048) val.toNat := rfl
  have hw : writeReg s.otp s.dev (.session m) 0x53 0x048 val.toNat
      = if bitOf val.toNat 31 then toCancel s.dev m (bitsOf val.toNat 12 0) else s.dev := rfl
  have hc : toCancel s.dev m (bitsOf val.toNat 12 0) = toEnd s.dev (bitsOf val.toNat 12 0) 5 0 := by
    unfold toCancel
    rw [hfind]
    simp only [ho]
  rw [he, regWrite_admitted ha (populated_low _ (by decide)) (by decide) (by decide) (by simp), hw, if_pos hgo, hc]

/-! ### The event ring (R323) -/

theorem exec_soerel {s : State} {w : Who} {n : Nat} (hn : n < 2 ^ 16) (ha : Admits s w 1 (regAddr 0x52 0x04C) [n]) :
    exec (.soerel w n) s = .next (s.put (soerelOp s.dev n)) := by
  have he : exec (.soerel w n) s = regWrite s w (regAddr 0x52 0x04C) (n % 2 ^ 16) := rfl
  have hw : writeReg s.otp s.dev w 0x52 0x04C n = soerelOp s.dev (bitsOf n 15 0) := rfl
  rw [he, Nat.mod_eq_of_lt hn, regWrite_admitted ha (populated_low _ (by decide)) (by decide) (by decide) (by simp), hw, bitsOf_of_lt hn]

theorem soerelOp_fields (d : Dev) (n : Nat) :
    let m := min n (d.get SVC_SOEFILL_FILL)
    (soerelOp d n).mem = d.mem ∧ (soerelOp d n).get SVC_SOEFILL_FILL = d.get SVC_SOEFILL_FILL - m
      ∧ (soerelOp d n).get SVC_SOESTAT_RD = (d.get SVC_SOESTAT_RD + m) % 65536
      ∧ (soerelOp d n).get SVC_SOESTAT_WR = d.get SVC_SOESTAT_WR
      ∧ (∀ k, k ≠ SVC_SOEFILL → k ≠ SVC_SOESTAT → (soerelOp d n).getW k = d.getW k) := by
  have hfill : d.get SVC_SOEFILL_FILL < 2 ^ 17 := get_lt d SVC_SOEFILL_FILL
  have hkey : SVC_SOESTAT ≠ SVC_SOEFILL := rkey_ne (by decide)
  unfold soerelOp
  refine ⟨rfl, ?_, ?_, ?_, fun k hf hs => ?_⟩
  · rw [get_set_same _ _ _ rfl]
    exact Nat.mod_eq_of_lt (by simp only [SVC_SOEFILL_FILL] at *; omega)
  · rw [get_of_getW (getW_set_ne _ _ _ hkey), get_set_same _ _ _ rfl]
    exact Nat.mod_mod _ _
  · rw [get_of_getW (getW_set_ne _ _ _ hkey), get_set_apart _ _ _ _ rfl (by decide)]
  · rw [getW_set_ne _ _ _ hf, getW_set_ne _ _ _ hs]

/-- Settles O49: a tick's work and each write are read by the operation's branch. -/
theorem servicesWorkAndTimedOutputs : Obligations.ServicesWorkAndTimedOutputs := by
  refine ⟨fun s k l hp hw hon hv => ?_, fun s hw => next_self (by unfold tickServices; rw [hw]) rfl,
    fun s w n w7 hn => ?_, fun d n w7 _ h => toRequest_refused h,
    fun d n m v hr hn _ hv hop hsc hm => hm ▸ regReason_toreq hr hn hv hop hsc,
    fun s m val o ha hgo hfind ho => exec_tocan ha hgo hfind ho, fun s w n hn ha => ?_⟩
  · obtain ⟨hwork, hkept⟩ := tickServices_fields hw hon hv
    simp only [Dev.unserved, Prod.mk.injEq] at hkept
    obtain ⟨houts, hchans, hpages, hflash⟩ := hkept
    exact ⟨s.put (tickServices s.dev), next_put hp rfl rfl, put_otp s _, put_pending s _, hwork, houts, hchans, hpages, hflash⟩
  · intro v d ha
    exact exec_timedOutputRequest hn ha
  · exact ⟨s.put (soerelOp s.dev n), exec_soerel hn ha, put_otp s _, put_pending s _, soerelOp_fields s.dev n⟩

end Sys2Proof.Machine
end

section
/-! The interrupt controller: raises, delivery, claims, completions, retractions and coalescing (R383 to R398). -/

namespace Sys2Proof.Machine

open Sys2Proof

/-! ### Association lists and sets of numbers -/

theorem lookupD_bindKey_same {α : Type} (x : α) (k : Nat) (a : α) (l : List (Nat × α)) : lookupD x k (bindKey k a l) = a := by
  induction l with
  | nil => simp [bindKey, lookupD]
  | cons e l ih =>
    rw [bindKey]
    split
    · simp [lookupD]
    · next h => rw [lookupD, if_neg h, ih]

theorem lookupD_filter_ne {α : Type} (x : α) (k : Nat) (l : List (Nat × α)) : lookupD x k (l.filter fun e => e.1 != k) = x := by
  induction l with
  | nil => rfl
  | cons e l ih =>
    by_cases h : e.1 = k
    · simp [h, ih]
    · rw [List.filter_cons_of_pos (by simpa using h), lookupD, if_neg h, ih]

theorem mem_insertNat (n : Nat) (l : List Nat) : n ∈ insertNat n l := by
  induction l with
  | nil => simp [insertNat]
  | cons m l ih =>
    rw [insertNat]
    split
    · simp
    · split
      · next h => simp [h]
      · exact List.mem_cons_of_mem _ ih

/-! ### Raises (R383, R384) -/

/-- A doorbell raised once more, before its group holds it. -/
def raisedOnce (d : Dev) (n data : Nat) : Dev :=
  { d with intc := { d.intc with raises := bindKey n (min (raisesOf d n + 1) 255) d.intc.raises,
                                 data := bindKey n data d.intc.data } }

theorem intcRaise_plain {d : Dev} {n : Nat} (data : Nat) (hlo : 512 ≤ n) (hhi : n < 1023) (hce : d.get (INTC_SRC_CE n) = 0) :
    intcRaise d n data = raisedOnce d n data := by
  unfold intcRaise
  rw [if_neg (by omega)]
  refine if_neg ?_
  have hg : (raisedOnce d n data).get (INTC_SRC_CE n) = 0 := hce
  simp only [Dev.has, bne_iff_ne]
  exact fun h => h hg

theorem raisedOnce_raises (d : Dev) (n data : Nat) : raisesOf (raisedOnce d n data) n = min (raisesOf d n + 1) 255 :=
  lookupD_bindKey_same _ _ _ _

theorem raisedOnce_pending (d : Dev) {n : Nat} (data : Nat) (hlo : 512 ≤ n) (hhi : n < 1023) :
    srcPending (raisedOnce d n data) n = true := by
  rw [srcPending, if_neg (by omega), raisedOnce_raises]
  simp [hhi]

theorem intcRaise_bad {d : Dev} {n : Nat} (data : Nat) (h : n < 512 ∨ n = 1023) :
    intcRaise d n data = (d.inc INTC_ERRCNT_BADRAISE).ist 0x30 1 := if_pos (by omega)

theorem exec_swdb {s : State} {w : Who} {n : Nat} (hn : n < 1024) (ha : Admits s w 1 (regAddr 0x30 0x044) [n]) :
    exec (.swdb w n) s = .next (s.put (intcRaise s.dev n 0)) := by
  have he : exec (.swdb w n) s = regWrite s w (regAddr 0x30 0x044) (n % 2 ^ 10) := rfl
  have hw : writeReg s.otp s.dev w 0x30 0x044 n = intcRaise s.dev (bitsOf n 9 0) 0 := rfl
  rw [he, Nat.mod_eq_of_lt (show n < 2 ^ 10 from hn), regWrite_admitted ha (populated_low _ (by decide)) (by decide) (by decide) (by simp),
    hw, bitsOf_of_lt hn]

/-! ### Offers (R391, R392, R397) -/

/-- A register that no offer, claim or retraction writes. -/
def OffOffers (k : Nat) : Prop := (∀ t, t < 4 → k ≠ INTC_OFFER t) ∧ k ≠ INTC_CNT

theorem offer_ne_cnt (t : Nat) : INTC_OFFER t ≠ INTC_CNT := by
  simp only [INTC_OFFER, INTC_CNT, rkey]
  omega

theorem iff_same {β : Type} (g : Dev → β) (b : Bool) (f : Dev → Dev) (d : Dev) (h : g (f d) = g d) : g (d.iff b f) = g d :=
  iff_keeps (fun e => g e = g d) b f d rfl h

theorem forEach_same_mem {α β : Type} (g : Dev → β) {l : List α} {f : Dev → α → Dev} (h : ∀ d, ∀ a ∈ l, g (f d a) = g d) (d : Dev) :
    g (d.forEach l f) = g d := by
  induction l generalizing d with
  | nil => rfl
  | cons a l ih =>
    rw [forEach_cons, ih (fun e b hb => h e b (List.mem_cons_of_mem _ hb)), h d a List.mem_cons_self]

theorem retractOffer_getW {d : Dev} {t k : Nat} (ht : k ≠ INTC_OFFER t) (hc : k ≠ INTC_CNT) : (retractOffer d t).getW k = d.getW k :=
  iff_same (Dev.getW · k) _ _ d ((getW_inc_ne _ _ hc).trans (getW_set_ne _ _ _ ht))

theorem retractOffer_same {β : Type} (g : Dev → β) (hr : ∀ (d : Dev) (r : List (Nat × Word)), g { d with regs := r } = g d) (d : Dev)
    (t : Nat) : g (retractOffer d t) = g d := iff_same g _ _ d ((same_inc g hr _ _).trans (same_set g hr _ _ _))

theorem withdraw_getW {d : Dev} {n k : Nat} (hk : OffOffers k) : (withdraw d n).getW k = d.getW k := by
  obtain ⟨ho, -⟩ := hk
  unfold withdraw
  split
  · rfl
  · exact forEach_same_mem (Dev.getW · k) (fun e t ht => iff_same (Dev.getW · k) _ _ e (getW_set_ne _ _ _ (ho t (List.mem_range.mp ht)))) d

theorem withdraw_mem (d : Dev) (n : Nat) : (withdraw d n).mem = d.mem := by
  unfold withdraw
  split
  · rfl
  · exact forEach_same Dev.mem _ _ (fun e t => iff_same Dev.mem _ _ e (set_mem _ _ _)) d

theorem retractIneligible_getW {d e : Dev} {k : Nat} (hk : OffOffers k) : (retractIneligible e d).getW k = d.getW k := by
  obtain ⟨ho, hc⟩ := hk
  exact forEach_same_mem (Dev.getW · k)
    (fun e t ht => iff_same (Dev.getW · k) _ _ e (retractOffer_getW (ho t (List.mem_range.mp ht)) hc)) d

theorem retractIneligible_mem (d e : Dev) : (retractIneligible e d).mem = d.mem :=
  forEach_same Dev.mem _ _ (fun e t => iff_same Dev.mem _ _ e (retractOffer_same Dev.mem (fun _ _ => rfl) e t)) d

/-! ### Masks of sources (R384, R396) -/

/-- The row of the source registers. -/
def intcSrcRow : RegRow :=
  ⟨0x400, 4, 256, 0, 1, 0x1F000000, [(.rw, 31, 31), (.ro, 30, 30), (.rws, 29, 29), (.rws, 28, 24), (.rws, 23, 18), (.rw, 11, 0)]⟩

theorem intcSrc_offOffers (n : Nat) : OffOffers (INTC_SRC n) := by
  refine ⟨fun t ht => ?_, ?_⟩ <;> simp only [INTC_SRC, INTC_OFFER, INTC_CNT, rkey]
  · omega
  · omega

section sources
variable {n : Nat} (hn : n < 1023)
include hn

theorem regRow_intcSrc : regRow (0x32 + n / 256) (0x400 + 4 * (n % 256)) = some intcSrcRow := by
  have hq : n / 256 < 4 := by omega
  have hrows : blockRows (0x32 + n / 256) = [intcSrcRow] := by
    generalize n / 256 = q at hq
    interval_cases q <;> rfl
  have hold : rowHolds intcSrcRow (0x400 + 4 * (n % 256)) = true := by
    simp only [rowHolds, intcSrcRow]
    rw [if_neg (by omega)]
    simp
    omega
  rw [regRow, if_neg (by omega), hrows]
  exact List.find?_cons_of_pos hold

theorem heldAs_intcSrc (x : Nat) : heldAs (0x32 + n / 256) (0x400 + 4 * (n % 256)) x = x := by
  unfold heldAs
  rw [if_neg (by omega), if_neg (by omega), if_neg (by omega), if_neg (by omega), if_neg (by omega), if_neg (by omega),
    if_neg (by omega), if_neg (by omega), if_neg (by omega), if_neg (by omega), if_neg (by omega), if_neg (by omega), if_neg (by omega)]

theorem writeReg_source (o : Otp) (d : Dev) (w : Who) (v : Nat) : writeReg o d w (0x32 + n / 256) (0x400 + 4 * (n % 256)) v
    = retractIneligible d (withdraw (writeFields d (0x32 + n / 256) (0x400 + 4 * (n % 256)) v) n) := by
  have hidx : (0x32 + n / 256 - 0x32) * 256 + (0x400 + 4 * (n % 256) - 0x400) / 4 = n := by omega
  unfold writeReg
  rw [if_neg (by omega), if_neg (by omega), if_neg (by omega), if_neg (by omega), if_neg (by omega), if_neg (by omega),
    if_neg (by omega), if_neg (by omega), if_neg (by omega), if_neg (by omega), if_pos (by omega), hidx]

theorem source_masked {d : Dev} {v : Nat} {en : Bool} (hv : bitOf v 31 = en) :
    let e := retractIneligible d (withdraw (writeFields d (0x32 + n / 256) (0x400 + 4 * (n % 256)) v) n)
    e.mem = d.mem ∧ e.get (INTC_SRC_EN n) = b2n en := by
  have hlive : liveBlocked d (0x32 + n / 256) (0x400 + 4 * (n % 256)) v = false := by
    have hp : 0x32 + n / 256 ≠ 0x52 := by omega
    simp [liveBlocked, hp]
  have hbit := writeFields_bit (regRow_intcSrc hn) (by decide : 31 < 32) hlive (heldAs_intcSrc hn)
  have hoff := intcSrc_offOffers n
  refine ⟨?_, ?_⟩
  · rw [retractIneligible_mem, withdraw_mem, (writeFields_getW (regRow_intcSrc hn) hlive).2]
  · rw [get_of_getW (retractIneligible_getW hoff), get_of_getW (withdraw_getW hoff), get_bit _ rfl]
    exact congrArg b2n (hbit.trans hv)

end sources

theorem exec_sourceMask {s : State} {w : Who} {n : Nat} {en : Bool} (hn : n < 1023)
    (ha : Admits s w 1 (regAddr (0x32 + n / 256) (0x400 + 4 * (n % 256))) [putBit (s.dev.pendingW (INTC_SRC n)) 31 en]) :
    exec (.sourceMask w n en) s = .next (s.put (retractIneligible s.dev (withdraw (writeFields s.dev (0x32 + n / 256)
      (0x400 + 4 * (n % 256)) (putBit (s.dev.pendingW (INTC_SRC n)) 31 en)) n))) := by
  have he : exec (.sourceMask w n en) s = regWrite s w (regAddr (0x32 + n / 256) (0x400 + 4 * (n % 256)))
    (putBit (s.dev.pendingW (INTC_SRC n)) 31 en) := rfl
  have hpop : populated s.dev.part (0x32 + n / 256) = true := by
    refine populated_low _ ?_
    have hq : n / 256 < 4 := by omega
    generalize n / 256 = q at hq
    interval_cases q <;> decide
  rw [he, regWrite_admitted ha hpop (by omega) (by rw [regRow_intcSrc hn]; rfl) (by omega), writeReg_source hn]

/-! ### Delivery (R389 to R392) -/

theorem deliver_steward {d : Dev} {n t : Nat} (hw : d.works 0x30 = true) (hd : deliverable d n = true) (hc : chooseTarget d n = some t)
    (ht : t < 4) : deliver d n = offerTo d n t := by
  unfold deliver
  rw [if_neg (by simp [hw, hd]), hc]
  exact if_pos ht

theorem deliver_idle {d : Dev} {n : Nat} (h : deliverable d n = false) : deliver d n = d := if_pos (.inr h)

theorem offerTo_fields (d : Dev) {n : Nat} (t : Nat) (hn : n < 1024) :
    (offerTo d n t).mem = d.mem ∧ offered (offerTo d n t) t n = true
      ∧ (offerTo d n t).get (INTC_OFFER_TAG t) = (d.get (INTC_OFFER_TAG t) + 1) % 2 ^ ((INTC_OFFER_TAG t).hi + 1 - (INTC_OFFER_TAG t).lo)
      ∧ (∀ k, k ≠ INTC_OFFER t → k ≠ INTC_CNT → (offerTo d n t).getW k = d.getW k) := by
  have hvs : (INTC_OFFER_VALID t).apart (INTC_OFFER_SRC t) = true := by simp [Fld.apart, INTC_OFFER_VALID, INTC_OFFER_SRC]
  have hvt : (INTC_OFFER_VALID t).apart (INTC_OFFER_TAG t) = true := by simp [Fld.apart, INTC_OFFER_VALID, INTC_OFFER_TAG]
  have hst : (INTC_OFFER_SRC t).apart (INTC_OFFER_TAG t) = true := by simp [Fld.apart, INTC_OFFER_SRC, INTC_OFFER_TAG]
  unfold offerTo
  simp only
  generalize hr : (d.iff (d.has (INTC_OFFER_VALID t)) fun d => d.inc INTC_CNT_RETRACT) = e
  have hkeep : ∀ k, k ≠ INTC_CNT → e.getW k = d.getW k := fun k hk => by
    rw [← hr]
    exact iff_same (Dev.getW · k) _ _ d (getW_inc_ne _ _ hk)
  have hmem : e.mem = d.mem := by
    rw [← hr]
    exact iff_same Dev.mem _ _ d rfl
  refine ⟨hmem, ?_, ?_, fun k ho hc => ?_⟩
  · have hvalid : (((e.incWrap (INTC_OFFER_TAG t)).set (INTC_OFFER_SRC t) n).set (INTC_OFFER_VALID t) 1).get (INTC_OFFER_VALID t) = 1 :=
      get_set_same _ _ _ rfl
    have hsrc : (((e.incWrap (INTC_OFFER_TAG t)).set (INTC_OFFER_SRC t) n).set (INTC_OFFER_VALID t) 1).get (INTC_OFFER_SRC t) = n := by
      rw [get_set_apart _ _ _ _ rfl hvs, get_set_same _ _ _ rfl]
      exact Nat.mod_eq_of_lt hn
    simp [offered, Dev.has, hvalid, hsrc]
  · rw [get_set_apart _ _ _ _ rfl hvt, get_set_apart _ _ _ _ rfl hst, Dev.incWrap, get_set_same _ _ _ rfl,
      get_of_getW (hkeep _ (offer_ne_cnt t)), Nat.mod_mod]
  · rw [getW_set_ne _ _ _ ho, getW_set_ne _ _ _ ho, Dev.incWrap, getW_set_ne _ _ _ ho, hkeep k hc]

/-! ### Claims and completions (R391, R394, R395) -/

theorem regRow_claim {t : Nat} (ht : t < 4) : (regRow 0x31 (0x104 + 0x40 * t)).isSome = true ∧ (regRow 0x31 (0x108 + 0x40 * t)).isSome = true := by
  interval_cases t <;> exact ⟨rfl, rfl⟩

section steward
variable {s : State} {p : Priv} {t n : Nat} (ht : t < 4) (hn : n < 1024)
include ht hn

theorem exec_claim {tag : Nat} (htag : tag < 16) (ha : Admits s (.steward t p) 1 (regAddr 0x31 (0x104 + 0x40 * t)) [tag * 2 ^ 16 + n]) :
    exec (.claim (.steward t p) t n tag) s = .next (s.put (claimOp (stewardWakes s.dev t) t n tag)) := by
  have he : exec (.claim (.steward t p) t n tag) s
    = regWrite s (.steward t p) (regAddr 0x31 (0x104 + 0x40 * t)) (tag % 16 * 2 ^ 16 + n % 1024) := rfl
  have hw : ∀ v, writeReg s.otp s.dev (.steward t p) 0x31 (0x104 + 0x40 * t) v
      = claimOp (stewardWakes s.dev t) t (bitsOf v 9 0) (bitsOf v 19 16) := fun v => by
    interval_cases t <;> rfl
  have hlow : bitsOf (tag * 2 ^ 16 + n) 9 0 = n := by simp only [bitsOf]; omega
  have hhigh : bitsOf (tag * 2 ^ 16 + n) 19 16 = tag := by simp only [bitsOf]; omega
  rw [he, Nat.mod_eq_of_lt htag, Nat.mod_eq_of_lt hn, regWrite_admitted ha (populated_low _ (by decide)) (by omega) (regRow_claim ht).1
    (by omega), hw, hlow, hhigh]

theorem exec_complete (ha : Admits s (.steward t p) 1 (regAddr 0x31 (0x108 + 0x40 * t)) [n]) :
    exec (.complete (.steward t p) t n) s = .next (s.put (completeOp (stewardWakes s.dev t) t n)) := by
  have he : exec (.complete (.steward t p) t n) s = regWrite s (.steward t p) (regAddr 0x31 (0x108 + 0x40 * t)) (n % 1024) := rfl
  have hw : ∀ v, writeReg s.otp s.dev (.steward t p) 0x31 (0x108 + 0x40 * t) v
      = completeOp (stewardWakes s.dev t) t (bitsOf v 9 0) := fun v => by
    interval_cases t <;> rfl
  rw [he, Nat.mod_eq_of_lt hn, regWrite_admitted ha (populated_low _ (by decide)) (by omega) (regRow_claim ht).2 (by omega), hw,
    bitsOf_of_lt hn]

end steward

theorem claimed_ne_offer (t : Nat) : INTC_CLAIMED t ≠ INTC_OFFER t ∧ INTC_CLAIMED t ≠ INTC_CNT := by
  simp only [INTC_CLAIMED, INTC_OFFER, INTC_CNT, rkey]
  omega

/-- A claim with the tag of the offer. -/
theorem claimOp_offered {d : Dev} {t n tag : Nat} (ht : t < 4) (hn : n < 1024) (ho : offered d t n = true)
    (htag : d.get (INTC_OFFER_TAG t) = tag) :
    (claimOp d t n tag).mem = d.mem ∧ srcActive (claimOp d t n tag) n = true ∧ (claimOp d t n tag).get (INTC_OFFER_VALID t) = 0
      ∧ (claimOp d t n tag).get (INTC_CLAIMED_SRC t) = n ∧ raisesOf (claimOp d t n tag) n = 0 := by
  have hreg : ∀ (e : Dev) (f : Fld), (takeSource e n t).get f = e.get f := fun _ _ => rfl
  have hmem : ∀ e : Dev, (takeSource e n t).mem = e.mem := fun _ => rfl
  have hraise : ∀ e : Dev, raisesOf (takeSource e n t) n = 0 := fun e => lookupD_filter_ne 0 n _
  have hactive : ∀ e : Dev, srcActive (takeSource e n t) n = true := fun e => by simp [srcActive, takeSource]
  unfold claimOp
  rw [if_pos ⟨ht, ho, htag⟩, hreg, hreg, hmem, hraise, hactive]
  refine ⟨rfl, rfl, ?_, ?_, rfl⟩
  · rw [get_of_getW (getW_set_ne _ _ _ (claimed_ne_offer t).1.symm), get_set_same _ _ _ rfl, Nat.zero_mod]
  · rw [get_set_same _ _ _ rfl]
    exact Nat.mod_eq_of_lt hn

/-- A claim of nothing offered, or with another tag. -/
theorem claimOp_spurious {d : Dev} {t n tag : Nat} (h : offered d t n = false ∨ d.get (INTC_OFFER_TAG t) ≠ tag) :
    (claimOp d t n tag).mem = d.mem ∧ (claimOp d t n tag).get (INTC_CLAIMED_SRC t) = 1023
      ∧ (claimOp d t n tag).intc.active = d.intc.active
      ∧ (claimOp d t n tag).get INTC_CNT_SPURIOUS = min (d.get INTC_CNT_SPURIOUS + 1) (fldTop INTC_CNT_SPURIOUS) := by
  have hcnt := (claimed_ne_offer t).2
  unfold claimOp
  have hno : ¬ (t < 4 ∧ offered d t n = true ∧ d.get (INTC_OFFER_TAG t) = tag) := by
    rintro ⟨-, ho, ht⟩
    rcases h with h | h
    · rw [h] at ho
      cases ho
    · exact h ht
  rw [if_neg hno, inc_mem, set_mem, inc_intc, set_intc]
  refine ⟨rfl, ?_, rfl, ?_⟩
  · rw [get_of_getW (getW_inc_ne _ _ hcnt), get_set_same _ _ _ rfl]
    exact Nat.mod_eq_of_lt (by simp only [INTC_CLAIMED_SRC]; omega)
  · rw [get_inc_same _ _ rfl, get_of_getW (getW_set_ne _ _ _ hcnt.symm)]

theorem completeOp_active {d : Dev} {t n b : Nat} (h : (n, t, b) ∈ d.intc.active) :
    (completeOp d t n).mem = d.mem ∧ (completeOp d t n).regs = d.regs ∧ (∀ b, (n, t, b) ∉ (completeOp d t n).intc.active) := by
  unfold completeOp
  rw [if_pos (List.any_eq_true.mpr ⟨_, h, by simp⟩)]
  exact ⟨rfl, rfl, fun b hb => by simp at hb⟩

/-! ### Retractions and coalescing (R397, R398) -/

theorem retractOffer_valid (d : Dev) (t : Nat) : (retractOffer d t).get (INTC_OFFER_VALID t) = 0 := by
  unfold retractOffer Dev.has
  by_cases h : d.get (INTC_OFFER_VALID t) = 0
  · rw [h]
    exact h
  · rw [bne_iff_ne.mpr h, iff_true, get_of_getW (getW_inc_ne _ _ (offer_ne_cnt t)), get_set_same _ _ _ rfl, Nat.zero_mod]

theorem retraction_ineligible {d : Dev} {t : Nat} (ht : t < 4) (hv : d.get (INTC_OFFER_VALID t) = 1)
    (he : eligible d (d.get (INTC_OFFER_SRC t)) t = false) : retraction d t = (d.set (INTC_OFFER_VALID t) 0).inc INTC_CNT_RETRACT := by
  unfold retraction
  rw [if_neg (by omega), if_pos ⟨hv, he⟩, retractOffer, Dev.has, hv]
  rfl

/-- Steward `t` sleeps. -/
def stewardSleeps (d : Dev) (t : Nat) : Dev :=
  let d := retractOffer d t
  { d with intc := { d.intc with asleep := insertNat t d.intc.asleep } }

theorem retraction_sleep {d : Dev} {t : Nat} (ht : t < 4)
    (h : d.get (INTC_OFFER_VALID t) = 0 ∨ eligible d (d.get (INTC_OFFER_SRC t)) t = true) : retraction d t = stewardSleeps d t := by
  unfold retraction
  rw [if_neg (by omega)]
  refine if_neg fun ⟨hv, he⟩ => ?_
  rcases h with h | h
  · omega
  · rw [h] at he
    cases he

theorem stewardSleeps_fields (d : Dev) {t : Nat} (ht : t < 4) :
    (stewardSleeps d t).mem = d.mem ∧ (stewardSleeps d t).get (INTC_OFFER_VALID t) = 0 ∧ targetAwake (stewardSleeps d t) t = false
      ∧ (stewardSleeps d t).intc.active = d.intc.active
      ∧ (∀ k, k ≠ INTC_OFFER t → k ≠ INTC_CNT → (stewardSleeps d t).getW k = d.getW k) := by
  refine ⟨retractOffer_same Dev.mem (fun _ _ => rfl) d t, retractOffer_valid d t, ?_,
    retractOffer_same (fun d => d.intc.active) (fun _ _ => rfl) d t, fun k ho hc => retractOffer_getW ho hc⟩
  have hin : (stewardSleeps d t).intc.asleep.contains t = true := by
    rw [List.contains_iff_mem]
    exact mem_insertNat t _
  rw [targetAwake, if_pos ht, hin]
  rfl

theorem releaseGroup_fields (d : Dev) (g : Nat) :
    (releaseGroup d g).mem = d.mem ∧ (releaseGroup d g).get (INTC_COALST_HELD g) = 0
      ∧ (∀ k, k ≠ INTC_COALST g → (releaseGroup d g).getW k = d.getW k)
      ∧ (∀ e ∈ (releaseGroup d g).intc.heldAt, e ∈ d.intc.heldAt ∧ e.1 ≠ g) := by
  have hget : ∀ k, (releaseGroup d g).getW k = (d.set (INTC_COALST_HELD g) 0).getW k := fun _ => rfl
  refine ⟨rfl, ?_, fun k hk => ?_, fun e he => ?_⟩
  · rw [get_of_getW (hget _), get_set_same _ _ _ rfl, Nat.zero_mod]
  · rw [hget, getW_set_ne _ _ _ hk]
  · simpa [releaseGroup] using he

/-- A group that has released its sources holds none of them. -/
theorem releaseGroup_holds (d : Dev) {g n : Nat} (hg : g < 64) (hn : n < 1023) (hc : d.get (INTC_SRC_COAL n) = g) :
    groupHolds (releaseGroup d g) n = false := by
  obtain ⟨-, hheld, hkeep, -⟩ := releaseGroup_fields d g
  have hkey : INTC_SRC n ≠ INTC_COALST g := by
    simp only [INTC_SRC, INTC_COALST, rkey]
    omega
  have hcoal : (releaseGroup d g).get (INTC_SRC_COAL n) = g := (get_of_getW (hkeep _ hkey)).trans hc
  rw [groupHolds, hcoal, hheld]
  simp

/-- Settles O50: every register that a row names is read through the lemma of its operation. -/
theorem interruptsRaiseDeliverClaimComplete : Obligations.InterruptsRaiseDeliverClaimComplete := by
  refine ⟨fun s w n ha hlo hhi hce => ?_, fun s w n ha h => ?_, fun s w n en hn ha => ?_, fun s n t hp hw hd hc ht => ?_,
    fun s n h => next_self (deliver_idle h) rfl, fun s p t n tag ht hn htag ha ho htag' => ?_, fun s p t n tag ht hn htag ha h => ?_,
    fun s p t n b ht hn ha hb => ?_, fun s t hp ht hv he => next_put hp (retraction_ineligible ht hv he) rfl, fun s t hp ht h => ?_,
    fun s g hp hg hh => ?_⟩
  · exact ⟨s.put (raisedOnce s.dev n 0), (exec_swdb (by omega) ha).trans (by rw [intcRaise_plain 0 hlo hhi hce]), put_otp s _,
      put_pending s _, rfl, raisedOnce_raises s.dev n 0, raisedOnce_pending s.dev 0 hlo hhi, rfl⟩
  · rw [exec_swdb (by omega) ha, intcRaise_bad 0 h]
  · exact ⟨_, exec_sourceMask hn ha, put_otp s _, put_pending s _, source_masked hn (by rw [bitOf_putBit, if_pos rfl])⟩
  · have hn : n < 1024 := by
      have : decide (n < 1023) = true := by
        simp only [deliverable, Bool.and_eq_true] at hd
        tauto
      have := of_decide_eq_true this
      omega
    exact ⟨s.put (offerTo s.dev n t), next_put hp (deliver_steward hw hd hc ht) rfl, put_otp s _, put_pending s _, offerTo_fields s.dev t hn⟩
  · exact ⟨s.put (claimOp (stewardWakes s.dev t) t n tag), exec_claim ht hn htag ha, put_otp s _, put_pending s _,
      claimOp_offered (d := stewardWakes s.dev t) ht hn ho htag'⟩
  · exact ⟨s.put (claimOp (stewardWakes s.dev t) t n tag), exec_claim ht hn htag ha, put_otp s _, put_pending s _,
      claimOp_spurious (d := stewardWakes s.dev t) h⟩
  · exact ⟨s.put (completeOp (stewardWakes s.dev t) t n), exec_complete ht hn ha, put_otp s _, put_pending s _,
      completeOp_active (d := stewardWakes s.dev t) hb⟩
  · exact ⟨s.put (stewardSleeps s.dev t), next_put hp (retraction_sleep ht h) rfl, put_otp s _, put_pending s _,
      stewardSleeps_fields s.dev ht⟩
  · obtain ⟨hmem, hheld, hkeep, hat⟩ := releaseGroup_fields s.dev g
    have hop : coalesce s.dev g = releaseGroup s.dev g := if_neg (by omega)
    exact ⟨s.put (releaseGroup s.dev g), next_put hp hop rfl, put_otp s _, put_pending s _, hmem, hheld, hkeep,
      fun n hn hc => releaseGroup_holds s.dev hg hn hc, hat⟩

end Sys2Proof.Machine
end

section
/-! Gate commits and captured reads (R63, R81, R339, R436 to R438). -/

namespace Sys2Proof.Machine

open Sys2Proof

/-! ### GO (R436, R438) -/

theorem populated_core (v : Variant) {p : Nat} (h : p ∈ [2, 0x10, 0x40]) : populated v p = true := by
  simp only [List.mem_cons, List.not_mem_nil, or_false] at h
  rcases h with rfl | rfl | rfl <;> cases v <;> decide

theorem exec_gateCommit {s : State} {w : Who} (ha : Admits s w 1 (regAddr 0x40 0x044) [2 ^ 31]) :
    exec (.gateCommit w) s = .next (s.put (gateGo s.dev)) := by
  have he : exec (.gateCommit w) s = regWrite s w (regAddr 0x40 0x044) (2 ^ 31) := rfl
  have hw : writeReg s.otp s.dev w 0x40 0x044 (2 ^ 31) = gateGo s.dev := rfl
  rw [he, regWrite_admitted ha (populated_core _ (by decide)) (by decide) (by decide) (by simp), hw]

theorem gateGo_busy {d : Dev} (h : d.get GATE_COMMIT_BUSY = 1) : gateGo d = gateRefuse d 4 0 0 := if_pos h

theorem gateGo_wellFormed {d : Dev} {a b : Nat} (hb : d.get GATE_COMMIT_BUSY ≠ 1) (hc : d.cert = false)
    (ht : tableError (stgEntry d) = (0, a, b)) : gateGo d = startDrain d (stagedList d) true := by
  have htry : tryCommit d (stgEntry d) (stagedList d) true = startDrain d (stagedList d) true := by
    simp only [tryCommit, ht]
  unfold gateGo
  rw [if_neg hb, if_neg (by simp [hc]), htry]
  exact if_neg (by simp [hc])

/-! ### The end of the drain (R436 step 3) -/

theorem tbl_ne {i j a b : Nat} (ha : a < 2) (hb : b < 2) (h : i ≠ j ∨ a ≠ b) : GATE_TBL i a ≠ GATE_TBL j b := by
  simp only [GATE_TBL, rkey]
  omega

/-- Entry `i` written. -/
def entryWritten (d : Dev) (i : Nat) (e : Nat × Nat) : Dev := (d.setW (GATE_TBL i 0) e.1).setW (GATE_TBL i 1) e.2

theorem entryWritten_same (d : Dev) (i : Nat) (e : Nat × Nat) :
    tblW (entryWritten d i e) i 0 = e.1 % 2 ^ 32 ∧ tblW (entryWritten d i e) i 1 = e.2 % 2 ^ 32 := by
  refine ⟨?_, ?_⟩
  · rw [tblW, entryWritten, getW_setW_ne _ (tbl_ne (by decide) (by decide) (.inr (by decide))), getW_setW_same]
  · rw [tblW, entryWritten, getW_setW_same]

theorem entryWritten_getW {d : Dev} {i k : Nat} {e : Nat × Nat} (h0 : k ≠ GATE_TBL i 0) (h1 : k ≠ GATE_TBL i 1) :
    (entryWritten d i e).getW k = d.getW k := by
  rw [entryWritten, getW_setW_ne _ h1, getW_setW_ne _ h0]

theorem entryWritten_ne {d : Dev} {i j b : Nat} {e : Nat × Nat} (hb : b < 2) (h : j ≠ i) :
    tblW (entryWritten d i e) j b = tblW d j b :=
  entryWritten_getW (tbl_ne hb (by decide) (.inl h)) (tbl_ne hb (by decide) (.inl h))

/-- What entry 16 and the later ones take does not depend on the part. -/
theorem listEntry_eq (d e : Dev) (l : List (Nat × Word × Word)) {i : Nat} (h : 16 ≤ i) : listEntry d l i = listEntry e l i := by
  rw [listEntry, listEntry, if_neg (by omega), if_neg (by omega)]

theorem writeTable_eq (d : Dev) (l : List (Nat × Word × Word)) :
    writeTable d l = d.forEach (List.range 240) fun e k => entryWritten e (k + 16) (listEntry e l (k + 16)) := rfl

theorem writeTable_getW {d : Dev} {l : List (Nat × Word × Word)} {k : Nat}
    (h : ∀ i, i < 240 → k ≠ GATE_TBL (i + 16) 0 ∧ k ≠ GATE_TBL (i + 16) 1) : (writeTable d l).getW k = d.getW k :=
  forEach_same_mem (Dev.getW · k) (fun _ i hi => entryWritten_getW (h i (List.mem_range.mp hi)).1 (h i (List.mem_range.mp hi)).2) d

theorem writeTable_same {β : Type} (g : Dev → β) (hr : ∀ (d : Dev) (r : List (Nat × Word)), g { d with regs := r } = g d) (d : Dev)
    (l : List (Nat × Word × Word)) : g (writeTable d l) = g d :=
  forEach_same g _ _ (fun e _ => (hr (e.setW _ _) _).trans (hr e _)) d

theorem forEach_append {α : Type} (l m : List α) (f : Dev → α → Dev) (d : Dev) :
    d.forEach (l ++ m) f = (d.forEach l f).forEach m f := List.foldl_append

/-- The loop over `n` entries has written each of them. -/
theorem tableLoop_entry {l : List (Nat × Word × Word)} (d : Dev) {n i : Nat} (hi : i < n) :
    let e := d.forEach (List.range n) fun e k => entryWritten e (k + 16) (listEntry e l (k + 16))
    tblW e (i + 16) 0 = (listEntry d l (i + 16)).1 % 2 ^ 32 ∧ tblW e (i + 16) 1 = (listEntry d l (i + 16)).2 % 2 ^ 32 := by
  induction n with
  | zero => omega
  | succ n ih =>
    simp only [List.range_succ, forEach_append, forEach_cons, forEach_nil]
    by_cases h : i = n
    · subst h
      rw [listEntry_eq _ d l (by omega)]
      exact entryWritten_same _ _ _
    · rw [entryWritten_ne (by decide) (by omega), entryWritten_ne (by decide) (by omega)]
      exact ih (by omega)

theorem writeTable_entry (d : Dev) (l : List (Nat × Word × Word)) {i : Nat} (hlo : 16 ≤ i) (hhi : i < 256) :
    tblW (writeTable d l) i 0 = (listEntry d l i).1 % 2 ^ 32 ∧ tblW (writeTable d l) i 1 = (listEntry d l i).2 % 2 ^ 32 := by
  obtain ⟨j, rfl⟩ := Nat.exists_eq_add_of_le' hlo
  exact tableLoop_entry d (by omega)

/-- No commit drains. -/
def noDrain (d : Dev) : Dev := { d with gate := { d.gate with drain := none } }

theorem noDrain_mem (d : Dev) : (noDrain d).mem = d.mem := rfl
theorem noDrain_getW (d : Dev) (k : Nat) : (noDrain d).getW k = d.getW k := rfl

/-- The table in force after the drain, with its generation and what GATE_COMMIT shows. -/
def drained (d : Dev) (l : List (Nat × Word × Word)) : Dev :=
  ((noDrain ((writeTable d l).incWrap GATE_GEN_GEN)).set GATE_COMMIT_BUSY 0).ist 0x40 1

theorem drainDone_some {d : Dev} {l : List (Nat × Word × Word)} (h : d.gate.drain = some l) : drainDone d = drained d l := by
  unfold drainDone
  rw [h]
  rfl

theorem drainDone_none {d : Dev} (h : d.gate.drain = none) : drainDone d = d := by
  unfold drainDone
  rw [h]

theorem drained_getW {d : Dev} {l : List (Nat × Word × Word)} {k : Nat} (hg : k ≠ GATE_GEN) (hc : k ≠ GATE_COMMIT) (hi : k ≠ PG_IST 0x40) :
    (drained d l).getW k = (writeTable d l).getW k := by
  rw [drained, getW_ist_ne _ hi, getW_set_ne _ _ _ hc, noDrain_getW, Dev.incWrap, getW_set_ne _ _ _ hg]

theorem drained_tbl (d : Dev) (l : List (Nat × Word × Word)) (i j : Nat) : tblW (drained d l) i j = tblW (writeTable d l) i j := by
  refine drained_getW ?_ ?_ ?_ <;> simp only [GATE_TBL, GATE_GEN, GATE_COMMIT, PG_IST, rkey] <;> omega

theorem drained_fields (d : Dev) (l : List (Nat × Word × Word)) :
    (drained d l).mem = d.mem ∧ (drained d l).gate.drain = none ∧ (drained d l).get GATE_COMMIT_BUSY = 0
      ∧ (drained d l).bit (PG_IST 0x40) 1 = true
      ∧ (drained d l).get GATE_GEN_GEN = (d.get GATE_GEN_GEN + 1) % 2 ^ (GATE_GEN_GEN.hi + 1 - GATE_GEN_GEN.lo) := by
  have hgen : (writeTable d l).get GATE_GEN_GEN = d.get GATE_GEN_GEN := by
    refine get_of_getW (writeTable_getW fun i hi => ?_)
    simp only [GATE_GEN_GEN, GATE_GEN, GATE_TBL, rkey]
    omega
  refine ⟨?_, ?_, ?_, bit_ist_on _ (by decide), ?_⟩
  · rw [drained, ist_mem, set_mem, noDrain_mem, incWrap_mem]
    exact writeTable_same Dev.mem (fun _ _ => rfl) d l
  · rw [drained, ist_gate, set_gate]
    rfl
  · rw [drained, get_ist_off _ _ (by decide), get_set_same _ _ _ rfl]
    rfl
  · rw [drained, get_ist_off _ _ (by decide), get_set_off _ _ (by decide) (by decide), get_of_getW (noDrain_getW _ _),
      Dev.incWrap, get_set_same _ _ _ rfl, hgen,
      Nat.mod_mod]

/-! ### Captured reads (R63, R81, R339) -/

theorem exec_bslackRestart {s : State} {w : Who} (ha : Admits s w 1 (regAddr 2 0x054) [2 ^ 31]) :
    exec (.bslackRestart w) s = .next (s.put (s.dev.set DEV_BSLACK_MIN 0xFFFFFF)) := by
  have he : exec (.bslackRestart w) s = regWrite s w (regAddr 2 0x054) (2 ^ 31) := rfl
  have hw : writeReg s.otp s.dev w 2 0x054 (2 ^ 31) = s.dev.set DEV_BSLACK_MIN 0xFFFFFF := rfl
  rw [he, regWrite_admitted ha (populated_core _ (by decide)) (by decide) (by decide) (by simp), hw]

/-- An admitted read of a register has the effect of the read. -/
theorem regRead_admitted {s : State} {w : Who} {p off : Nat} (hp : p < 512) (ho : off < 4096) (ha : Admits s w 0 (regAddr p off) []) :
    regRead s w (regAddr p off) = .next (s.put (readEffect s.dev p off)) := by
  obtain ⟨hpow, hvig, hheld, hgate, -⟩ := ha
  have hword : (readWord s (regAddr p off)).1 = s.put (readEffect s.dev p off) := by
    unfold readWord
    rw [if_pos (inRegs_regAddr hp ho)]
    dsimp only
    rw [regAddr_page ho, regAddr_off ho]
    rfl
  have hread : accessRead s w (regAddr p off) 1 = ((readWords s (regAddr p off) 1).1, 0, (readWords s (regAddr p off) 1).2) := by
    simp only [accessRead, Nat.mul_one, settle_of_free hheld, hgate]
  refine (actAll_powered hpow _).trans (congrArg Host.Outcome.next ((if_neg hvig).trans ?_))
  rw [hread]
  exact hword

/-- Settles O51: GO, the drain's end and the reads are each one branch of their operation. -/
theorem gateCommitsAndCapturedReads : Obligations.GateCommitsAndCapturedReads := by
  refine ⟨fun s w ha hb => ?_, fun s w a b ha hb hc ht => ?_, fun s l hp hd => ?_, fun s hd => next_self (drainDone_none hd) rfl,
    fun s w ha => exec_bslackRestart ha, fun s w ha => regRead_admitted (by decide) (by decide) ha,
    fun s w ha => regRead_admitted (by decide) (by decide) ha⟩
  · rw [exec_gateCommit ha, gateGo_busy hb, gateRefuse]
  · rw [exec_gateCommit ha, gateGo_wellFormed hb hc ht, startDrain]
  · obtain ⟨hmem, hdrain, hbusy, hist, hgen⟩ := drained_fields s.dev l
    refine ⟨s.put (drained s.dev l), next_put hp (drainDone_some hd) rfl, put_otp s _, put_pending s _, hmem, hdrain, hbusy, hist, hgen,
      fun i hlo hhi => ?_, fun i hi => ?_⟩
    · exact ⟨(drained_tbl _ _ _ _).trans (writeTable_entry s.dev l hlo hhi).1, (drained_tbl _ _ _ _).trans (writeTable_entry s.dev l hlo hhi).2⟩
    · have hkeep : ∀ j, j < 2 → tblW (drained s.dev l) i j = tblW s.dev i j := fun j hj =>
        (drained_tbl _ _ _ _).trans (writeTable_getW fun k _ =>
          ⟨tbl_ne hj (by decide) (.inl (by omega)), tbl_ne hj (by decide) (.inl (by omega))⟩)
      exact ⟨hkeep 0 (by decide), hkeep 1 (by decide)⟩

end Sys2Proof.Machine
end

section
/-! Time: domains, peer delay and holdover (R340 to R354). -/

namespace Sys2Proof.Machine

open Sys2Proof

/-! ### What the events of a domain leave -/

/-- What the time domains leave of the part: memory, the channels and the uplinks. -/
def Dev.untimed (d : Dev) : List Host.Cell × List Chan × List Uplink := (d.mem, d.chans, d.ups)

section frame
variable (d : Dev)

theorem set_untimed (f : Fld) (v : Nat) : (d.set f v).untimed = d.untimed := rfl
theorem inc_untimed (f : Fld) : (d.inc f).untimed = d.untimed := rfl
theorem ist_untimed (p i : Nat) : (d.ist p i).untimed = d.untimed := rfl
theorem setDom_untimed (x : Nat) (m : Dom) : (d.setDom x m).untimed = d.untimed := rfl

theorem condEnd_untimed (p n : Nat) : (condEnd d p n).untimed = d.untimed :=
  clearLive_same Dev.untimed (fun _ _ => rfl) (fun _ _ => rfl) d p n

theorem emit_untimed (o : Out) : (d.emit o).untimed = d.untimed := rfl

theorem domTo_untimed (x st : Nat) : (domTo d x st).untimed = d.untimed := by
  unfold domTo
  extract_lets was side ask
  rw [iff_same Dev.untimed _ _ _ (by rw [emit_untimed, inc_untimed]), set_untimed]

theorem enterHoldover_untimed : (enterHoldover d).untimed = d.untimed := by
  unfold enterHoldover
  extract_lets shown aon tim
  have hshown : shown.untimed = d.untimed :=
    (set_untimed _ _ _).trans ((ist_untimed _ _ _).trans ((inc_untimed _ _).trans ((set_untimed _ _ _).trans (set_untimed _ _ _))))
  clear_value shown
  exact hshown

theorem leaveHoldover_untimed : (leaveHoldover d).untimed = d.untimed := by
  rw [leaveHoldover, condEnd_untimed, ist_untimed, set_untimed, set_untimed]

theorem reselect_untimed (x : Nat) : (reselect d x).untimed = d.untimed := by
  unfold reselect
  split
  · rfl
  · split
    · split
      · split
        · rfl
        · rw [set_untimed, inc_untimed, ist_untimed, set_untimed]
      · rw [set_untimed, set_untimed, leaveHoldover_untimed]
    · split
      · exact enterHoldover_untimed d
      · rfl

theorem loadTime_untimed (ns n : Nat) : (loadTime d ns n).untimed = d.untimed := by
  unfold loadTime
  extract_lets
  rw [ist_untimed, set_untimed]
  rfl

theorem firstLock_untimed : (firstLock d).untimed = d.untimed := by
  unfold firstLock
  split
  · rfl
  · split
    · rw [set_untimed, set_untimed, loadTime_untimed]
    · rfl

theorem steer_untimed (x : Nat) : (steer d x).untimed = d.untimed := by
  unfold steer
  split
  · rfl
  · extract_lets o rates d1 corr d2 learned rate aon rated shown
    have hshown : shown.untimed = d.untimed := set_untimed rated _ _
    split
    · rw [set_untimed, hshown]
    · exact hshown

theorem countStep_untimed (x : Nat) : (countStep d x).untimed = d.untimed := by
  unfold countStep
  extract_lets e
  split
  · rw [set_untimed, inc_untimed]
  · rw [inc_untimed]

end frame

/-! ### Registers of a domain's page -/

/-- A register of a domain's page but the domain's counters: no selection, lock or steering writes it. -/
def OfDomain (k : Nat) : Prop := 0x11 * 1024 ≤ k ∧ k < 0x13 * 1024 ∧ ∀ x, x < 2 → k ≠ TIME_DCNT x

theorem ofDomain_ne {k : Nat} (h : OfDomain k) : k ≠ TIME_STAT ∧ k ≠ TIME_SWCNT ∧ k ≠ TIME_HOLDSTAT ∧ k ≠ TIME_ERR
    ∧ k ≠ PG_IST 0x10 ∧ k ≠ PG_FLT 0x10 := by
  obtain ⟨hlo, -, -⟩ := h
  simp only [TIME_STAT, TIME_SWCNT, TIME_HOLDSTAT, TIME_ERR, PG_IST, PG_FLT, rkey]
  omega


theorem dstat_ofDomain {x : Nat} (hx : x < 2) : OfDomain (TIME_DSTAT x) ∧ OfDomain (TIME_DPD x) := by
  refine ⟨⟨?_, ?_, fun y hy => ?_⟩, ⟨?_, ?_, fun y hy => ?_⟩⟩ <;> simp only [TIME_DSTAT, TIME_DPD, TIME_DCNT, rkey] <;> omega

theorem dstat_ne_txcnt (x y : Nat) : TIME_DSTAT x ≠ UPL_TXCNT y := by
  simp only [TIME_DSTAT, UPL_TXCNT, rkey]
  omega

section registers
variable {d : Dev} {k : Nat} (h : OfDomain k)
include h

theorem enterHoldover_getW : (enterHoldover d).getW k = d.getW k := by
  obtain ⟨hst, -, hhold, herr, hist, -⟩ := ofDomain_ne h
  unfold enterHoldover
  extract_lets shown aon tim
  have hshown : shown.getW k = d.getW k := by
    unfold shown
    rw [getW_set_ne _ _ _ herr, getW_ist_ne _ hist, getW_inc_ne _ _ hhold, getW_set_ne _ _ _ hst, getW_set_ne _ _ _ hst]
  clear_value shown
  exact hshown

theorem leaveHoldover_getW : (leaveHoldover d).getW k = d.getW k := by
  obtain ⟨hst, -, hhold, -, hist, hflt⟩ := ofDomain_ne h
  rw [leaveHoldover, condEnd_getW _ hflt, getW_ist_ne _ hist, getW_set_ne _ _ _ hst, getW_set_ne _ _ _ hhold]

theorem reselect_getW (x : Nat) : (reselect d x).getW k = d.getW k := by
  obtain ⟨hst, hsw, -, -, hist, -⟩ := ofDomain_ne h
  unfold reselect
  split
  · rfl
  · split
    · split
      · split
        · rfl
        · rw [getW_set_ne _ _ _ hst, getW_inc_ne _ _ hsw, getW_ist_ne _ hist, getW_set_ne _ _ _ hst]
      · rw [getW_set_ne _ _ _ hst, getW_set_ne _ _ _ hst, leaveHoldover_getW h]
    · split
      · exact enterHoldover_getW h
      · rfl

theorem loadTime_getW (ns n : Nat) : (loadTime d ns n).getW k = d.getW k := by
  obtain ⟨hst, -, -, -, hist, -⟩ := ofDomain_ne h
  unfold loadTime
  extract_lets
  rw [getW_ist_ne _ hist, getW_set_ne _ _ _ hst]
  rfl

theorem firstLock_getW : (firstLock d).getW k = d.getW k := by
  obtain ⟨hst, -⟩ := ofDomain_ne h
  unfold firstLock
  split
  · rfl
  · split
    · rw [getW_set_ne _ _ _ hst, getW_set_ne _ _ _ hst, loadTime_getW h]
    · rfl

theorem steer_getW (x : Nat) : (steer d x).getW k = d.getW k := by
  obtain ⟨hst, -, -, herr, -⟩ := ofDomain_ne h
  unfold steer
  split
  · rfl
  · extract_lets o rates d1 corr d2 learned rate aon rated shown
    have hshown : shown.getW k = d.getW k := getW_set_ne rated _ _ herr
    split
    · rw [getW_set_ne _ _ _ hst, hshown]
    · exact hshown

theorem countStep_getW {x : Nat} (hx : x < 2) : (countStep d x).getW k = d.getW k := by
  obtain ⟨hst, -⟩ := ofDomain_ne h
  obtain ⟨-, -, hcnt⟩ := h
  unfold countStep
  extract_lets e
  split
  · rw [getW_set_ne _ _ _ hst, getW_inc_ne _ _ (hcnt x hx)]
  · rw [getW_inc_ne _ _ (hcnt x hx)]

end registers

theorem domTo_getW {d : Dev} {x st k : Nat} (hs : k ≠ TIME_DSTAT x) (hu : k ≠ UPL_TXCNT x) : (domTo d x st).getW k = d.getW k := by
  unfold domTo
  extract_lets was side ask
  rw [iff_same (Dev.getW · k) _ _ _ (by rw [getW_emit, getW_inc_ne _ _ hu]), getW_set_ne _ _ _ hs]

theorem domTo_state {d : Dev} {x st : Nat} (hst : st < 4) : domState (domTo d x st) x = st := by
  unfold domTo
  extract_lets was side ask
  rw [domState, iff_same (Dev.get · (TIME_DSTAT_STATE x)) _ _ _ (by rw [get_emit, get_of_getW (getW_inc_ne _ _ (dstat_ne_txcnt _ _))]),
    get_set_same _ _ _ rfl]
  exact Nat.mod_eq_of_lt hst

/-! ### A Sync of an ABSENT domain (R345) -/

theorem elemAt_of_length_le {α : Type} (a : α) {l : List α} {i : Nat} (h : l.length ≤ i) : elemAt a l i = a := by
  induction l generalizing i with
  | nil => rfl
  | cons x l ih =>
    cases i with
    | zero => simp at h
    | succ i => exact ih (by simpa using h)

theorem dom_setDom_acq (d : Dev) (x : Nat) (m : Dom) : ((d.setDom x { m with acq := [] }).dom x).acq = [] := by
  rw [Dev.dom, Dev.setDom]
  by_cases h : x < d.tim.doms.length
  · rw [elemAt_putAt_same _ _ _ _ h]
  · rw [putAt_of_length_le (Nat.le_of_not_lt h), elemAt_of_length_le _ (Nat.le_of_not_lt h)]
    rfl

theorem acquire_first {d : Dev} {x : Nat} (o : Int) (h : (d.dom x).acq = []) : acquire d x o = d.setDom x { d.dom x with acq := [o] } := by
  unfold acquire
  simp only [h]
  exact if_neg (by simp)

/-- The domain in ACQUIRE with its first offset `o`. -/
def acquiring (d : Dev) (x : Nat) (m : Dom) (o : Int) : Dev :=
  acquire (condEnd ((domTo d x 1).setDom x { m with acq := [] }) (pDOM x) 1) x o

theorem condEnd_dom (d : Dev) (p n x : Nat) : (condEnd d p n).dom x = d.dom x :=
  clearLive_same (Dev.dom · x) (fun _ _ => rfl) (fun _ _ => rfl) d p n

theorem acquiring_fields (d : Dev) {x : Nat} (m : Dom) (o : Int) :
    (acquiring d x m o).untimed = d.untimed ∧ domState (acquiring d x m o) x = 1
      ∧ (∀ k, k ≠ TIME_DSTAT x → k ≠ UPL_TXCNT x → k ≠ PG_FLT (pDOM x) → (acquiring d x m o).getW k = d.getW k) := by
  have hacq : ((condEnd ((domTo d x 1).setDom x { m with acq := [] }) (pDOM x) 1).dom x).acq = [] := by
    rw [condEnd_dom, dom_setDom_acq]
  have hkey : TIME_DSTAT x ≠ PG_FLT (pDOM x) := rkey_ne (by decide)
  rw [acquiring, acquire_first o hacq]
  refine ⟨?_, ?_, fun k hs hu hf => ?_⟩
  · rw [setDom_untimed, condEnd_untimed, setDom_untimed, domTo_untimed]
  · rw [domState, get_setDom, get_of_getW (condEnd_getW _ hkey), get_setDom]
    exact domTo_state (by decide)
  · rw [getW_setDom, condEnd_getW _ hf, getW_setDom, domTo_getW hs hu]

theorem evalDom_fresh {d : Dev} {x : Nat} (m : SyncMsg) (h : domState d x = 0) :
    (evalDom d x m).1.untimed = d.untimed ∧ domState (evalDom d x m).1 x = 1
      ∧ (evalDom d x m).1.get (TIME_DPD_PD x) = m.pd % 2 ^ 32
      ∧ (∀ k, k / 1024 ≠ pDOM x → k ≠ UPL_TXCNT x → (evalDom d x m).1.getW k = d.getW k) := by
  unfold evalDom
  extract_lets top t o y rel r old st dr dpd comparable stepped moved held shown dom judged
  have hjudged : judged = acquiring shown x dom o := if_pos h
  obtain ⟨huntimed, hstate, hkeep⟩ := acquiring_fields shown dom o
  rw [← hjudged] at huntimed hstate hkeep
  have hshown : ∀ k, k / 1024 ≠ pDOM x → shown.getW k = d.getW k := fun k hk => by
    have hpage : k ≠ TIME_DREL x ∧ k ≠ TIME_DPD x := by
      simp only [TIME_DREL, TIME_DPD, rkey, pDOM] at *
      omega
    obtain ⟨hrel, hpd⟩ := hpage
    exact (getW_set_ne _ _ _ hpd).trans ((getW_set_ne _ _ _ hrel).trans (getW_setDom _ _ _ _))
  have hpd : judged.get (TIME_DPD_PD x) = m.pd % 2 ^ 32 := by
    have hk : TIME_DPD x ≠ UPL_TXCNT x := by
      simp only [TIME_DPD, UPL_TXCNT, rkey]
      omega
    rw [get_of_getW (hkeep _ (rkey_ne (by decide)) hk (rkey_ne (by decide)))]
    refine (get_set_same _ _ _ rfl).trans ?_
    exact Nat.mod_mod _ _
  have hunshown : shown.untimed = d.untimed := (set_untimed _ _ _).trans ((set_untimed _ _ _).trans (setDom_untimed _ _ _))
  clear_value judged shown
  rw [if_neg (by rw [hstate]; decide)]
  refine ⟨(set_untimed _ _ _).trans (huntimed.trans hunshown), ?_, ?_, fun k hk hu => ?_⟩
  · rw [domState, get_of_getW (getW_set_ne _ _ _ (rkey_ne (by decide)))]
    exact hstate
  · rw [get_of_getW (getW_set_ne _ _ _ (rkey_ne (by decide))), hpd]
  · have hpage : k ≠ TIME_DOFS x ∧ k ≠ TIME_DSTAT x ∧ k ≠ PG_FLT (pDOM x) := by
      simp only [TIME_DOFS, TIME_DSTAT, PG_FLT, rkey, pDOM] at *
      omega
    obtain ⟨hofs, hs, hf⟩ := hpage
    rw [getW_set_ne _ _ _ hofs, hkeep k hs hu hf, hshown k hk]

/-! ### SYNC (R344 to R354) -/

/-- The steps of the two domains counted. -/
def stepsCounted (d : Dev) (x : Nat) (sx sy : Bool) : Dev :=
  (d.iff sx fun d => countStep d x).iff sy fun d => countStep d (otherDom x)

/-- What follows from the evaluations of a cycle: the steps counted, the first lock, the selection and the steering. -/
def afterEvals (d : Dev) (x : Nat) (sx sy ex ey : Bool) : Dev :=
  ((reselect (firstLock (stepsCounted d x sx sy)) x).iff ex fun d => steer d x).iff ey fun d => steer d (otherDom x)

theorem otherDom_lt {x : Nat} : otherDom x < 2 := by
  unfold otherDom
  omega

theorem afterEvals_untimed (d : Dev) (x : Nat) (sx sy ex ey : Bool) : (afterEvals d x sx sy ex ey).untimed = d.untimed := by
  rw [afterEvals, iff_same Dev.untimed _ _ _ (steer_untimed _ _), iff_same Dev.untimed _ _ _ (steer_untimed _ _), reselect_untimed,
    firstLock_untimed, stepsCounted, iff_same Dev.untimed _ (fun d => countStep d (otherDom x)) _ (countStep_untimed _ _),
    iff_same Dev.untimed _ (fun d => countStep d x) _ (countStep_untimed _ _)]

theorem afterEvals_getW {d : Dev} {x k : Nat} (sx sy ex ey : Bool) (hx : x < 2) (h : OfDomain k) :
    (afterEvals d x sx sy ex ey).getW k = d.getW k := by
  rw [afterEvals, iff_same (Dev.getW · k) _ _ _ (steer_getW h _), iff_same (Dev.getW · k) _ _ _ (steer_getW h _), reselect_getW h,
    firstLock_getW h, stepsCounted, iff_same (Dev.getW · k) _ (fun d => countStep d (otherDom x)) _ (countStep_getW h otherDom_lt),
    iff_same (Dev.getW · k) _ (fun d => countStep d x) _ (countStep_getW h hx)]

theorem syncBoth_eq (d : Dev) (x : Nat) (m : SyncMsg) (also : Option SyncMsg) : ∃ sx sy ex ey : Bool,
    syncBoth d x m also = afterEvals (evalHeard (evalHeard d x (some m)).1 (otherDom x) also).1 x sx sy ex ey := ⟨_, _, _, _, rfl⟩

theorem side_lt (x : Side) : x.num < 2 := by cases x <;> decide

theorem evalHeard_none (d : Dev) (x : Nat) : (evalHeard d x none).1 = d := rfl

theorem evalHeard_heard {d : Dev} {x : Nat} (m : SyncMsg) (h : domHears d x = true) :
    evalHeard d x (some m) = evalDom (d.inc (UPL_RXCNT_COUNT x)) x m := if_pos h

theorem domState_of_getW {d e : Dev} {x : Nat} (h : e.getW (TIME_DSTAT x) = d.getW (TIME_DSTAT x)) : domState e x = domState d x :=
  get_of_getW h

/-- The evaluation of a Sync that takes an ABSENT domain to ACQUIRE. -/
theorem evalHeard_fresh {d : Dev} {x : Nat} (m : SyncMsg) (hx : x < 2) (hh : domHears d x = true) (h : domState d x = 0) :
    let e := (evalHeard d x (some m)).1
    e.untimed = d.untimed ∧ domState e x = 1 ∧ e.get (TIME_DPD_PD x) = m.pd % 2 ^ 32
      ∧ (∀ k, k / 1024 ≠ pDOM x → k < 0x13 * 1024 → e.getW k = d.getW k) := by
  have hrx : ∀ k, k < 0x13 * 1024 → (d.inc (UPL_RXCNT_COUNT x)).getW k = d.getW k ∧ k ≠ UPL_TXCNT x := fun k hk => by
    have hne : k ≠ UPL_RXCNT x ∧ k ≠ UPL_TXCNT x := by
      simp only [UPL_RXCNT, UPL_TXCNT, rkey]
      omega
    exact ⟨getW_inc_ne _ _ hne.1, hne.2⟩
  have hpage : TIME_DSTAT x < 0x13 * 1024 := by
    simp only [TIME_DSTAT, rkey]
    omega
  obtain ⟨huntimed, hstate, hpd, hkeep⟩ := evalDom_fresh (d := d.inc (UPL_RXCNT_COUNT x)) m
    ((domState_of_getW (hrx _ hpage).1).trans h)
  simp only
  rw [evalHeard_heard m hh]
  exact ⟨huntimed.trans (inc_untimed _ _), hstate, hpd, fun k hk hlt => (hkeep k hk (hrx k hlt).2).trans (hrx k hlt).1⟩

theorem sync_single {d : Dev} {x : Nat} (m : SyncMsg) (hx : x < 2) (hh : domHears d x = true) (h : domState d x = 0) :
    (sync d x m none).untimed = d.untimed ∧ domState (sync d x m none) x = 1
      ∧ (sync d x m none).get (TIME_DPD_PD x) = m.pd % 2 ^ 32 := by
  obtain ⟨sx, sy, ex, ey, heq⟩ := syncBoth_eq d x m none
  obtain ⟨huntimed, hstate, hpd, -⟩ := evalHeard_fresh m hx hh h
  obtain ⟨hds, hdp⟩ := dstat_ofDomain hx
  have hs : sync d x m none = afterEvals (evalHeard d x (some m)).1 x sx sy ex ey := by
    rw [sync, if_pos (.inl hh), heq, evalHeard_none]
  rw [hs]
  exact ⟨(afterEvals_untimed ..).trans huntimed, (domState_of_getW (afterEvals_getW _ _ _ _ hx hds)).trans hstate,
    (get_of_getW (afterEvals_getW _ _ _ _ hx hdp)).trans hpd⟩

theorem sync_both {d : Dev} {x : Nat} (m o : SyncMsg) (hx : x < 2) (hh : ∀ z, z < 2 → domHears d z = true)
    (h : ∀ z, z < 2 → domState d z = 0) :
    (sync d x m (some o)).untimed = d.untimed ∧ ∀ z, z < 2 → domState (sync d x m (some o)) z = 1 := by
  have hy : otherDom x < 2 := otherDom_lt
  have hne : pDOM (otherDom x) ≠ pDOM x := by
    simp only [pDOM, otherDom]
    omega
  have hcover : ∀ z, z < 2 → z = x ∨ z = otherDom x := fun z hz => by
    simp only [otherDom]
    omega
  obtain ⟨sx, sy, ex, ey, heq⟩ := syncBoth_eq d x m (some o)
  obtain ⟨huntimed, hstate, -, hkeep⟩ := evalHeard_fresh m hx (hh x hx) (h x hx)
  generalize hd1 : (evalHeard d x (some m)).1 = d1 at huntimed hstate hkeep heq
  have hword : ∀ off, off < 4096 → d1.getW (rkey (pDOM (otherDom x)) off) = d.getW (rkey (pDOM (otherDom x)) off) := fun off hoff => by
    refine hkeep _ ?_ ?_ <;> simp only [rkey, pDOM] at * <;> omega
  have hups : d1.ups = d.ups := by
    simp only [Dev.untimed, Prod.mk.injEq] at huntimed
    exact huntimed.2.2
  have hhears : domHears d1 (otherDom x) = true := by
    have hold := hh _ hy
    rw [domHears, Dev.upOk] at hold ⊢
    have hoff : d1.get (TIME_DCFG_OFF (otherDom x)) = d.get (TIME_DCFG_OFF (otherDom x)) := get_of_getW (hword 0x040 (by decide))
    have hcap : d1.get (TIME_DSTAT_ASCAP (otherDom x)) = d.get (TIME_DSTAT_ASCAP (otherDom x)) := get_of_getW (hword 0x048 (by decide))
    rw [hups, hoff, hcap]
    exact hold
  obtain ⟨huntimed2, hstate2, -, hkeep2⟩ := evalHeard_fresh o hy hhears ((domState_of_getW (hword 0x048 (by decide))).trans (h _ hy))
  have hs : sync d x m (some o) = afterEvals (evalHeard d1 (otherDom x) (some o)).1 x sx sy ex ey := by
    rw [sync, if_pos (.inl (hh x hx)), heq]
  rw [hs]
  refine ⟨(afterEvals_untimed ..).trans (huntimed2.trans huntimed), fun z hz => ?_⟩
  rw [domState_of_getW (afterEvals_getW _ _ _ _ hx (dstat_ofDomain hz).1)]
  rcases hcover z hz with rfl | rfl
  · rw [domState_of_getW (hkeep2 _ ?_ ?_), hstate]
    · simp only [TIME_DSTAT, rkey, pDOM] at *
      omega
    · simp only [TIME_DSTAT, rkey]
      omega
  · exact hstate2

/-! ### The lock, an Announce, peer delay and the loss of a domain (R343, R345) -/

theorem dom_setDom {d : Dev} {x : Nat} (m : Dom) (h : x < d.tim.doms.length) : (d.setDom x m).dom x = m :=
  elemAt_putAt_same _ _ _ _ h

theorem iff_off {d : Dev} {b : Bool} (h : b = false) (f : Dev → Dev) : d.iff b f = d := by
  rw [h]
  rfl

theorem absInt_sub_comm (a b : Int) : absInt (a - b) = absInt (b - a) := by
  unfold absInt
  omega

theorem close_three {o a b : Int} (ha : absInt (o - a) ≤ 1000) (hb : absInt (o - b) ≤ 1000) (hab : absInt (a - b) ≤ 1000) :
    [o, a, b].all (fun x => [o, a, b].all (fun y => decide (absInt (x - y) ≤ 1000))) = true := by
  have hself : ∀ z : Int, absInt (z - z) ≤ 1000 := fun z => by simp [absInt]
  simp only [List.all_cons, List.all_nil, Bool.and_true, Bool.and_eq_true, decide_eq_true_eq]
  exact ⟨⟨hself o, ha, hb⟩, ⟨absInt_sub_comm a o ▸ ha, hself a, hab⟩, absInt_sub_comm b o ▸ hb, absInt_sub_comm b a ▸ hab, hself b⟩

theorem acquire_locks {d : Dev} {x : Nat} {o a b : Int} (hacq : (d.dom x).acq = [a, b])
    (ha : absInt (o - a) ≤ 1000) (hb : absInt (o - b) ≤ 1000) (hab : absInt (a - b) ≤ 1000) :
    domState (acquire d x o) x = 2 ∧ (acquire d x o).bit (PG_IST (pDOM x)) 0 = true := by
  unfold acquire
  extract_lets acq stored locked
  have hthree : acq = [o, a, b] := by simp only [acq, hacq, List.take_succ_cons, List.take_zero]
  have hclose : acq.length = 3 ∧ acq.all (fun a => acq.all fun b => decide (absInt (a - b) ≤ 1000)) = true := by
    rw [hthree]
    exact ⟨rfl, close_three ha hb hab⟩
  rw [if_pos hclose]
  refine ⟨?_, bit_ist_on _ (by decide)⟩
  have hist : TIME_DSTAT x ≠ PG_IST (pDOM x) := rkey_ne (by decide)
  rw [domState, get_setDom, get_of_getW (getW_ist_ne _ hist)]
  exact domTo_state (by decide)

/-- The registers and the domain as an Announce writes them. -/
def announced (d : Dev) (x gm utc steps : Nat) : Dev :=
  let d := d.inc (UPL_RXCNT_COUNT x)
  (((d.set (TIME_DSTAT_UTCOFS x) utc).setW (TIME_GMIDHI x) (gm / 2 ^ 32)).setW (TIME_GMIDLO x) gm).setDom x
    { d.dom x with steps := steps, gm := some gm }

theorem announce_first {d : Dev} {x gm utc steps : Nat} (hup : d.upOk x = true) (hoff : d.get (TIME_DCFG_OFF x) = 0)
    (hgm : (d.dom x).gm = none) : announce d x gm utc steps = announced d x gm utc steps := by
  unfold announce
  rw [if_neg (by simp [hup, hoff])]
  extract_lets counted m shown named
  have hold : m.gm = none := hgm
  rw [hold]
  rfl

theorem dstat_ne_rxcnt (x y : Nat) : TIME_DSTAT x ≠ UPL_RXCNT y := by
  simp only [TIME_DSTAT, UPL_RXCNT, rkey]
  omega

theorem announced_fields {d : Dev} {x gm : Nat} (utc steps : Nat) (hgm : gm < 2 ^ 64) (hlen : x < d.tim.doms.length) :
    let e := announced d x gm utc steps
    e.mem = d.mem ∧ e.getW (TIME_GMIDHI x) = gm / 2 ^ 32 ∧ e.getW (TIME_GMIDLO x) = gm % 2 ^ 32
      ∧ e.dom x = { (d.dom x) with gm := some gm, steps := steps } ∧ domState e x = domState d x := by
  have hids : TIME_GMIDHI x ≠ TIME_GMIDLO x := rkey_ne (by decide)
  have hstat : TIME_DSTAT x ≠ TIME_GMIDLO x ∧ TIME_DSTAT x ≠ TIME_GMIDHI x := ⟨rkey_ne (by decide), rkey_ne (by decide)⟩
  unfold announced
  extract_lets counted old written
  refine ⟨?_, ?_, ?_, ?_, ?_⟩
  · unfold written
    rw [setDom_mem, setW_mem, setW_mem, set_mem]
    exact inc_mem _ _
  · unfold written
    rw [getW_setDom, getW_setW_ne _ hids, getW_setW_same]
    omega
  · unfold written
    rw [getW_setDom, getW_setW_same]
  · exact dom_setDom _ hlen
  · have hshown : written.getW (TIME_DSTAT x) = (counted.set (TIME_DSTAT_UTCOFS x) utc).getW (TIME_DSTAT x) := by
      unfold written
      rw [getW_setDom, getW_setW_ne _ hstat.1, getW_setW_ne _ hstat.2]
    rw [domState_of_getW hshown, domState, get_set_apart _ _ _ _ rfl (by simp [Fld.apart, TIME_DSTAT_STATE, TIME_DSTAT_UTCOFS]),
      get_of_getW (getW_inc_ne _ _ (dstat_ne_rxcnt x x))]
    rfl

theorem pdelayDone_near {d : Dev} {x mld : Nat} {ppm : Int} (hm : mld ≤ 800) (hp : absInt ppm ≤ 200) :
    (pdelayDone d x mld ppm).mem = d.mem ∧ (pdelayDone d x mld ppm).get (TIME_DSTAT_ASCAP x) = 1
      ∧ (pdelayDone d x mld ppm).get (TIME_DLINK_MLD x) = mld ∧ domState (pdelayDone d x mld ppm) x = domState d x := by
  unfold pdelayDone
  extract_lets ok old measured shown
  have hok : ok = true := by simp [ok, hm, hp]
  rw [if_pos hok]
  unfold shown
  rw [setB_eq_set, hok]
  refine ⟨?_, get_set_same _ _ _ rfl, ?_, ?_⟩
  · rw [set_mem, set_mem]
    exact setDom_mem _ _ _
  · rw [get_of_getW (getW_set_ne _ _ _ (rkey_ne (by decide))), get_set_same _ _ _ rfl]
    exact (Nat.mod_eq_of_lt (by simp only [TIME_DLINK_MLD]; omega)).trans (Nat.min_eq_left (by omega))
  · rw [domState, get_set_apart _ _ _ _ rfl (by simp [Fld.apart, TIME_DSTAT_STATE, TIME_DSTAT_ASCAP]),
      get_of_getW (getW_set_ne _ _ _ (rkey_ne (by decide)))]
    rfl

theorem clearSuspicion_untimed (d : Dev) (x : Nat) : (clearSuspicion d x).untimed = d.untimed := by
  rw [clearSuspicion, condEnd_untimed, set_untimed, set_untimed]

theorem domAbsent_acquiring {d : Dev} {x : Nat} (hx : x < 2) (h : domState d x = 1) :
    (domAbsent d x).untimed = d.untimed ∧ domState (domAbsent d x) x = 0 := by
  unfold domAbsent
  extract_lets st gone old cleared lost
  have hst : st = 1 := h
  have hlost : lost = cleared := if_neg (by rw [hst]; decide)
  rw [if_neg (by rw [hst]; decide), hlost]
  refine ⟨?_, ?_⟩
  · rw [reselect_untimed, setDom_untimed, domTo_untimed, clearSuspicion_untimed]
  · rw [domState_of_getW (reselect_getW (dstat_ofDomain hx).1 x), domState, get_setDom]
    exact domTo_state (by decide)

theorem syncLost_acquiring {d : Dev} {x : Nat} (why : SyncLoss) (hx : x < 2) (h : domState d x = 1) :
    (syncLost d x why).untimed = d.untimed ∧ domState (syncLost d x why) x = 0 := by
  have huncap : (domAbsent (d.set (TIME_DSTAT_ASCAP x) 0) x).untimed = d.untimed
      ∧ domState (domAbsent (d.set (TIME_DSTAT_ASCAP x) 0) x) x = 0 := by
    obtain ⟨hkeep, hstate⟩ := domAbsent_acquiring (d := d.set (TIME_DSTAT_ASCAP x) 0) hx
      ((get_set_apart _ _ _ _ rfl (by simp [Fld.apart, TIME_DSTAT_STATE, TIME_DSTAT_ASCAP])).trans h)
    exact ⟨hkeep.trans (set_untimed _ _ _), hstate⟩
  cases why with
  | noSync => exact domAbsent_acquiring hx h
  | notCapable => exact huncap
  | linkDown => exact huncap

theorem untimed_eq {d e : Dev} (h : e.untimed = d.untimed) : e.mem = d.mem ∧ e.chans = d.chans := by
  simp only [Dev.untimed, Prod.mk.injEq] at h
  exact ⟨h.1, h.2.1⟩

/-- Settles O52: the evaluations of the Syncs first, then what follows once from them; the other events in the order of the statement. -/
theorem timeDomainsAndHoldover : Obligations.TimeDomainsAndHoldover := by
  unfold Obligations.TimeDomainsAndHoldover
  refine ⟨?_, ?_, ?_, ?_, fun d x h => if_pos h, ?_, ?_, ?_, ?_, ?_⟩
  · intro s x m hp hh h
    obtain ⟨hkeep, hstate, hpd⟩ := sync_single m (side_lt x) hh h
    obtain ⟨hmem, hchans⟩ := untimed_eq hkeep
    exact ⟨_, act_powered hp _, put_otp s _, put_pending s _, hmem, hchans, hstate, hpd⟩
  · intro s x m o hp h0 h1 hs0 hs1
    have hboth : ∀ {P : Nat → Prop}, P 0 → P 1 → ∀ z, z < 2 → P z := fun hP0 hP1 z hz => by
      interval_cases z <;> assumption
    obtain ⟨hkeep, hstate⟩ := sync_both m o (side_lt x) (hboth (P := (domHears s.dev · = true)) h0 h1)
      (hboth (P := (domState s.dev · = 0)) hs0 hs1)
    obtain ⟨hmem, hchans⟩ := untimed_eq hkeep
    exact ⟨_, act_powered hp _, put_otp s _, put_pending s _, hmem, hchans, hstate 0 (by decide), hstate 1 (by decide)⟩
  · intro s x m hh
    have hdeaf : sync s.dev x.num m none = s.dev := if_neg (by simp [hh])
    exact next_self hdeaf rfl
  · intro d x o a b _ _ hacq ha hb hab
    exact acquire_locks hacq ha hb hab
  · intro s x gm utc steps hp hup hoff hgm hnone hlen
    obtain ⟨hmem, hhi, hlo, hdom, hstate⟩ := announced_fields utc steps hgm hlen
    have hexec : exec (.announce x gm ⟨utc, steps⟩) s = .next (s.put (announced s.dev x.num gm utc steps)) :=
      next_put hp (announce_first hup hoff hnone) rfl
    exact ⟨_, hexec, put_otp s _, put_pending s _, hmem, hhi, hlo, hdom, hstate⟩
  · intro s x hp
    refine ⟨fun hup => ⟨?_, ?_⟩, fun hup => ⟨?_, ?_, fun mld ppm => ?_⟩⟩
    · exact (act_powered hp _).trans (by rw [hup]; rfl)
    · exact (act_powered hp _).trans (by rw [hup]; rfl)
    · exact next_self (iff_off hup _) rfl
    · exact next_self (iff_off hup _) rfl
    · exact next_self (iff_off hup _) rfl
  · intro s x mld ppm hp hup hm hppm
    obtain ⟨hmem, hcap, hmld, hstate⟩ := pdelayDone_near (d := s.dev.inc (UPL_RXCNT_COUNT x.num)) (x := x.num) hm hppm
    have hexec : exec (.pdelayResp x mld ppm) s = .next (s.put (pdelayDone (s.dev.inc (UPL_RXCNT_COUNT x.num)) x.num mld ppm)) :=
      (act_powered hp _).trans (by rw [hup]; rfl)
    exact ⟨_, hexec, put_otp s _, put_pending s _, hmem.trans (inc_mem _ _), hcap, hmld,
      hstate.trans (domState_of_getW (getW_inc_ne _ _ (dstat_ne_rxcnt _ _)))⟩
  · intro s x why hp h _
    obtain ⟨hkeep, hstate⟩ := syncLost_acquiring why (side_lt x) h
    obtain ⟨hmem, hchans⟩ := untimed_eq hkeep
    exact ⟨_, next_put hp rfl rfl, put_otp s _, put_pending s _, hmem, hchans, hstate⟩
  · intro s hp hst hlim hr
    have hdue : holdLimit s.dev = _ := if_pos ⟨hst, hlim, hr⟩
    exact (act_powered hp _).trans (by rw [hdue])

end Sys2Proof.Machine
end

section
/-! Curfew: calls, sleeps and wakes (R359 to R369). -/

namespace Sys2Proof.Machine

open Sys2Proof

/-! ### What an operation leaves of the part -/

section only
variable {ks : List Nat} {c : Nat} {d e : Dev}

theorem onlyChan_refl (ks : List Nat) (c : Nat) (d : Dev) : OnlyChan ks c d d := ⟨fun _ _ => rfl, fun _ _ => rfl, rfl⟩

theorem OnlyChan.setW (h : OnlyChan ks c d e) {k : Nat} (v : Nat) (hk : k ∈ ks) : OnlyChan ks c d (e.setW k v) := by
  obtain ⟨hregs, hchans, hrest⟩ := h
  exact ⟨fun j hj => (getW_setW_ne _ (ne_of_mem_of_not_mem hk hj).symm _).trans (hregs j hj), hchans, hrest⟩

theorem OnlyChan.set (h : OnlyChan ks c d e) {f : Fld} (v : Nat) (hf : f.key ∈ ks) : OnlyChan ks c d (e.set f v) := h.setW _ hf

theorem OnlyChan.inc (h : OnlyChan ks c d e) {f : Fld} (hf : f.key ∈ ks) : OnlyChan ks c d (e.inc f) := h.setW _ hf

theorem OnlyChan.ist (h : OnlyChan ks c d e) {p : Nat} (i : Nat) (hp : PG_IST p ∈ ks) : OnlyChan ks c d (e.ist p i) := h.setW _ hp

theorem OnlyChan.modChan (h : OnlyChan ks c d e) (f : Chan → Chan) : OnlyChan ks c d (e.modChan c f) := by
  obtain ⟨hregs, hchans, hrest⟩ := h
  exact ⟨fun k hk => (getW_modChan _ _ _ _).trans (hregs k hk), fun b hb => (chan_modChan_ne _ hb _).trans (hchans b hb), hrest⟩

theorem OnlyChan.mono {ls : List Nat} (h : OnlyChan ks c d e) (hsub : ks ⊆ ls) : OnlyChan ls c d e :=
  ⟨fun k hk => h.1 k fun hmem => hk (hsub hmem), h.2⟩

theorem OnlyChan.trans {a : Dev} (h : OnlyChan ks c d e) (h2 : OnlyChan ks c e a) : OnlyChan ks c d a := by
  obtain ⟨hregs, hchans, hrest⟩ := h
  obtain ⟨hregs2, hchans2, hrest2⟩ := h2
  refine ⟨fun k hk => (hregs2 k hk).trans (hregs k hk), fun b hb => (hchans2 b hb).trans (hchans b hb), ?_⟩
  rw [← hrest, ← hrest2]

theorem onlyRegs_refl (ks : List Nat) (d : Dev) : OnlyRegs ks d d := ⟨fun _ _ => rfl, rfl⟩

theorem OnlyRegs.setW (h : OnlyRegs ks d e) {k : Nat} (v : Nat) (hk : k ∈ ks) : OnlyRegs ks d (e.setW k v) := by
  obtain ⟨hregs, hrest⟩ := h
  exact ⟨fun j hj => (getW_setW_ne _ (ne_of_mem_of_not_mem hk hj).symm _).trans (hregs j hj), hrest⟩

theorem OnlyRegs.set (h : OnlyRegs ks d e) {f : Fld} (v : Nat) (hf : f.key ∈ ks) : OnlyRegs ks d (e.set f v) := h.setW _ hf

theorem OnlyRegs.inc (h : OnlyRegs ks d e) {f : Fld} (hf : f.key ∈ ks) : OnlyRegs ks d (e.inc f) := h.setW _ hf

theorem OnlyRegs.ist (h : OnlyRegs ks d e) {p : Nat} (i : Nat) (hp : PG_IST p ∈ ks) : OnlyRegs ks d (e.ist p i) := h.setW _ hp

end only

/-! ### The causes that abort a call or wake a channel (R363, R369) -/

section causes
variable {d : Dev} {c n : Nat}

theorem curfewCause_calls (h : d.get (CHC_CURSTAT_STATE c) = 1 ∨ d.get (CHC_CURSTAT_STATE c) = 2) : curfewCause d c n =
    ((((d.inc (CHC_CURCNT_ABORTS c)).ist (pCHC c) 10).set (CHC_CURSTAT_IDLE c) 0).set (CHC_CURSTAT_STATE c) 0).modChan c
      (fun x => { x with call := false, commit := false }) := if_pos h

theorem curfewCause_asleep (h : d.get (CHC_CURSTAT_STATE c) = 3) (hn : n ≠ 0) : curfewCause d c n =
    ((d.set (CHC_CURSTAT_STATE c) 4).set (CHC_CURSTAT_CAUSE c) n).modChan c
      (fun x => { x with wakeNs := d.nowNs, await := true, awaitNs := d.nowNs + 50000 }) :=
  (if_neg (by omega)).trans (if_pos ⟨h, hn⟩)

theorem curfewCause_other (h : d.get (CHC_CURSTAT_STATE c) = 0 ∨ d.get (CHC_CURSTAT_STATE c) = 4) : curfewCause d c n = d :=
  (if_neg (by omega)).trans (if_neg (by omega))

/-- The curfew registers of channel `c` are other registers than its interrupt status. -/
theorem curstat_ne (c : Nat) : CHC_CURSTAT c ≠ PG_IST (pCHC c) ∧ CHC_CURCNT c ≠ PG_IST (pCHC c) ∧ CHC_CURCNT c ≠ CHC_CURSTAT c
    ∧ CHC_SLPCNT c ≠ PG_IST (pCHC c) ∧ CHC_SLPCNT c ≠ CHC_CURSTAT c ∧ CHC_WAKECNT c ≠ PG_IST (pCHC c)
    ∧ CHC_VETO c ≠ CHC_CURSTAT c ∧ CHC_VETO c ≠ CHC_CURCNT c ∧ CHC_VETO c ≠ PG_IST (pCHC c) :=
  ⟨rkey_ne (by decide), rkey_ne (by decide), rkey_ne (by decide), rkey_ne (by decide), rkey_ne (by decide), rkey_ne (by decide),
    rkey_ne (by decide), rkey_ne (by decide), rkey_ne (by decide)⟩

theorem curfewCause_only (d : Dev) (c n : Nat) : OnlyChan [CHC_CURSTAT c, CHC_CURCNT c, PG_IST (pCHC c)] c d (curfewCause d c n) := by
  have hstat : CHC_CURSTAT c ∈ [CHC_CURSTAT c, CHC_CURCNT c, PG_IST (pCHC c)] := by simp
  unfold curfewCause
  split
  · exact ((((onlyChan_refl _ c d).inc (f := CHC_CURCNT_ABORTS c) (by simp [CHC_CURCNT_ABORTS])).ist 10 (by simp)).set
      (f := CHC_CURSTAT_IDLE c) _ hstat |>.set (f := CHC_CURSTAT_STATE c) _ hstat).modChan _
  · split
    · exact (((onlyChan_refl _ c d).set (f := CHC_CURSTAT_STATE c) _ hstat).set (f := CHC_CURSTAT_CAUSE c) _ hstat).modChan _
    · exact onlyChan_refl _ c d

theorem curfewCause_aborts (h : d.get (CHC_CURSTAT_STATE c) = 1 ∨ d.get (CHC_CURSTAT_STATE c) = 2) :
    (curfewCause d c n).get (CHC_CURSTAT_STATE c) = 0 ∧ (curfewCause d c n).get (CHC_CURSTAT_IDLE c) = 0
      ∧ (curfewCause d c n).bit (PG_IST (pCHC c)) 10 = true
      ∧ (curfewCause d c n).get (CHC_CURCNT_ABORTS c) = min (d.get (CHC_CURCNT_ABORTS c) + 1) (fldTop (CHC_CURCNT_ABORTS c)) := by
  obtain ⟨hist, hcnt, hne, -⟩ := curstat_ne c
  rw [curfewCause_calls h]
  refine ⟨?_, ?_, ?_, ?_⟩
  · rw [get_modChan, get_set_same _ _ _ rfl]
    rfl
  · rw [get_modChan, get_set_apart _ _ _ _ rfl (by simp [Fld.apart, CHC_CURSTAT_STATE, CHC_CURSTAT_IDLE]), get_set_same _ _ _ rfl]
    rfl
  · rw [bit_modChan, bit_set_off _ _ _ hist.symm, bit_set_off _ _ _ hist.symm]
    exact bit_ist_on _ (by decide)
  · rw [get_modChan, get_of_getW (getW_set_ne _ _ _ hne), get_of_getW (getW_set_ne _ _ _ hne), get_of_getW (getW_ist_ne _ hcnt),
      get_inc_same _ _ rfl]

theorem curfewCause_wakes (h : d.get (CHC_CURSTAT_STATE c) = 3) (hn : n ≠ 0) (hlt : n < 8) :
    (curfewCause d c n).get (CHC_CURSTAT_STATE c) = 4 ∧ (curfewCause d c n).get (CHC_CURSTAT_CAUSE c) = n := by
  rw [curfewCause_asleep h hn]
  refine ⟨?_, ?_⟩
  · rw [get_modChan, get_set_apart _ _ _ _ rfl (by simp [Fld.apart, CHC_CURSTAT_STATE, CHC_CURSTAT_CAUSE]), get_set_same _ _ _ rfl]
    rfl
  · rw [get_modChan, get_set_same _ _ _ rfl]
    exact Nat.mod_eq_of_lt (by simp only [CHC_CURSTAT_CAUSE]; omega)

theorem curfewCause_wakes_only (h : d.get (CHC_CURSTAT_STATE c) = 3) (hn : n ≠ 0) : OnlyChan [CHC_CURSTAT c] c d (curfewCause d c n) := by
  rw [curfewCause_asleep h hn]
  exact (((onlyChan_refl _ c d).set (f := CHC_CURSTAT_STATE c) _ (by simp [CHC_CURSTAT_STATE])).set (f := CHC_CURSTAT_CAUSE c) _
    (by simp [CHC_CURSTAT_CAUSE])).modChan _

theorem curfewCause_asleep_chan (h : d.get (CHC_CURSTAT_STATE c) = 3) (hn : n ≠ 0) (hlen : c < d.chans.length) :
    (curfewCause d c n).chan c = { (d.chan c) with wakeNs := d.nowNs, await := true, awaitNs := d.nowNs + 50000 } := by
  rw [curfewCause_asleep h hn, chan_modChan_same _ _ _ (by rwa [set_chans, set_chans]), chan_set, chan_set]

theorem curfewCause_calls_chan (h : d.get (CHC_CURSTAT_STATE c) = 1 ∨ d.get (CHC_CURSTAT_STATE c) = 2) (hlen : c < d.chans.length) :
    (curfewCause d c n).chan c = { (d.chan c) with call := false, commit := false } := by
  rw [curfewCause_calls h, chan_modChan_same _ _ _ (by rwa [set_chans, set_chans, ist_chans, inc_chans]), chan_set, chan_set, chan_ist,
    chan_inc]

end causes

/-! ### The transitions of the curfew (R369) -/

section transitions
variable {d : Dev} {c : Nat}

theorem curfewCallAt_calls (t : Nat) (hlen : c < d.chans.length) :
    let e := (((d.set (CHC_CURSTAT_STATE c) 1).inc (CHC_CURCNT_CALLS c)).ist (pCHC c) 8).modChan c (fun x => { x with callTick := t })
    OnlyChan [CHC_CURSTAT c, CHC_CURCNT c, PG_IST (pCHC c)] c d e ∧ e.get (CHC_CURSTAT_STATE c) = 1
      ∧ e.bit (PG_IST (pCHC c)) 8 = true
      ∧ e.get (CHC_CURCNT_CALLS c) = min (d.get (CHC_CURCNT_CALLS c) + 1) (fldTop (CHC_CURCNT_CALLS c))
      ∧ e.chan c = { (d.chan c) with callTick := t } := by
  obtain ⟨hist, hcnt, hne, -⟩ := curstat_ne c
  intro e
  unfold e
  refine ⟨?_, ?_, ?_, ?_, ?_⟩
  · exact ((((onlyChan_refl _ c d).set (f := CHC_CURSTAT_STATE c) _ (by simp [CHC_CURSTAT_STATE])).inc (f := CHC_CURCNT_CALLS c)
      (by simp [CHC_CURCNT_CALLS])).ist 8 (by simp)).modChan _
  · rw [get_modChan, get_of_getW (getW_ist_ne _ hist), get_of_getW (getW_inc_ne _ _ hne.symm), get_set_same _ _ _ rfl]
    rfl
  · rw [bit_modChan]
    exact bit_ist_on _ (by decide)
  · rw [get_modChan, get_of_getW (getW_ist_ne _ hcnt), get_inc_same _ _ rfl, get_of_getW (getW_set_ne _ _ _ hne)]
  · rw [chan_modChan_same _ _ _ (by rwa [ist_chans, inc_chans, set_chans]), chan_ist, chan_inc, chan_set]

theorem curfewCall_due (hc : d.hasChan c = true) (hst : d.get (CHC_CURSTAT_STATE c) = 0)
    (hen : bitOf (d.pendingW (CHC_CURCFG c)) 31 = true)
    (hidle : max (bitsOf (d.pendingW (CHC_CURCFG c)) 15 0) 1 ≤ min (d.get (CHC_CURSTAT_IDLE c) + 1) 65535)
    (hneed : needed d c = false) (hveto : d.get (CHC_VETO_MASK c) = 0) (hrun : d.running (pCHC c) = true) : curfewCall d c =
      (((d.set (CHC_CURSTAT_STATE c) 1).inc (CHC_CURCNT_CALLS c)).ist (pCHC c) 8).modChan c (fun x => { x with callTick := d.tick + 1 }) :=
  (if_pos hc).trans (if_pos ⟨hst, hen, hidle, hneed, hveto, hrun⟩)

theorem curfewCommitAt_commits (t : Nat) (hlen : c < d.chans.length) :
    let e := ((d.set (CHC_CURSTAT_STATE c) 2).ist (pCHC c) 9).modChan c (fun x => { x with callTick := t - 2 })
    OnlyChan [CHC_CURSTAT c, PG_IST (pCHC c)] c d e ∧ e.get (CHC_CURSTAT_STATE c) = 2 ∧ e.bit (PG_IST (pCHC c)) 9 = true
      ∧ e.chan c = { (d.chan c) with callTick := t - 2 } := by
  obtain ⟨hist, -⟩ := curstat_ne c
  intro e
  unfold e
  refine ⟨?_, ?_, ?_, ?_⟩
  · exact (((onlyChan_refl _ c d).set (f := CHC_CURSTAT_STATE c) _ (by simp [CHC_CURSTAT_STATE])).ist 9 (by simp)).modChan _
  · rw [get_modChan, get_of_getW (getW_ist_ne _ hist), get_set_same _ _ _ rfl]
    rfl
  · rw [bit_modChan]
    exact bit_ist_on _ (by decide)
  · rw [chan_modChan_same _ _ _ (by rwa [ist_chans, set_chans]), chan_ist, chan_set]

theorem curfewCommit_due (hc : d.hasChan c = true) (hst : d.get (CHC_CURSTAT_STATE c) = 1) (hdue : (d.chan c).callTick + 2 ≤ d.tick + 1) :
    curfewCommit d c = ((d.set (CHC_CURSTAT_STATE c) 2).ist (pCHC c) 9).modChan c (fun x => { x with callTick := d.tick + 1 - 2 }) :=
  (if_pos hc).trans (if_pos (by simp [commitsAt, hst, hdue]))

theorem advanceTo_getW (d : Dev) (n k : Nat) : (d.advanceTo n).getW k = d.getW k := by
  unfold Dev.advanceTo
  split <;> rfl

/-- Nothing of the part but registers and the time differs. -/
def SavesTime (d e : Dev) : Prop := { e with regs := d.regs, aon := d.aon } = d

theorem savesTime_advanceTo (d : Dev) (n : Nat) : SavesTime d (d.advanceTo n) := by
  unfold SavesTime Dev.advanceTo
  split <;> rfl

theorem SavesTime.setW {e : Dev} (h : SavesTime d e) (k v : Nat) : SavesTime d (e.setW k v) := h

theorem sleeps_fields (d : Dev) (c fin : Nat) :
    let e := (((d.advanceTo fin).set (CHC_CURSTAT_STATE c) 3).inc (CHC_SLPCNT_SLEEPS c)).ist (pCHC c) 11
    (∀ k, k ∉ [CHC_CURSTAT c, CHC_SLPCNT c, PG_IST (pCHC c)] → e.getW k = d.getW k)
      ∧ { e with regs := d.regs, aon := d.aon } = d ∧ e.nowNs = max d.nowNs fin
      ∧ e.get (CHC_CURSTAT_STATE c) = 3 ∧ e.bit (PG_IST (pCHC c)) 11 = true
      ∧ e.get (CHC_SLPCNT_SLEEPS c) = min (d.get (CHC_SLPCNT_SLEEPS c) + 1) (fldTop (CHC_SLPCNT_SLEEPS c)) := by
  obtain ⟨hist, -, -, hslp, hne, -⟩ := curstat_ne c
  intro e
  unfold e
  refine ⟨fun k hk => ?_, (((savesTime_advanceTo d fin).setW _ _).setW _ _).setW _ _, ?_, ?_, bit_ist_on _ (by decide), ?_⟩
  · simp only [List.mem_cons, List.not_mem_nil, or_false, not_or] at hk
    obtain ⟨hst, hsl, hi⟩ := hk
    rw [getW_ist_ne _ hi, getW_inc_ne _ _ hsl, getW_set_ne _ _ _ hst, advanceTo_getW]
  · rw [← advanceTo_nowNs, Dev.nowNs, ist_aon, inc_aon, set_aon]
    rfl
  · rw [get_of_getW (getW_ist_ne _ hist), get_of_getW (getW_inc_ne _ _ hne.symm), get_set_same _ _ _ rfl]
    rfl
  · rw [get_of_getW (getW_ist_ne _ hslp), get_inc_same _ _ rfl, get_of_getW (getW_set_ne _ _ _ hne), get_of_getW (advanceTo_getW _ _ _)]

theorem sleepOp_due (hc : d.hasChan c = true) (hst : d.get (CHC_CURSTAT_STATE c) = 2) (hb : (d.chan c).bell = .sent) : sleepOp d c =
    (((d.advanceTo (max (d.bell.inst + (d.chan c).bellFin + 3 * d.arbNs c + 100000) (d.chan c).idleNs)).set (CHC_CURSTAT_STATE c) 3).inc
      (CHC_SLPCNT_SLEEPS c)).ist (pCHC c) 11 := if_pos ⟨hc, hst, hb⟩

theorem wakeOp_awake {s : State} (h : s.dev.get DEV_VIGSTAT_STATE = 0) : wakeOp s c = s.put (wakePattern s.dev c) := if_pos h

theorem exec_wakePattern {s t : State} (hp : s.dev.powered = true) (h : wakeOp s c = t) : exec (.wakePattern c) s = .next t :=
  (actAll_powered hp fun s => wakeOp s c).trans (congrArg Host.Outcome.next h)

theorem wakePattern_asleep (hc : d.hasChan c = true) (hr : d.running (pCHC c) = true) (h : d.get (CHC_CURSTAT_STATE c) = 3)
    (hh : d.isHead = true) : wakePattern d c = curfewCause d c 1 := by
  unfold wakePattern
  rw [if_neg (by simp [hc, hr])]
  extract_lets heard
  have hheard : heard = d := if_neg (by omega)
  rw [hheard, if_pos hh]

theorem wakePattern_heard (hc : d.hasChan c = true) (hr : d.running (pCHC c) = true) (hh : hears d c = true)
    (h : d.get (CHC_CURSTAT_STATE c) ≤ 2) : wakePattern d c =
      if (rxError (countLineErr d c 1) c 0 false).isHead = true then curfewCause (rxError (countLineErr d c 1) c 0 false) c 1
      else rxError (countLineErr d c 1) c 0 false := by
  unfold wakePattern
  rw [if_neg (by simp [hc, hr])]
  extract_lets heard
  have hheard : heard = rxError (countLineErr d c 1) c 0 false := if_pos ⟨hh, h⟩
  rw [hheard]

end transitions

theorem writeChan_curctl (d : Dev) (w : Who) (c : Nat) : writeChan d w (pCHC c) 0x10C 1 = curfewCause d c 4 := by
  have hm : (0x100 + 4 * c) % 4 = 0 := chan_page_mod c 0 (by decide)
  have hp : pageChan (0x100 + 4 * c) = c := pageChan_chan c 0 (by decide)
  unfold writeChan pCHC
  simp [hm, hp, bitOf]

theorem writeChan_veto (d : Dev) (w : Who) (c v : Nat) : writeChan d w (pCHC c) 0x110 v = vetoWrite d w c (bitOf v 0) := by
  have hm : (0x100 + 4 * c) % 4 = 0 := chan_page_mod c 0 (by decide)
  have hp : pageChan (0x100 + 4 * c) = c := pageChan_chan c 0 (by decide)
  unfold writeChan pCHC
  simp [hm, hp]

/-! ### Vetoes (R361, R363) -/

section vetoes
variable {d : Dev} {c n : Nat}

/-- What the veto mask holds when bit `n` has been given the value `b`. -/
theorem veto_mask (b : Bool) (hn : n < 8) (j : Nat) :
    bitOf ((d.set (CHC_VETO_MASK c) (putBit (d.get (CHC_VETO_MASK c)) n b)).get (CHC_VETO_MASK c)) j
      = if j = n then b else bitOf (d.get (CHC_VETO_MASK c)) j := by
  have hlt : d.get (CHC_VETO_MASK c) < 2 ^ 8 := get_lt d (CHC_VETO_MASK c)
  rw [get_set_same _ _ _ rfl, show putBit (d.get (CHC_VETO_MASK c)) n b % 2 ^ ((CHC_VETO_MASK c).hi + 1 - (CHC_VETO_MASK c).lo) = _ from
    Nat.mod_eq_of_lt (putBits_lt _ _ _ _ _ (Nat.le_refl n) hn hlt), bitOf_putBit]

theorem vetoSetOp_only : OnlyChan [CHC_VETO c, CHC_CURSTAT c, CHC_CURCNT c, PG_IST (pCHC c)] c d (vetoSetOp d c n) :=
  ((onlyChan_refl _ c d).set (f := CHC_VETO_MASK c) _ (by simp [CHC_VETO_MASK])).trans
    ((curfewCause_only _ c 3).mono (by simp))

theorem vetoSetOp_mask : (vetoSetOp d c n).get (CHC_VETO_MASK c)
    = (d.set (CHC_VETO_MASK c) (putBit (d.get (CHC_VETO_MASK c)) n true)).get (CHC_VETO_MASK c) := by
  obtain ⟨-, -, -, -, -, -, hstat, hcnt, hist⟩ := curstat_ne c
  exact get_of_getW (curfewCause_getW hcnt hist hstat)

theorem veto_state (v : Nat) : (d.set (CHC_VETO_MASK c) v).get (CHC_CURSTAT_STATE c) = d.get (CHC_CURSTAT_STATE c) := by
  obtain ⟨-, -, -, -, -, -, hstat, -⟩ := curstat_ne c
  exact get_of_getW (getW_set_ne _ _ _ hstat.symm)

end vetoes

/-- Settles O53: each transition of the curfew with what it changes, and the causes that abort a call or wake a channel. -/
theorem curfewCallsSleepsAndWakes : Obligations.CurfewCallsSleepsAndWakes := by
  unfold Obligations.CurfewCallsSleepsAndWakes
  refine ⟨?_, ?_, ?_, ?_, ?_, ?_, ?_, ?_, ?_, ?_⟩
  · intro s c hp hc hlen hst hen hidle hneed hveto hrun
    have hcall := curfewCall_due hc hst hen hidle hneed hveto hrun
    obtain ⟨honly, hfields⟩ := curfewCallAt_calls (s.dev.tick + 1) hlen
    exact ⟨_, next_put hp hcall rfl, put_otp s _, put_pending s _, honly, hfields⟩
  · intro s c hp hc hlen hst hdue
    have hcommit := curfewCommit_due hc hst hdue
    obtain ⟨honly, hfields⟩ := curfewCommitAt_commits (s.dev.tick + 1) hlen
    exact ⟨_, next_put hp hcommit rfl, put_otp s _, put_pending s _, honly, hfields⟩
  · intro s c hp hc hst hbell
    exact ⟨_, next_put hp (sleepOp_due hc hst hbell) rfl, put_otp s _, put_pending s _, sleeps_fields _ _ _⟩
  · intro s c hp hc hlen hrun hvig hst hhead
    have hwake := (wakeOp_awake hvig).trans (congrArg s.put (wakePattern_asleep hc hrun hst hhead))
    obtain ⟨hstate, hcause⟩ := curfewCause_wakes hst (n := 1) (by decide) (by decide)
    exact ⟨_, exec_wakePattern hp hwake, put_otp s _, put_pending s _, curfewCause_wakes_only hst (by decide), hstate, hcause,
      curfewCause_asleep_chan hst (by decide) hlen⟩
  · intro s c hp hc hrun hvig hh hst
    exact exec_wakePattern hp ((wakeOp_awake hvig).trans (congrArg s.put (wakePattern_heard hc hrun hh hst)))
  · intro s c hvig hoff
    have hidle : wakePattern s.dev c = s.dev := if_pos hoff
    have hwake : wakeOp s c = s := (wakeOp_awake hvig).trans ((congrArg s.put hidle).trans (put_self s))
    exact congrArg Host.Outcome.next ((congrArg (fun t => if s.dev.powered then t else s) hwake).trans (ite_self s))
  · intro s c hp hc hst
    obtain ⟨-, -, -, -, -, hist, -⟩ := curstat_ne c
    refine ⟨_, next_put hp (if_pos ⟨hc, hst⟩) rfl, put_otp s _, put_pending s _, ?_, bit_ist_on _ (by decide), ?_⟩
    · exact ((onlyRegs_refl _ s.dev).inc (f := CHC_WAKECNT_FALSE c) (by simp [CHC_WAKECNT_FALSE])).ist 13 (by simp)
    · rw [show ((s.put ((s.dev.inc (CHC_WAKECNT_FALSE c)).ist (pCHC c) 13)).dev.get (CHC_WAKECNT_FALSE c)) = _ from
        get_of_getW (getW_ist_ne _ hist), get_inc_same _ _ rfl]
  · intro s w c hc hlen ha
    have hexec : exec (.curctlWake w c) s = .next (s.put (curfewCause s.dev c 4)) :=
      (chan_write 0 hc (by decide) (by decide) (by decide) (by decide) ha).trans
        (congrArg (fun d => Host.Outcome.next (s.put d)) (writeChan_curctl _ _ _))
    refine ⟨fun hst => ?_, fun hst => ?_, fun hst => ?_⟩
    · obtain ⟨hstate, hidle, hbit, hcnt⟩ := curfewCause_aborts hst (n := 4)
      exact ⟨_, hexec, put_otp s _, put_pending s _, curfewCause_only _ _ _, hstate, hidle, hbit, hcnt, curfewCause_calls_chan hst hlen⟩
    · obtain ⟨hstate, hcause⟩ := curfewCause_wakes hst (n := 4) (by decide) (by decide)
      exact ⟨_, hexec, put_otp s _, put_pending s _, curfewCause_wakes_only hst (by decide), hstate, hcause,
        curfewCause_asleep_chan hst (by decide) hlen⟩
    · rw [hexec, curfewCause_other hst, put_self]
  · intro s n c hn hc ha
    have hexec : exec (.vetoSet (.session n) c) s = .next (s.put (vetoSetOp s.dev c n)) :=
      (chan_write 0 hc (by decide) (by decide) (by decide) (by decide) ha).trans
        (congrArg (fun d => Host.Outcome.next (s.put d)) (writeChan_veto _ _ _ _))
    have hmask := fun j => (congrArg (bitOf · j) (vetoSetOp_mask (d := s.dev) (c := c) (n := n))).trans (veto_mask true hn j)
    refine ⟨_, hexec, put_otp s _, put_pending s _, vetoSetOp_only, ?_, fun j hj => ?_, fun hst => ?_, fun hst => ?_⟩
    · exact (hmask n).trans (if_pos rfl)
    · exact (hmask j).trans (if_neg hj)
    · exact (curfewCause_aborts (by rwa [veto_state])).1
    · exact curfewCause_wakes ((veto_state _).trans hst) (by decide) (by decide)
  · intro s n c hn hc ha
    have hexec : exec (.vetoClear (.session n) c) s = .next (s.put (vetoClearOp s.dev c n)) :=
      (chan_write 0 hc (by decide) (by decide) (by decide) (by decide) ha).trans
        (congrArg (fun d => Host.Outcome.next (s.put d)) (writeChan_veto _ _ _ _))
    refine ⟨_, hexec, put_otp s _, put_pending s _, (onlyRegs_refl _ _).set (f := CHC_VETO_MASK c) _ (by simp [CHC_VETO_MASK]), ?_, fun j hj => ?_⟩
    · exact (veto_mask false hn n).trans (if_pos rfl)
    · exact (veto_mask false hn j).trans (if_neg hj)

end Sys2Proof.Machine
end

section
/-! Vigil: entry, completion and exit (R376 to R380). -/

namespace Sys2Proof.Machine

open Sys2Proof

/-- A command that acts on the whole state, by what its operation makes of it. -/
theorem next_all {s t u : State} {o : Host.Outcome State Fault Refusal} (hp : s.dev.powered = true) (h : t = u)
    (ho : o = .next (if s.dev.powered then t else s)) : o = .next u := by
  rw [ho, if_pos hp, h]

/-! ### Entry (R376, R377) -/

theorem vigstat_ne_offer (n : Nat) : DEV_VIGSTAT ≠ INTC_OFFER n := by
  simp only [DEV_VIGSTAT, INTC_OFFER, rkey]
  omega

theorem offers_retracted (l : List Nat) (d : Dev) (n : Nat) : ((d.forEach l fun d t => d.set (INTC_OFFER_VALID t) 0).get (INTC_OFFER_VALID n))
    = if n ∈ l then 0 else d.get (INTC_OFFER_VALID n) := by
  induction l generalizing d with
  | nil => simp [Dev.forEach]
  | cons t l ih =>
    have hhead : (d.set (INTC_OFFER_VALID t) 0).get (INTC_OFFER_VALID n) = if n = t then 0 else d.get (INTC_OFFER_VALID n) := by
      by_cases hnt : n = t
      · subst hnt
        rw [get_set_same _ _ _ rfl, if_pos rfl]
        rfl
      · have hkey : INTC_OFFER n ≠ INTC_OFFER t := by
          simp only [INTC_OFFER, rkey]
          omega
        rw [if_neg hnt, get_of_getW (getW_set_ne _ _ _ hkey)]
    refine (ih (d.set (INTC_OFFER_VALID t) 0)).trans ?_
    rw [hhead]
    by_cases hl : n ∈ l <;> by_cases hnt : n = t <;> simp [hl, hnt]

theorem vigilBegin_fields (d : Dev) : (vigilBegin d).mem = d.mem ∧ (vigilBegin d).get DEV_VIGSTAT_STATE = 1
    ∧ (∀ n, n < 4 → (vigilBegin d).get (INTC_OFFER_VALID n) = 0) ∧ (vigilBegin d).chans = d.chans := by
  have hkeep : ∀ {β : Type} (g : Dev → β), (∀ (d : Dev) t, g (d.set (INTC_OFFER_VALID t) 0) = g d) →
      g (vigilBegin d) = g (d.set DEV_VIGSTAT_STATE 1) := fun g hg => forEach_same g _ _ hg _
  refine ⟨hkeep Dev.mem fun _ _ => set_mem _ _ _, ?_, fun n hn => ?_, hkeep Dev.chans fun _ _ => set_chans _ _ _⟩
  · rw [hkeep (Dev.get · DEV_VIGSTAT_STATE) fun e t => get_of_getW (getW_set_ne e _ _ (vigstat_ne_offer t)), get_set_same _ _ _ rfl]
    rfl
  · rw [vigilBegin, vigilRetract, offers_retracted, if_pos (List.mem_range.mpr hn)]

/-! ### Completion (R377) -/

/-- What vigil entry writes lies in the hayloft's image of 256 KiB. -/
theorem mem_vigilRegions {d : Dev} {r : Nat × Nat} (h : r ∈ vigilRegions d) : 0x1000000 ≤ r.1 ∧ r.1 + r.2 ≤ 0x1040000 := by
  simp only [vigilRegions, List.mem_cons, List.mem_append, List.mem_map, List.not_mem_nil, or_false] at h
  rcases h with rfl | ⟨k, hk, rfl⟩ | rfl
  · decide
  · have hlt : k < 8 := hasHam_lt (by simpa [Dev.hamList, Dev.hasHam] using hk)
    simp only
    omega
  · decide

theorem forEach_setMemB_out (l : List (Nat × Nat)) (f : Nat × Nat → List Byte) (hlen : ∀ r, (f r).length = r.2) {a : Nat}
    (h : ∀ r ∈ l, a < r.1 ∨ r.1 + r.2 ≤ a) (d : Dev) :
    Memory.get (d.forEach l fun t r => t.setMemB r.1 (f r)).mem a = Memory.get d.mem a := by
  induction l generalizing d with
  | nil => rfl
  | cons r l ih =>
    refine (ih (fun q hq => h q (List.mem_cons_of_mem _ hq)) _).trans ?_
    exact get_putAll_out _ _ _ _ (by rw [hlen]; exact h r List.mem_cons_self)

theorem vigilStore_get (d : Dev) {a : Nat} (h : a < 0x1000000 ∨ 0x1040000 ≤ a) :
    Memory.get (vigilStore d).mem a = Memory.get d.mem a := by
  refine forEach_setMemB_out _ (fun r => (List.range r.2).map fun i => Config.freeByte d.fresh (r.1 + i)) (fun r => by simp)
    (fun _ hr => ?_) d.next
  obtain ⟨hlo, hhi⟩ := mem_vigilRegions hr
  omega

theorem vigilStore_same {β : Type} (g : Dev → β) (hmem : ∀ (d : Dev) m, g { d with mem := m } = g d)
    (hfresh : ∀ (d : Dev) n, g { d with fresh := n } = g d) (d : Dev) : g (vigilStore d) = g d :=
  (forEach_same g _ _ (fun d _ => hmem d _) _).trans (hfresh d _)

/-- The state of a part that vigil has been entered in. -/
def inVigil (d : Dev) : Dev :=
  flipHeldAt { (((vigilStore d).set DEV_VIGSTAT_STATE 2).inc DEV_VIGSTAT_ENTRIES).ist 3 0 with vigSaved := true }

theorem vigilEntered_idle {d : Dev} (h : d.get DEV_VIGSTAT_STATE = 1) (hidle : uplinkIdle d = true) : vigilEntered d = inVigil d :=
  if_neg (by simp [h, hidle])

theorem flipHeldAt_same {β : Type} (g : Dev → β) (hg : ∀ (d : Dev) i, g { d with intc := i } = g d) (d : Dev) : g (flipHeldAt d) = g d :=
  hg d _

theorem inVigil_same {β : Type} (g : Dev → β) (hi : ∀ (d : Dev) i, g { d with intc := i } = g d) (hs : ∀ (d : Dev) b, g { d with vigSaved := b } = g d)
    (d : Dev) : g (inVigil d) = g ((((vigilStore d).set DEV_VIGSTAT_STATE 2).inc DEV_VIGSTAT_ENTRIES).ist 3 0) :=
  (flipHeldAt_same g hi _).trans (hs _ _)

theorem inVigil_getW {d : Dev} {k : Nat} (hv : k ≠ DEV_VIGSTAT) (hi : k ≠ PG_IST 3) : (inVigil d).getW k = d.getW k := by
  rw [inVigil_same (Dev.getW · k) (fun _ _ => rfl) (fun _ _ => rfl), getW_ist_ne _ hi, getW_inc_ne _ _ hv, getW_set_ne _ _ _ hv]
  exact vigilStore_same (Dev.getW · k) (fun _ _ => rfl) (fun _ _ => rfl) d

theorem inVigil_fields (d : Dev) : (inVigil d).get DEV_VIGSTAT_STATE = 2 ∧ (inVigil d).bit (PG_IST 3) 0 = true ∧ (inVigil d).vigSaved = true
    ∧ (inVigil d).chans = d.chans
    ∧ (inVigil d).get DEV_VIGSTAT_ENTRIES = min (d.get DEV_VIGSTAT_ENTRIES + 1) (fldTop DEV_VIGSTAT_ENTRIES) := by
  have hkey : DEV_VIGSTAT ≠ PG_IST 3 := by decide
  refine ⟨?_, ?_, rfl, ?_, ?_⟩
  · rw [inVigil_same (Dev.get · DEV_VIGSTAT_STATE) (fun _ _ => rfl) (fun _ _ => rfl), get_of_getW (getW_ist_ne _ hkey),
      get_inc_off _ (by decide) (by decide), get_set_same _ _ _ rfl]
    rfl
  · rw [inVigil_same (Dev.bit · (PG_IST 3) 0) (fun _ _ => rfl) (fun _ _ => rfl)]
    exact bit_ist_on _ (by decide)
  · rw [inVigil_same Dev.chans (fun _ _ => rfl) (fun _ _ => rfl), ist_chans, inc_chans, set_chans]
    exact vigilStore_same Dev.chans (fun _ _ => rfl) (fun _ _ => rfl) d
  · rw [inVigil_same (Dev.get · DEV_VIGSTAT_ENTRIES) (fun _ _ => rfl) (fun _ _ => rfl), get_of_getW (getW_ist_ne _ hkey), get_inc_same _ _ rfl,
      get_set_apart _ _ _ _ rfl (by decide), vigilStore_same (Dev.get · DEV_VIGSTAT_ENTRIES) (fun _ _ => rfl) (fun _ _ => rfl)]

theorem inVigil_get (d : Dev) {a : Nat} (h : a < 0x1000000 ∨ 0x1040000 ≤ a) : Memory.get (inVigil d).mem a = Memory.get d.mem a := by
  rw [inVigil_same Dev.mem (fun _ _ => rfl) (fun _ _ => rfl), ist_mem, inc_mem, set_mem, vigilStore_get d h]

/-! ### Exit (R379) -/

/-- A channel without keys. -/
def Chan.keyless (x : Chan) : Prop := x.cur = none ∧ x.old = none ∧ x.next = none

/-- The part awake again, before a wake pattern wakes its channel. -/
def awoken (d : Dev) (v : VigilCause) : Dev :=
  let d := ((d.set DEV_VIGSTAT_STATE 0).set DEV_VIGSTAT_CAUSE (VigilCause.code v)).ist 3 1
  flipHeldAt { d with vigSaved := false, chans := d.chans.map dropKeys }

theorem elemAt_map_or {α : Type} (P : α → Prop) (f : α → α) (a : α) (l : List α) (i : Nat) (ha : P a) (hf : ∀ x, P (f x)) :
    P (elemAt a (l.map f) i) := by
  induction l generalizing i with
  | nil => exact ha
  | cons x l ih =>
    cases i with
    | zero => exact hf x
    | succ i => exact ih i

theorem awoken_keyless (d : Dev) (v : VigilCause) (c : Nat) : ((awoken d v).chan c).keyless :=
  elemAt_map_or Chan.keyless dropKeys Chan.reset _ c ⟨rfl, rfl, rfl⟩ fun _ => ⟨rfl, rfl, rfl⟩

theorem awoken_same {β : Type} (g : Dev → β) (hi : ∀ (d : Dev) i, g { d with intc := i } = g d) (hs : ∀ (d : Dev) b cs, g { d with vigSaved := b, chans := cs } = g d)
    (d : Dev) (v : VigilCause) : g (awoken d v) = g (((d.set DEV_VIGSTAT_STATE 0).set DEV_VIGSTAT_CAUSE (VigilCause.code v)).ist 3 1) :=
  (flipHeldAt_same g hi _).trans (hs _ _ _)

theorem vigilCode_lt (v : VigilCause) : VigilCause.code v < 8 := by cases v <;> simp [VigilCause.code]

theorem awoken_fields (d : Dev) (v : VigilCause) : (awoken d v).mem = d.mem ∧ (awoken d v).get DEV_VIGSTAT_STATE = 0
    ∧ (awoken d v).get DEV_VIGSTAT_CAUSE = VigilCause.code v ∧ (awoken d v).bit (PG_IST 3) 1 = true := by
  have hkey : DEV_VIGSTAT ≠ PG_IST 3 := by decide
  refine ⟨?_, ?_, ?_, ?_⟩
  · rw [awoken_same Dev.mem (fun _ _ => rfl) (fun _ _ _ => rfl), ist_mem, set_mem, set_mem]
  · rw [awoken_same (Dev.get · DEV_VIGSTAT_STATE) (fun _ _ => rfl) (fun _ _ _ => rfl), get_of_getW (getW_ist_ne _ hkey),
      get_set_apart _ _ _ _ rfl (by decide), get_set_same _ _ _ rfl]
    rfl
  · rw [awoken_same (Dev.get · DEV_VIGSTAT_CAUSE) (fun _ _ => rfl) (fun _ _ _ => rfl), get_of_getW (getW_ist_ne _ hkey),
      get_set_same _ _ _ rfl]
    exact Nat.mod_eq_of_lt (vigilCode_lt v)
  · rw [awoken_same (Dev.bit · (PG_IST 3) 1) (fun _ _ => rfl) (fun _ _ _ => rfl)]
    exact bit_ist_on _ (by decide)

/-- What the waking of a channel by its pattern leaves. -/
theorem vigilWake_same {β : Type} (g : Dev → β) (v : VigilCause) (d : Dev)
    (hg : ∀ c, d.hasChan c = true → g (curfewCause d c 1) = g d) : g (vigilWake d v) = g d := by
  cases v with
  | wakePattern c =>
    unfold vigilWake
    simp only
    split
    · next h => exact hg c h
    · rfl
  | uplink => rfl
  | twin => rfl
  | fault => rfl

theorem keyless_of_epochs {x y : Chan} (h : x.epochs = y.epochs) (hy : y.keyless) : x.keyless := by
  simp only [Chan.epochs, Prod.mk.injEq] at h
  obtain ⟨hnext, hcur, hold, -⟩ := h
  obtain ⟨hycur, hyold, hynext⟩ := hy
  exact ⟨hcur.trans hycur, hold.trans hyold, hnext.trans hynext⟩

/-- The rows of an exit: the part awake, without keys. -/
theorem vigilAwake_fields (d : Dev) (v : VigilCause) : (vigilAwake d v).mem = d.mem ∧ (vigilAwake d v).get DEV_VIGSTAT_STATE = 0
    ∧ (vigilAwake d v).get DEV_VIGSTAT_CAUSE = VigilCause.code v ∧ (vigilAwake d v).bit (PG_IST 3) 1 = true
    ∧ ∀ c, ((vigilAwake d v).chan c).keyless := by
  obtain ⟨hmem, hstate, hcause, hbit⟩ := awoken_fields d v
  have hwoken : vigilAwake d v = vigilWake (awoken d v) v := rfl
  have hword : ∀ off, off < 4096 → (vigilWake (awoken d v) v).getW (rkey 3 off) = (awoken d v).getW (rkey 3 off) := fun off hoff =>
    vigilWake_same (Dev.getW · (rkey 3 off)) v _ fun c _ => by
      obtain ⟨hcnt, hist, hst⟩ := offCurfew_system (p := 3) (by decide) hoff c
      exact curfewCause_getW hcnt hist hst
  have hstat : (vigilWake (awoken d v) v).getW DEV_VIGSTAT = (awoken d v).getW DEV_VIGSTAT := hword 0x044 (by decide)
  rw [hwoken]
  refine ⟨?_, (get_of_getW hstat).trans hstate, (get_of_getW hstat).trans hcause, ?_, fun c => ?_⟩
  · exact (vigilWake_same Dev.mem v _ fun c _ => curfewCause_same Dev.mem (fun _ _ => rfl) (fun _ _ => rfl) _ c 1).trans hmem
  · exact (congrArg (bitOf · 1) (hword 0x010 (by decide))).trans hbit
  · exact keyless_of_epochs (vigilWake_same (fun e => (e.chan c).epochs) v _ fun b _ => curfewCause_epochs _ c b 1) (awoken_keyless d v c)

theorem vigilExit_sound {s : State} {v : VigilCause} {st : Straps} (h : s.dev.get DEV_VIGSTAT_STATE = 2) (hheld : s.dev.vigHeld = []) :
    vigilExit s v true st = s.put { vigilAwake s.dev v with vigHeld := [] } := by
  unfold vigilExit vigilLeave
  rw [if_neg (by simp), if_neg (by omega), if_pos h, hheld]
  rfl

theorem vigilExit_damaged {s : State} {v : VigilCause} {st : Straps} (h : s.dev.get DEV_VIGSTAT_STATE = 2) :
    vigilExit s v false st = restart (s.put (raise s.dev 3 0)) st 3 := if_pos ⟨h, rfl⟩

/-- The identity keys of a first power do not depend on a fault before it. -/
theorem firstPower_raise_otp (s : State) (p n : Nat) : (firstPower (s.put (raise s.dev p n))).otp = (firstPower s).otp := by
  have hdraw : (raise s.dev p n).draw.2 = s.dev.draw.2 := by
    obtain ⟨-, -, -, -, -, -, -, -, -, -, -, -, -, -, -, -, -, -, -, -, -, -, -, -, -, -, -, hfresh, -⟩ := core_fields (core_raise s.dev p n)
    exact hfresh
  unfold firstPower
  by_cases hkeys : s.otp.idPub = []
  · rw [if_pos hkeys, if_pos (show (s.put (raise s.dev p n)).otp.idPub = [] from hkeys)]
    simp only [State.put, hdraw]
  · rw [if_neg hkeys, if_neg (show (s.put (raise s.dev p n)).otp.idPub ≠ [] from hkeys)]
    rfl

theorem raise_aon (d : Dev) (p n : Nat) : (raise d p n).aon = d.aon := by
  obtain ⟨-, -, -, haon, -⟩ := base_fields (base_raise d p n)
  exact haon

/-- Settles O54: the entry begins and completes, the exit leaves the part awake without keys, and a damaged restore restarts it. -/
theorem vigilEntersAndEnds : Obligations.VigilEntersAndEnds := by
  unfold Obligations.VigilEntersAndEnds
  refine ⟨fun s hp hst hrole hready => ?_, fun s hready => next_self (if_neg (by simp [hready])) rfl, fun s hp hst hidle => ?_,
    fun s hst => next_self (if_pos (.inl hst)) rfl, fun s v st hp hst hheld => ?_, fun s v st hp hst => ?_⟩
  · exact ⟨_, next_put hp (if_pos ⟨hst, hrole, hready⟩) rfl, put_otp s _, put_pending s _, vigilBegin_fields s.dev⟩
  · obtain ⟨hstate, hbit, hsaved, hchans, hentries⟩ := inVigil_fields s.dev
    exact ⟨_, next_put hp (vigilEntered_idle hst hidle) rfl, put_otp s _, put_pending s _, fun a ha => inVigil_get s.dev ha, hstate, hbit,
      hsaved, hchans, hentries, fun k hv hi => inVigil_getW hv hi⟩
  · obtain ⟨hmem, hstate, hcause, hbit, hkeys⟩ := vigilAwake_fields s.dev v
    exact ⟨_, next_all hp (vigilExit_sound hst hheld) rfl, put_otp s _, put_pending s _, hmem, hstate, hcause, hbit, hkeys⟩
  · obtain ⟨hotp, hpend, hstraps, -⟩ := restart_fields (s.put (raise s.dev 3 0)) st 3
    obtain ⟨htime, hset, -, hcause, -⟩ := restart_keepsTime (s.put (raise s.dev 3 0)) st 3
    have haon := raise_aon s.dev 3 0
    exact ⟨_, next_all hp (vigilExit_damaged hst) rfl, hotp.trans (firstPower_raise_otp s 3 0), hpend, hstraps,
      htime.trans (congrArg Aon.time haon), hset.trans (congrArg Aon.set haon), hcause⟩

end Sys2Proof.Machine
end

section
/-! Packages: load, verification, DISARM and ERASE (R289 to R293). -/

namespace Sys2Proof.Machine

open Sys2Proof

/-! ### Writes of CFG_CMD and CFG_LOAD -/

theorem populated_cfg (v : Variant) : populated v 0x60 = true := by cases v <;> decide

theorem cfg_write {s : State} {w : Who} {off v : Nat} (hoff : off = 0x044 ∨ off = 0x048) (ha : Admits s w 1 (regAddr 0x60 off) [v]) :
    regWrite s w (regAddr 0x60 off) v = .next (s.put (cfgWrite s.dev w off v)) := by
  rcases hoff with rfl | rfl
  · exact regWrite_admitted ha (populated_cfg _) (by decide) (by decide) (by simp)
  · exact regWrite_admitted ha (populated_cfg _) (by decide) (by decide) (by simp)

theorem exec_cfgLoadFirst {s : State} {n len q : Nat} (hlen : len < 2 ^ 17) (hq : q < 2 ^ 14)
    (ha : Admits s (.session n) 1 (regAddr 0x60 0x048) [2 ^ 31 + q * 2 ^ 17 + len]) :
    exec (.cfgLoadFirst (.session n) len q) s = .next (s.put (loadFirst s.dev n len)) := by
  have hword : 2 ^ 31 + q % 2 ^ 14 * 2 ^ 17 + len % 2 ^ 17 = 2 ^ 31 + q * 2 ^ 17 + len := by
    rw [Nat.mod_eq_of_lt hlen, Nat.mod_eq_of_lt hq]
  have hfirst : bitOf (2 ^ 31 + q * 2 ^ 17 + len) 31 = true := by
    rw [bitOf, beq_iff_eq]
    omega
  have hlow : bitsOf (2 ^ 31 + q * 2 ^ 17 + len) 16 0 = len := by
    rw [bitsOf]
    omega
  have he : exec (.cfgLoadFirst (.session n) len q) s = regWrite s (.session n) (regAddr 0x60 0x048) (2 ^ 31 + q * 2 ^ 17 + len) :=
    congrArg (regWrite s (.session n) (regAddr 0x60 0x048)) hword
  rw [he, cfg_write (.inr rfl) ha, cfgWrite, if_neg (by decide), if_pos rfl]
  simp only [hfirst, hlow, if_true]

theorem exec_cfgLoad {s : State} {n len : Nat} (hlen : len < 2 ^ 17) (ha : Admits s (.session n) 1 (regAddr 0x60 0x048) [len]) :
    exec (.cfgLoad (.session n) len) s = .next (s.put (loadNext s.dev n len)) := by
  have hnext : bitOf len 31 = false := by
    rw [bitOf, Nat.div_eq_of_lt (by omega)]
    rfl
  have he : exec (.cfgLoad (.session n) len) s = regWrite s (.session n) (regAddr 0x60 0x048) len :=
    congrArg (regWrite s (.session n) (regAddr 0x60 0x048)) (Nat.mod_eq_of_lt hlen)
  rw [he, cfg_write (.inr rfl) ha, cfgWrite, if_neg (by decide), if_pos rfl]
  simp only [hnext, bitsOf_of_lt hlen, Bool.false_eq_true, if_false]

theorem exec_cfgCmd {s : State} {w : Who} {cmd : Nat} (hcmd : cmd < 4) (ha : Admits s w 1 (regAddr 0x60 0x044) [cmd]) :
    regWrite s w (regAddr 0x60 0x044) cmd = .next (s.put (cfgCommand s.dev cmd)) := by
  have hw : cfgWrite s.dev w 0x044 cmd = cfgCommand s.dev (bitsOf cmd 1 0) := rfl
  rw [cfg_write (.inl rfl) ha, hw, bitsOf_of_lt hcmd]

/-! ### The load (R289, R290) -/

theorem stagedSt_set (d : Dev) {v : Nat} (hv : v < 16) : stagedSt (d.set CFG_STAT_STAGED v) = v :=
  (get_set_same _ _ _ rfl).trans (Nat.mod_eq_of_lt hv)

theorem loaded_ne_stat : CFG_LOADED ≠ CFG_STAT := by decide

theorem lenOk_iff (len : Nat) : lenOk len = true ↔ len % 4 = 0 ∧ 4 ≤ len ∧ len ≤ 65536 := by
  simp [lenOk, and_assoc]

theorem loadFirst_refused {d : Dev} {n len : Nat} (h : len % 4 ≠ 0 ∨ len < 128 ∨ 65536 < len) (h3 : stagedSt d ≠ 3) (h5 : stagedSt d ≠ 5) :
    loadFirst d n len = d.set CFG_STAT_LASTERR 17 := by
  refine (if_neg (by simp [stVerifying, stArmed, h3, h5])).trans (if_pos ?_)
  by_cases hok : lenOk len = true
  · have := (lenOk_iff len).mp hok
    omega
  · exact .inl (by simpa using hok)

theorem loadNext_refused {d : Dev} {n len : Nat} (h : len % 4 ≠ 0 ∨ len < 4 ∨ 65536 < len) (hs : d.cfg.lsess = some n)
    (hst : stagedSt d = 1) : loadNext d n len = d.set CFG_STAT_LASTERR 17 := by
  have hbad : lenOk len = false := by
    rw [Bool.eq_false_iff]
    intro hok
    have := (lenOk_iff len).mp hok
    omega
  exact (if_neg (by simp [hs])).trans ((if_neg (by simp [hst, stLoading])).trans (if_pos hbad))

/-- The part that a first chunk leaves. -/
def loadBegun (d : Dev) (n len : Nat) : Dev :=
  ((freeStaged d).modCfg (fun c => { c with chunks := [windowBytes d len], lsess := some n, permit := none })).set CFG_STAT_STAGED stLoading

theorem loadFirst_begins {d : Dev} {n len : Nat} (h4 : len % 4 = 0) (hlo : 128 ≤ len) (hhi : len ≤ 65536) (h3 : stagedSt d ≠ 3)
    (h5 : stagedSt d ≠ 5) : loadFirst d n len = loadBegun d n len :=
  (if_neg (by simp [stVerifying, stArmed, h3, h5])).trans (if_neg (by simp [(lenOk_iff len).mpr ⟨h4, by omega, hhi⟩, hlo]))

theorem loadBegun_fields (d : Dev) (n len : Nat) : (loadBegun d n len).mem = d.mem ∧ stagedSt (loadBegun d n len) = 1
    ∧ (loadBegun d n len).get CFG_LOADED_BYTES = 0
    ∧ (loadBegun d n len).cfg = { (freeStaged d).cfg with chunks := [windowBytes d len], lsess := some n, permit := none }
    ∧ (loadBegun d n len).flash = { d.flash with staged := none, areas := putAt d.flash.areas 2 none } := by
  refine ⟨?_, stagedSt_set _ (by decide), ?_, ?_, ?_⟩
  · rw [loadBegun, set_mem, modCfg_mem, freeStaged, set_mem, modCfg_mem, modFlash_mem]
  · rw [loadBegun, get_of_getW (getW_set_ne _ _ _ loaded_ne_stat), get_modCfg, freeStaged, get_set_same _ _ _ rfl]
    rfl
  · rw [loadBegun, set_cfg]
    rfl
  · rw [loadBegun, set_flash, modCfg_flash, freeStaged, set_flash, modCfg_flash]
    rfl

/-! ### A chunk in flash (R290) -/

/-- The part that the last chunk leaves: STAGED is LOADED. -/
def wholeLoaded (d : Dev) (l : List Byte) (rest : List (List Byte)) : Dev :=
  ((keepLoaded ((d.modCfg (fun x => { x with loading := l, chunks := rest })).set CFG_LOADED_BYTES l.length) l).set CFG_STAT_STAGED
    stLoaded).ist 0x60 0

section chunk
variable {d : Dev} {c : List Byte} {rest : List (List Byte)} (hc : d.cfg.chunks = c :: rest)
include hc

theorem chunkDone_more (h : totalOf (d.cfg.loading ++ c) ≤ 0x800000) (hlt : (d.cfg.loading ++ c).length < totalOf (d.cfg.loading ++ c)) :
    chunkDone d true = (d.modCfg (fun x => { x with loading := d.cfg.loading ++ c, chunks := rest })).set CFG_LOADED_BYTES
      (d.cfg.loading ++ c).length := by
  unfold chunkDone
  simp only [hc]
  rw [if_neg (by simp), if_neg (by omega), if_neg (by omega)]

theorem chunkDone_whole (h : totalOf (d.cfg.loading ++ c) ≤ 0x800000) (heq : (d.cfg.loading ++ c).length = totalOf (d.cfg.loading ++ c)) :
    chunkDone d true = wholeLoaded d (d.cfg.loading ++ c) rest := by
  unfold chunkDone
  simp only [hc]
  rw [if_neg (by simp), if_neg (by omega), if_pos heq]
  rfl

theorem chunkDone_long (h : 0x800000 < totalOf (d.cfg.loading ++ c) ∨ totalOf (d.cfg.loading ++ c) < (d.cfg.loading ++ c).length) :
    chunkDone d true = rejectStaged (keepLoaded d d.cfg.loading) 8 := by
  unfold chunkDone
  simp only [hc]
  rw [if_neg (by simp), if_pos h]

theorem chunkDone_failed : chunkDone d false = raise (rejectStaged (keepLoaded d d.cfg.loading) 10) 0x60 3 := by
  unfold chunkDone
  simp only [hc]
  exact if_pos trivial

end chunk

theorem chunkDone_none {d : Dev} (ok : Bool) (h : d.cfg.chunks = []) : chunkDone d ok = d := by
  unfold chunkDone
  simp only [h]

theorem wholeLoaded_fields (d : Dev) {l : List Byte} (rest : List (List Byte)) (hl : l.length ≤ 0x800000) :
    (wholeLoaded d l rest).mem = d.mem ∧ stagedSt (wholeLoaded d l rest) = 2 ∧ (wholeLoaded d l rest).get CFG_LOADED_BYTES = l.length
      ∧ (wholeLoaded d l rest).flash = { d.flash with staged := some (parsePackage d.part l) }
      ∧ (wholeLoaded d l rest).bit (PG_IST 0x60) 0 = true := by
  have hstat : CFG_STAT ≠ PG_IST 0x60 := by decide
  have hload : CFG_LOADED ≠ PG_IST 0x60 := by decide
  refine ⟨?_, ?_, ?_, ?_, bit_ist_on _ (by decide)⟩
  · rw [wholeLoaded, ist_mem, set_mem, keepLoaded, modCfg_mem, modFlash_mem, set_mem, modCfg_mem]
  · rw [wholeLoaded, stagedSt, get_of_getW (getW_ist_ne _ hstat)]
    exact stagedSt_set _ (by decide)
  · rw [wholeLoaded, get_of_getW (getW_ist_ne _ hload), get_of_getW (getW_set_ne _ _ _ loaded_ne_stat), keepLoaded, get_modCfg, get_modFlash,
      get_set_same _ _ _ rfl]
    exact Nat.mod_eq_of_lt (Nat.lt_of_le_of_lt hl (by decide))
  · rw [wholeLoaded, ist_flash, set_flash, keepLoaded, modCfg_flash]
    rfl

/-! ### Verification (R291) -/

/-- The part whose STAGED package has passed its checks. -/
def verified (d : Dev) (pkg : Package) : Dev :=
  (((expand d pkg (freeArea d)).modFlash (fun f => { f with areas := putAt f.areas 2 (some (freeArea d)) })).set CFG_STAT_STAGED
    stVerified).ist 0x60 1

section verify
variable {o : Otp} {d : Dev} {pkg : Package} (hst : stagedSt d = 3) (hpkg : d.flash.staged = some pkg)
include hst hpkg

theorem verifyDone_rejects (h : checkPackage o d true pkg ≠ 0) : verifyDone o d = rejectStaged d (checkPackage o d true pkg) := by
  unfold verifyDone
  rw [if_neg (by simp [hst, stVerifying])]
  simp only [hpkg]
  rw [if_pos h]

theorem verifyDone_passes (h : checkPackage o d true pkg = 0) : verifyDone o d = verified d pkg := by
  unfold verifyDone
  rw [if_neg (by simp [hst, stVerifying])]
  simp only [hpkg]
  rw [if_neg (by simp [h])]
  rfl

end verify

/-- An expansion writes memory alone. -/
theorem expand_same {β : Type} (g : Dev → β) (hg : ∀ (d : Dev) m, g { d with mem := m } = g d) (d : Dev) (pkg : Package) (a : Nat) :
    g (expand d pkg a) = g d := by
  unfold expand clearMem
  extract_lets cleared
  rw [forEach_same g _ (fun d (x : Nat × List Byte) => d.setMemB (areaBase a + x.1) x.2) fun _ _ => hg _ _]
  exact (forEach_same g _ _ (fun _ _ => hg _ _) _).trans (hg _ _)

theorem verified_fields (d : Dev) (pkg : Package) : stagedSt (verified d pkg) = 4 ∧ (verified d pkg).bit (PG_IST 0x60) 1 = true
    ∧ (verified d pkg).flash = { d.flash with areas := putAt d.flash.areas 2 (some (freeArea d)) }
    ∧ (∀ k, k ≠ CFG_STAT → k ≠ PG_IST 0x60 → (verified d pkg).getW k = d.getW k)
    ∧ (verified d pkg).chans = d.chans ∧ (verified d pkg).pages = d.pages := by
  have hstat : CFG_STAT ≠ PG_IST 0x60 := by decide
  have hkeep : ∀ {β : Type} (g : Dev → β), (∀ (d : Dev) m, g { d with mem := m } = g d) → g (expand d pkg (freeArea d)) = g d :=
    fun g hg => expand_same g hg d pkg (freeArea d)
  refine ⟨?_, bit_ist_on _ (by decide), ?_, fun k hk hi => ?_, ?_, ?_⟩
  · rw [verified, stagedSt, get_of_getW (getW_ist_ne _ hstat)]
    exact stagedSt_set _ (by decide)
  · have hflash := hkeep Dev.flash fun _ _ => rfl
    rw [verified, ist_flash, set_flash, Dev.modFlash, hflash]
  · rw [verified, getW_ist_ne _ hi, getW_set_ne _ _ _ hk, getW_modFlash]
    exact hkeep (Dev.getW · k) fun _ _ => rfl
  · rw [verified, ist_chans, set_chans, modFlash_chans]
    exact hkeep Dev.chans fun _ _ => rfl
  · rw [verified, ist_pages, set_pages, modFlash_pages]
    exact hkeep Dev.pages fun _ _ => rfl

/-- Settles O55: each write and each completion is one branch of its operation. -/
theorem packagesAreLoadedAndVerified : Obligations.PackagesAreLoadedAndVerified := by
  unfold Obligations.PackagesAreLoadedAndVerified
  refine ⟨?_, ?_, ?_, ?_, ?_, ?_, ?_, ?_, ?_, ?_, ?_⟩
  · intro s n len q h4 hlo hhi hq ha h3 h5
    obtain ⟨hmem, hstate, hbytes, hcfg, hflash⟩ := loadBegun_fields s.dev n len
    have hexec := (exec_cfgLoadFirst (by omega) hq ha).trans (congrArg (fun d => Host.Outcome.next (s.put d)) (loadFirst_begins h4 hlo hhi h3 h5))
    exact ⟨_, hexec, put_otp s _, put_pending s _, hmem, hstate, hbytes, congrArg CfgSt.loading hcfg, congrArg CfgSt.chunks hcfg,
      congrArg CfgSt.lsess hcfg, congrArg CfgSt.permit hcfg, congrArg Flash.staged hflash, (congrArg Flash.active hflash).trans rfl,
      (congrArg Flash.previous hflash).trans rfl⟩
  · intro s n len q hlen hq ha hst
    rw [exec_cfgLoadFirst hlen hq ha, loadFirst, if_pos (by simpa [stVerifying, stArmed] using hst), lastErr]
  · intro s n len q hlen hq ha h3 h5 hbad
    rw [exec_cfgLoadFirst hlen hq ha, loadFirst_refused hbad h3 h5]
  · intro s n len hlen ha
    refine ⟨fun hs => ?_, fun hs hst => ?_, fun hs hst hbad => ?_, fun hs hst h4 hlo hhi => ?_⟩
    · rw [exec_cfgLoad hlen ha, loadNext, if_pos hs, lastErr]
    · rw [exec_cfgLoad hlen ha, loadNext, if_neg (by simp [hs]), if_pos (show stagedSt s.dev ≠ stLoading from hst), lastErr]
    · rw [exec_cfgLoad hlen ha, loadNext_refused hbad hs hst]
    · rw [exec_cfgLoad hlen ha, loadNext, if_neg (by simp [hs]), if_neg (by simp [hst, stLoading]),
        if_neg (by simp [(lenOk_iff len).mpr ⟨h4, hlo, hhi⟩])]
  · intro s c rest hp hc l
    refine ⟨fun h hlt => next_put hp (chunkDone_more hc h hlt) rfl, fun h heq => ?_, next_put hp (chunkDone_failed hc) rfl,
      fun h => next_put hp (chunkDone_long hc h) rfl⟩
    exact ⟨_, next_put hp (chunkDone_whole hc h heq) rfl, put_otp s _, put_pending s _, wholeLoaded_fields s.dev rest (heq ▸ h)⟩
  · exact fun s ok h => next_self (chunkDone_none ok h) rfl
  · exact fun s w ha => exec_cfgCmd (by decide) ha
  · exact fun s pkg hp hst hpkg h => next_put hp (verifyDone_rejects hst hpkg h) rfl
  · intro s pkg hp hst hpkg h
    exact ⟨_, next_put hp (verifyDone_passes hst hpkg h) rfl, put_otp s _, put_pending s _, verified_fields s.dev pkg⟩
  · exact fun s w ha => exec_cfgCmd (by decide) ha
  · exact fun s w ha => exec_cfgCmd (by decide) ha

end Sys2Proof.Machine
end

section
/-! Package roles, probation and returns (R286, R294, R298 to R301). -/

namespace Sys2Proof.Machine

open Sys2Proof

/-! ### What a package that takes force leaves (R294, R295) -/

/-- The invariant is closed under what a package that takes force can change: what a fault can change, the shadows, the time domains,
the services, the gates, and the mark of the generation. -/
structure TakeStable (I : Dev → Prop) : Prop extends FaultStable I where
  shadows : ∀ d l, I d → I { d with shadows := l }
  tim : ∀ d v, I d → I { d with tim := v }
  svc : ∀ d v, I d → I { d with svc := v }
  gate : ∀ d v, I d → I { d with gate := v }
  genAt : ∀ d n, I d → I { d with cfg := { d.cfg with genAt := n } }

namespace TakeStable

variable {I : Dev → Prop} (h : TakeStable I) {d : Dev}
include h

theorem dropShadow (r : RegRow) (k : Nat) (hd : I d) : I (dropShadow d r k) := by
  unfold Machine.dropShadow
  split
  · exact hd
  · exact h.add _ _ (h.shadows _ _ hd)

theorem applyPair (boot : Bool) (a v : Nat) (hd : I d) : I (applyPair boot d a v) := by
  unfold Machine.applyPair
  extract_lets p off k old
  refine FaultStable.ite _ hd ?_
  split
  · exact hd
  · refine FaultStable.ite _ hd ?_
    extract_lets new d1 x d2
    have h1 : I d1 := h.setW _ _ (h.dropShadow _ _ hd)
    have h2 : I d2 := FaultStable.ite _ (h.tim _ _ h1) h1
    exact FaultStable.ite _ (h.softReset _ h2) h2

theorem applyDescSection (old : Option Package) (pkg : Package) (boot : Bool) (c : Nat) (hd : I d) :
    I (applyDescSection old pkg boot d c) := by
  unfold Machine.applyDescSection
  extract_lets e d1 d2 left work
  have h1 : I d1 := h.setW _ _ (h.set _ _ (h.set _ _ hd))
  have h2 : I d2 := h.setW _ _ (h.set _ _ (h.set _ _ h1))
  exact FaultStable.ite _ (FaultStable.forEach _ _ (fun _ _ he => h.desc _ _ _ _ (h.desc _ _ _ _ (h.desc _ _ _ _ (h.desc _ _ _ _ he)))) h2)
    (h.modChan _ _ h2)

theorem applyNodes (pkg : Package) (c : Nat) (hd : I d) : I (applyNodes pkg d c) := by
  unfold Machine.applyNodes
  extract_lets n was d1
  have h1 : I d1 := h.modChan _ _ hd
  refine FaultStable.forEach _ _ (fun e a he => ?_) h1
  extract_lets d2 d3
  have h2 : I d2 := h.set _ _ (h.set _ _ (h.setBit _ _ _ he))
  have h3 : I d3 := h.setBit _ _ _ (h.set _ _ h2)
  exact h.modChan _ _ h3

theorem tryCommit (e : Nat → Nat × Nat) (l : List (Nat × Word × Word)) (b : Bool) (hd : I d) : I (tryCommit d e l b) := by
  unfold Machine.tryCommit
  split
  · exact h.set _ _ (h.gate _ _ hd)
  · exact h.raise _ _ (h.ist _ _ (h.set _ _ (h.set _ _ (h.set _ _ hd))))

theorem stageTable (e : Nat → Nat × Nat) (hd : I d) : I (stageTable d e) :=
  FaultStable.forEach _ _ (fun _ _ he => h.setW _ _ (h.setW _ _ he)) hd

theorem applyGate (pkg : Package) (boot : Bool) (hd : I d) : I (applyGate pkg boot d) := by
  unfold Machine.applyGate
  split
  · exact h.stageTable _ hd
  · extract_lets e x d1 d2 d3
    have h1 : I d1 := FaultStable.ite _ (h.ist _ _ (h.set _ _ (h.set _ _ (h.set _ _ (h.set _ _ (h.gate _ _ hd)))))) hd
    have h2 : I d2 := FaultStable.ite _ (h.set _ _ (h.gate _ _ h1)) h1
    have h3 : I d3 := h.stageTable _ h2
    exact FaultStable.ite _ (FaultStable.ite _ (FaultStable.forEach _ _ (fun _ _ he => h.setW _ _ (h.setW _ _ he)) h3) h3)
      (h.tryCommit _ _ _ h3)

theorem takeForce (old : Option Package) (pkg : Package) (area : Option Nat) (boot : Bool) (hd : I d) :
    I (takeForce d old pkg area boot) := by
  unfold Machine.takeForce
  extract_lets d1 d2 d3 x d4
  have h1 : I d1 := FaultStable.forEach _ _ (fun _ _ he => h.applyPair _ _ _ he) hd
  have h2 : I d2 := by
    unfold d2
    split
    · exact FaultStable.forEach _ _ (fun _ _ he => h.setW _ _ he) h1
    · exact h1
  have h3 : I d3 := FaultStable.forEach _ _ (fun _ _ he => h.set _ _ (h.set _ _ (h.applyNodes _ _ (h.applyDescSection _ _ _ _ he)))) h2
  have h4 : I d4 := FaultStable.ite _ h3 (h.svc _ _ h3)
  exact h.applyGate _ _ (FaultStable.forEach _ _ (fun _ _ he => h.setBit _ _ _ he) h4)

/-- The new generation and its mark in the pages of the package (R297). -/
theorem generation (pkg : Package) (hd : I d) : I (genPages (raiseGen d) pkg) :=
  FaultStable.forEach _ _ (fun _ _ he => FaultStable.ite _ (h.setW _ _ he) he) (FaultStable.ite _ hd (h.genAt _ _ (h.set _ _ hd)))

theorem countCommit (hd : I d) : I (countCommit d) := h.ist _ _ (h.inc _ hd)

theorem recordReturn (cause : Nat) (hd : I d) : I (recordReturn d cause) := h.ist _ _ (h.inc _ (h.setW _ _ hd))

end TakeStable

/-- The packages' roles and the manual returns that wait. -/
def Dev.roles (d : Dev) : Flash × List Nat := (d.flash, d.cfg.manualAt)

theorem takeStable_roles (r : Flash × List Nat) : TakeStable (fun d => d.roles = r) where
  regs _ _ hd := hd
  pages _ _ hd := hd
  chans _ _ hd := hd
  hams _ _ hd := hd
  mills _ _ hd := hd
  sess _ _ hd := hd
  desc _ _ _ _ hd := hd
  seen _ _ hd := hd
  pulses _ _ _ hd := hd
  shadows _ _ hd := hd
  tim _ _ hd := hd
  svc _ _ hd := hd
  gate _ _ hd := hd
  genAt _ _ hd := hd

/-! ### The roles that a commit and the returns give (R286, R299, R301) -/

/-- The effects of a package in force with its generation and the count of the commit leave the roles. -/
theorem inForce_roles (d : Dev) (old : Option Package) (pkg : Package) (area : Option Nat) :
    (countCommit (genPages (raiseGen (takeForce d old pkg area false)) pkg)).roles = d.roles :=
  have hs := takeStable_roles d.roles
  hs.countCommit (hs.generation _ (hs.takeForce _ _ _ _ rfl))

theorem startProbation_flash (d : Dev) (n : Nat) : (startProbation d n).flash = d.flash := by
  unfold startProbation
  extract_lets noted
  split
  · rfl
  · rfl

theorem commitPackage_flash {d : Dev} {pkg : Package} (h : d.flash.staged = some pkg) : (commitPackage d).flash
    = (setRoles d (some pkg) d.flash.active none [slotOf d 2, slotOf d 0, slotOf d 1] [d.area 2, d.area 0, none]).flash := by
  unfold commitPackage
  simp only [h]
  generalize hroles : setRoles d (some pkg) d.flash.active none [slotOf d 2, slotOf d 0, slotOf d 1] [d.area 2, d.area 0, none] = e
  generalize hcleared : ((e.set CFG_STAT_STAGED stEmpty).set CFG_LOADED_BYTES 0).modCfg (fun c => { c with permit := none, lsess := none }) = b
  have hs := takeStable_roles b.roles
  have hforce : (genPages (raiseGen (takeForce b d.flash.active pkg (b.area 0) false)) pkg).flash = b.flash :=
    congrArg Prod.fst (hs.generation pkg (hs.takeForce d.flash.active pkg (b.area 0) false rfl))
  rw [condEnd, clearLive_same Dev.flash (fun _ _ => rfl) (fun _ _ => rfl) (countCommit _), countCommit, ist_flash, inc_flash, startProbation_flash, hforce,
    ← hcleared, modCfg_flash, set_flash, set_flash]

theorem returnOp_flash {d : Dev} {pkg : Package} (cause : Nat) (h : d.flash.previous = some pkg) :
    (returnOp d cause).flash = (returnRoles d (some pkg)).flash := by
  unfold returnOp
  simp only [h]
  generalize returnRoles d (some pkg) = e
  generalize hb : endProbation e = b
  have hs := takeStable_roles b.roles
  have hflash : b.flash = e.flash := by
    rw [← hb]
    rfl
  rw [← hflash]
  exact congrArg Prod.fst (hs.raise _ _ (hs.recordReturn _ (inForce_roles _ _ _ _)))

theorem returnOp_none {d : Dev} (cause : Nat) (h : d.flash.previous = none) :
    returnOp d cause = raise (recordReturn (endProbation d) cause) 0x60 2 := by
  unfold returnOp
  simp only [h]

theorem returnRoles_flash (d : Dev) (act : Option Package) : (returnRoles d act).flash.active = act
    ∧ (returnRoles d act).flash.previous = none ∧ (returnRoles d act).flash.recordDone = false
    ∧ (returnRoles d act).flash.staged = if stagedSt d = 4 then d.flash.staged else d.flash.active := by
  unfold returnRoles stVerified
  split
  · exact ⟨rfl, rfl, rfl, rfl⟩
  · exact ⟨rfl, rfl, rfl, rfl⟩

theorem exchangeOp_roles {d : Dev} {pkg : Package} (h : d.flash.previous = some pkg) : (exchangeOp d).roles
    = (setRoles d (some pkg) d.flash.active d.flash.staged [slotOf d 1, slotOf d 0, slotOf d 2] [d.area 1, d.area 0, d.area 2]).roles := by
  unfold exchangeOp
  simp only [h]
  generalize hroles : setRoles d (some pkg) d.flash.active d.flash.staged [slotOf d 1, slotOf d 0, slotOf d 2] [d.area 1, d.area 0, d.area 2] = e
  generalize hb : (if stagedSt e = stArmed then e.set CFG_STAT_STAGED stVerified else e) = b
  have hbase : b.roles = e.roles := by
    rw [← hb]
    split <;> rfl
  have hs := takeStable_roles b.roles
  exact (hs.recordReturn 5 (inForce_roles _ _ _ _)).trans hbase

/-! ### The role record (R286) -/

/-- The writing of the spare copy makes it the record. -/
theorem record_written {f : Flash} (hlen : f.recs.length = 2) (copy : RoleRec) (hvalid : copy.valid = true)
    (hseq : copy.seq = f.record.seq + 1) :
    ({ f with recs := putAt f.recs f.spareCopy copy } : Flash).record = copy ∧ f.record ∈ putAt f.recs f.spareCopy copy := by
  obtain ⟨a, b, hrecs⟩ := List.length_eq_two.mp hlen
  have hrec : f.record = if a.valid = true ∧ (b.valid = false ∨ b.seq ≤ a.seq) then a else b := by
    rw [Flash.record, hrecs]
    rfl
  have hspare : f.spareCopy = if f.record = a then 1 else 0 := by
    rw [Flash.spareCopy, hrecs]
    rfl
  rw [hspare, hrecs]
  by_cases ha : f.record = a
  · rw [if_pos ha]
    refine ⟨?_, by rw [ha]; exact List.mem_cons_self⟩
    have hlt : a.seq < copy.seq := by
      rw [hseq, ha]
      exact Nat.lt_succ_self _
    exact if_neg (fun hr => hr.2.elim (fun hv => by simp [elemAt, putAt, hvalid] at hv) (fun hle => absurd hlt (Nat.not_lt_of_le hle)))
  · have hb : f.record = b := by
      rw [hrec] at ha ⊢
      split at ha
      · exact absurd rfl ha
      · next hno => exact if_neg hno
    rw [if_neg ha]
    refine ⟨?_, by rw [hb]; exact List.mem_cons_of_mem _ List.mem_cons_self⟩
    refine if_pos ⟨hvalid, .inr ?_⟩
    show b.seq ≤ copy.seq
    rw [hseq, hb]
    exact Nat.le_succ _

/-! ### Probation (R298) -/

theorem endProbation_fields (d : Dev) : ((endProbation d).ist 0x60 5).mem = d.mem ∧ ((endProbation d).ist 0x60 5).get CFG_STAT_PROB = 0
    ∧ ((endProbation d).ist 0x60 5).get CFG_PROBLEFT_TICKS = 0 ∧ ((endProbation d).ist 0x60 5).bit (PG_IST 0x60) 5 = true
    ∧ ((endProbation d).ist 0x60 5).flash = d.flash ∧ stagedSt ((endProbation d).ist 0x60 5) = stagedSt d := by
  have hstat : CFG_STAT ≠ PG_IST 0x60 := by decide
  have hleft : CFG_PROBLEFT ≠ PG_IST 0x60 := by decide
  have hne : CFG_STAT ≠ CFG_PROBLEFT := by decide
  refine ⟨?_, ?_, ?_, bit_ist_on _ (by decide), ?_, ?_⟩
  · rw [ist_mem, endProbation, modCfg_mem, set_mem, set_mem]
  · rw [get_of_getW (getW_ist_ne _ hstat), endProbation, get_modCfg, get_of_getW (getW_set_ne _ _ _ hne), get_set_same _ _ _ rfl]
    rfl
  · rw [get_of_getW (getW_ist_ne _ hleft), endProbation, get_modCfg, get_set_same _ _ _ rfl]
    rfl
  · rw [ist_flash, endProbation, modCfg_flash, set_flash, set_flash]
  · rw [stagedSt, get_of_getW (getW_ist_ne _ hstat), endProbation, get_modCfg, get_of_getW (getW_set_ne _ _ _ hne)]
    exact get_set_apart _ _ _ _ rfl (by decide)

theorem has_of_get {d : Dev} {f : Fld} (h : d.get f = 1) : d.has f = true := by
  rw [Dev.has, h]
  rfl

/-- The part as a command that stands at the next commit point sees it. -/
def atTick (d : Dev) (n : Nat) : Dev := { d with bell := { d.bell with tick := n } }

theorem atNextTick_flash (d : Dev) (f : Dev → Dev) : (atNextTick d f).flash = (f (atTick d (d.tick + 1))).flash := rfl
theorem atNextTick_tick (d : Dev) (f : Dev → Dev) : (atNextTick d f).tick = d.tick := rfl
theorem atNextTick_congr {d : Dev} {f g : Dev → Dev} (h : f (atTick d (d.tick + 1)) = g (atTick d (d.tick + 1))) :
    atNextTick d f = atNextTick d g :=
  congrArg (fun e : Dev => { e with bell := { e.bell with tick := d.tick } }) h
theorem atNextTick_cfg (d : Dev) (f : Dev → Dev) : (atNextTick d f).cfg = (f (atTick d (d.tick + 1))).cfg := rfl

theorem manualReturnOp_exchanges {d : Dev} (h : d.get CFG_STAT_PROB = 0) :
    manualReturnOp d = exchangeOp (d.modCfg fun c => { c with manualAt := c.manualAt.filter (fun t => decide (d.tick < t)) }) := by
  unfold manualReturnOp
  exact if_neg (by rw [Dev.has, get_modCfg, h]; decide)

/-- Settles O56: the roles come from one change of the flash, which a package that takes force, and the faults after it, leave. -/
theorem packageRolesMoveAndReturn : Obligations.PackageRolesMoveAndReturn := by
  unfold Obligations.PackageRolesMoveAndReturn
  refine ⟨?_, ?_, ?_, ?_, ?_, ?_, ?_, ?_, ?_, ?_⟩
  · intro d pkg h
    rw [commitPackage_flash h]
    exact ⟨rfl, rfl, rfl, rfl⟩
  · intro s hp hlen r
    obtain ⟨hrec, hmem⟩ := record_written (f := s.dev.flash) hlen
      ⟨r.seq + 1, true, s.dev.flash.active, s.dev.flash.previous, s.dev.flash.slots, s.dev.has CFG_STAT_PROB⟩ rfl rfl
    exact ⟨_, next_put hp rfl rfl, put_otp s _, put_pending s _, rfl, rfl, rfl, hmem, hrec⟩
  · intro s hp hprob hfail hcause hrun hlate hwork hend
    have hdone : probationEnd s.dev = (endProbation s.dev).ist 0x60 5 :=
      if_pos ⟨has_of_get hprob, hfail, hcause, hlate, hwork, hrun, hend⟩
    exact ⟨_, next_put hp hdone rfl, put_otp s _, put_pending s _, endProbation_fields s.dev⟩
  · intro s h
    have hstays : probationEnd s.dev = s.dev := if_neg fun hc => by
      obtain ⟨-, -, hcause, -, -, hrun, -⟩ := hc
      exact h.elim (fun hr => by simp [hr] at hrun) fun hf => hf hcause
    exact next_self hstays rfl
  · intro s hp hprob hfail hstart hlive hwait
    have hrun : sessRunEnds s.dev = true := by
      simp only [sessRunEnds, hlive, Bool.not_false, Bool.and_true, Bool.and_eq_true, decide_eq_true_eq]
      exact ⟨Nat.lt_succ_of_le hstart, hwait⟩
    exact next_put hp (if_pos ⟨has_of_get hprob, hfail, hrun⟩) rfl
  · exact fun s h => next_self (if_neg fun hc => hc.1 h) rfl
  · intro s pkg hp hfail hat hprev
    obtain ⟨hact, hnone, hdone, hstaged⟩ := returnRoles_flash (atTick s.dev (s.dev.tick + 1)) (some pkg)
    have hflash : (atNextTick s.dev fun d => returnOp d d.cfg.failed).flash = (returnRoles (atTick s.dev (s.dev.tick + 1)) (some pkg)).flash :=
      returnOp_flash _ hprev
    have hreturn : returnNow s.dev = atNextTick s.dev fun d => returnOp d d.cfg.failed := if_pos ⟨hfail, hat⟩
    exact ⟨_, next_put hp hreturn rfl, put_otp s _, put_pending s _, atNextTick_tick _ _, (congrArg Flash.active hflash).trans hact,
      (congrArg Flash.previous hflash).trans hnone, (congrArg Flash.recordDone hflash).trans hdone, (congrArg Flash.staged hflash).trans hstaged⟩
  · intro s hp hfail hat hprev
    have hreturn : returnNow s.dev = atNextTick s.dev fun d => returnOp d d.cfg.failed := if_pos ⟨hfail, hat⟩
    have hlost : returnOp (atTick s.dev (s.dev.tick + 1)) s.dev.cfg.failed
        = raise (recordReturn (endProbation (atTick s.dev (s.dev.tick + 1))) s.dev.cfg.failed) 0x60 2 := returnOp_none _ hprev
    exact next_put hp (hreturn.trans (atNextTick_congr hlost)) rfl
  · intro s n pkg hp hn hdue hprob hprev
    have hreturn : manualReturnNow s.dev = atNextTick s.dev manualReturnOp :=
      if_pos (List.any_eq_true.mpr ⟨n, hn, decide_eq_true hdue⟩)
    have hroles := (congrArg Dev.roles (manualReturnOp_exchanges (d := atTick s.dev (s.dev.tick + 1)) hprob)).trans (exchangeOp_roles hprev)
    have hflash := congrArg Prod.fst hroles
    have hwait := congrArg Prod.snd hroles
    refine ⟨_, next_put hp hreturn rfl, put_otp s _, put_pending s _, atNextTick_tick _ _, congrArg Flash.active hflash,
      (congrArg Flash.previous hflash).trans rfl, (congrArg Flash.staged hflash).trans rfl, fun k => ?_⟩
    refine (iff_of_eq (congrArg (k ∈ ·) hwait)).trans ?_
    exact List.mem_filter.trans (and_congr_right fun _ => decide_eq_true_iff)
  · intro s h
    have hnone : manualReturnNow s.dev = s.dev := if_neg (by simpa using h)
    exact next_self hnone rfl

end Sys2Proof.Machine
end

section
/-! Sessions: PXM bodies, HELLO, ACCEPT, COMMISSION, ends and key rollover (R261, R267 to R273, R282). -/

namespace Sys2Proof.Machine

open Sys2Proof

/-! ### PXM fragments (R267) -/

/-- The part that has heard a fragment which is the first copy. -/
def pxmHeard (d : Dev) (f : PxmFrag) : Dev :=
  (noteCopy { d with lastMsg := d.aon.cycles } f.mac f.prp).inc (UPL_RXCNT_COUNT f.side.num)

theorem pxmHeard_getW {d : Dev} {f : PxmFrag} {k : Nat} (h : k ≠ UPL_RXCNT f.side.num) : (pxmHeard d f).getW k = d.getW k :=
  getW_inc_ne _ _ h

theorem map_elemAt_range (l : List Byte) : (List.range l.length).map (fun i => elemAt 0#8 l i) = l := by
  induction l with
  | nil => rfl
  | cons a l ih =>
    rw [List.length_cons, List.range_succ_eq_map, List.map_cons, List.map_map]
    exact congrArg (a :: ·) ih

theorem partByte_whole (l : List Byte) : (List.range l.length).map (partByte [(0, l)]) = l := by
  refine (List.map_congr_left fun i hi => ?_).trans (map_elemAt_range l)
  have hlt : i < l.length := List.mem_range.mp hi
  simp [partByte, hlt]

theorem addPart_first (off : Nat) (l : List Byte) : addPart [] off l = [(off, l)] := rfl

theorem reached_one (off : Nat) (l : List Byte) :
    reached [(off, l)] [(off, l)].length 0 = if off = 0 then l.length else 0 := by
  by_cases h : off = 0 <;> simp [reached, h]

section fragment
variable {o : Otp} {d : Dev} {f : PxmFrag} (hform : pxmForm f = true) (hcopy : firstCopy d f.mac f.prp = true)
  (hnew : ∀ r ∈ d.reasm, sameBody r f = false)
include hform hcopy hnew

theorem pxmFragment_whole (hoff : f.offset = 0) (htotal : f.total = f.data.length) (hbody : bodyOf o f.type f.xid f.data ≠ .other) :
    pxmFragment o d f = { pxmHeard d f with
      reasm := d.reasm, sec := { d.sec with bodies := d.sec.bodies ++ [bodyOf o f.type f.xid f.data] } } := by
  unfold pxmFragment
  rw [if_neg (by simp [hform]), if_neg (by simp [hcopy])]
  extract_lets noted counted old got rest kept
  have hnone : counted.reasm.find? (fun r => sameBody r f) = none := List.find?_eq_none.mpr fun r hr => by simp [hnew r hr]
  have hold : old = [] := by
    unfold old
    rw [hnone]
  have hgot : got = [(0, f.data)] := by
    unfold got
    rw [hold, hoff, addPart_first]
  have hrest : rest = d.reasm := List.filter_eq_self.mpr fun r hr => by simp [hnew r hr]
  have hkept : kept = { pxmHeard d f with reasm := d.reasm } := congrArg (fun r => { pxmHeard d f with reasm := r }) hrest
  have hreach : f.total ≤ reached got got.length 0 := by
    rw [hgot, reached_one, if_pos rfl, htotal]
  have hbytes : (List.range f.total).map (partByte got) = f.data := by
    rw [hgot, htotal, partByte_whole]
  rw [if_pos hreach, hbytes, hkept]
  split
  · next hother => exact absurd hother hbody
  · rfl

theorem pxmFragment_part (hshort : f.data.length < f.total) :
    pxmFragment o d f = { pxmHeard d f with
      reasm := d.reasm ++ [⟨f.side, f.mac, f.xid, f.type, f.total, [(f.offset, f.data)]⟩] } := by
  unfold pxmFragment
  rw [if_neg (by simp [hform]), if_neg (by simp [hcopy])]
  extract_lets noted counted old got rest kept
  have hnone : counted.reasm.find? (fun r => sameBody r f) = none := List.find?_eq_none.mpr fun r hr => by simp [hnew r hr]
  have hold : old = [] := by
    unfold old
    rw [hnone]
  have hgot : got = [(f.offset, f.data)] := by
    unfold got
    rw [hold, addPart_first]
  have hrest : rest = d.reasm := List.filter_eq_self.mpr fun r hr => by simp [hnew r hr]
  have hreach : ¬ f.total ≤ reached got got.length 0 := by
    rw [hgot, reached_one]
    split <;> omega
  rw [if_neg hreach, hgot, hrest]
  rfl

end fragment

/-! ### HELLO and ACCEPT (R268 to R270) -/

section hello
variable {d : Dev} {h : Hello} {rest : List PxmBody} (hw : secWorks d = true)
  (hb : takeFirst PxmBody.isHello d.sec.bodies = (some (.hello h), rest))
include hw hb

theorem helloOp_eq : helloOp d =
    if d.sess.all (fun x => x.st != .free) = true ∧ d.sess.all (fun x => x.host != h.pennant.host) = true then
      refuseHello (setBodies d rest) h 10
    else if 5 ≤ d.sec.hellos.length + d.sec.ops.length then refuseHello (setBodies d rest) h 11
    else if d.get SEC_RNG_OK = 0 then refuseHello (setBodies d rest) h 13
    else { setBodies d rest with sec := { (setBodies d rest).sec with hellos := d.sec.hellos ++ [h] } } := by
  unfold helloOp
  rw [if_neg (by simp [hw])]
  simp only [hb, secFull, decide_eq_true_eq]
  rfl

end hello

theorem sendOn_plain {β : Type} (g : Dev → β) (hg : ∀ (d : Dev) (r : List (Nat × Word)) (out : List Out), g { d with regs := r, out := out } = g d)
    (d : Dev) (x : Side) (n prp : Nat) {m : Out} (hm : m.sess = none) : g (d.sendOn x n prp m) = g d := by
  unfold Dev.sendOn
  rw [hm]
  cases d.upOk x.num with
  | false => rfl
  | true => exact hg d _ _

theorem sendFrames_plain {β : Type} (g : Dev → β) (hg : ∀ (d : Dev) (r : List (Nat × Word)) (out : List Out), g { d with regs := r, out := out } = g d)
    (hp : ∀ (d : Dev) (n : Nat), g { d with prp := n } = g d) (d : Dev) (n : Nat) {m : Out} (hm : m.sess = none) :
    g (d.sendFrames n m) = g d := by
  unfold Dev.sendFrames
  rw [sendOn_plain g hg _ _ _ _ hm, sendOn_plain g hg _ _ _ _ hm, hp]

theorem sendFrames_prp (d : Dev) (n : Nat) {m : Out} (hm : m.sess = none) : (d.sendFrames n m).prp = (d.prp + n) % 65536 := by
  unfold Dev.sendFrames
  rw [sendOn_plain Dev.prp (fun _ _ _ => rfl) _ _ _ _ hm, sendOn_plain Dev.prp (fun _ _ _ => rfl) _ _ _ _ hm]

theorem sendOn_keeps_out (d : Dev) (x : Side) (n prp : Nat) (m : Out) {a : Out} (ha : a ∈ d.out) : a ∈ (d.sendOn x n prp m).out := by
  unfold Dev.sendOn
  cases d.upOk x.num with
  | false => exact ha
  | true => cases m.sess <;> exact List.mem_append_left _ ha

/-- A message without a session goes out on uplink A when that is up. -/
theorem sendFrames_out (d : Dev) (n : Nat) {m : Out} (hm : m.sess = none) (hup : d.upOk 0 = true) :
    .uplink .a d.prp 0xA none m ∈ (d.sendFrames n m).out := by
  refine sendOn_keeps_out _ _ _ _ _ ?_
  have hopen : (({ d with prp := (d.prp + n) % 65536 } : Dev)).upOk Side.a.num = true := hup
  unfold Dev.sendOn
  rw [hopen, hm]
  exact List.mem_append_right _ List.mem_cons_self

theorem find?_range_eq_some {n k : Nat} {p : Nat → Bool} (hn : n < k) (hp : p n = true) (hlow : ∀ m, m < n → p m = false) :
    (List.range k).find? p = some n :=
  List.find?_range_eq_some.mpr ⟨hp, List.mem_range.mpr hn, fun m hm => by simp [hlow m hm]⟩

/-- The part whose queue of HELLOs is `l`. -/
def setHellos (d : Dev) (l : List Hello) : Dev := { d with sec := { d.sec with hellos := l } }

section accept
variable {o : Otp} {d : Dev} {h : Hello} {rest : List Hello} (hw : secWorks d = true) (hh : d.sec.hellos = h :: rest)
include hw hh

theorem acceptOp_refuses (hc : checkPennant o d h.pennant 1 h.hostHash h.hostSigOk ≠ 0) :
    acceptOp o d = refuseHello (setHellos d rest) h (checkPennant o d h.pennant 1 h.hostHash h.hostSigOk) := by
  unfold acceptOp
  rw [if_neg (by simp [hw])]
  split
  · next hnil => simp [hh] at hnil
  · next h' rest' hcons =>
    obtain ⟨rfl, rfl⟩ := List.cons.inj (hh.symm.trans hcons)
    exact if_pos hc

theorem acceptOp_accepts {n : Nat} (hc : checkPennant o d h.pennant 1 h.hostHash h.hostSigOk = 0) (hrng : d.get SEC_RNG_OK = 1) (hn : n < 8)
    (hfree : (d.ses n).st = .free) (hlow : ∀ m, m < n → (d.ses m).st ≠ .free)
    (hhost : ∀ m, m < 8 → (d.ses m).st ≠ .free → (d.ses m).host ≠ h.pennant.host) :
    acceptOp o d = acceptSession o (setHellos d rest) h n := by
  have hkeep : ((setHellos d rest).forEach (List.range 8) fun e s =>
      if (e.ses s).st ≠ .free ∧ (e.ses s).host = h.pennant.host then closeSession e s else e) = setHellos d rest :=
    forEach_unchanged fun m hm => if_neg fun hc => hhost m (List.mem_range.mp hm) hc.1 hc.2
  have hses : ∀ m, (setHellos d rest).ses m = d.ses m := fun _ => rfl
  have hfind : (List.range 8).find? (fun s => ((setHellos d rest).ses s).st == .free) = some n := by
    refine find?_range_eq_some hn ?_ fun m hm => ?_
    · simpa [hses] using hfree
    · simpa [hses] using hlow m hm
  unfold acceptOp
  rw [if_neg (by simp [hw])]
  split
  · next hnil => simp [hh] at hnil
  · next h' rest' hcons =>
    obtain ⟨rfl, rfl⟩ := List.cons.inj (hh.symm.trans hcons)
    extract_lets sec e p reason alone
    have halone : alone = setHellos d rest := hkeep
    have hrng' : ¬ e.get SEC_RNG_OK = 0 := fun h0 => by
      have h1 : d.get SEC_RNG_OK = 0 := h0
      omega
    rw [if_neg (show ¬ reason ≠ 0 from fun hne => hne hc), if_neg hrng', halone, hfind]

end accept

theorem acceptSession_fields {o : Otp} {d : Dev} {h : Hello} {n : Nat} (hn : n < d.sess.length) :
    let e := acceptSession o d h n
    e.mem = d.mem ∧ e.sec.hellos = d.sec.hellos ∧ (∀ m, m ≠ n → e.ses m = d.ses m)
      ∧ e.ses n = { Sess.reset with st := .accepted, scope := h.pennant.scope, host := h.pennant.host,
                                    auth := h.pennant.auth, seq := h.pennant.seq, notAfter := h.pennant.notAfter,
                                    prk := (agree h d.fresh).2.2.2, txAt := [d.aon.cycles, d.aon.cycles] }
      ∧ e.prp = (d.prp + 4) % 65536
      ∧ (d.upOk 0 = true → .uplink .a d.prp 0xA none (.pxmAccept n h.xid (acceptBody o h n d.fresh)) ∈ e.out) := by
  have hplain : (Out.pxmAccept n h.xid (acceptBody o h n d.draw.2)).sess = none := rfl
  unfold acceptSession
  extract_lets p r drawn
  refine ⟨?_, ?_, fun m hm => ?_, ?_, sendFrames_prp _ 4 hplain, fun hup => sendFrames_out (drawn.setSes n _) 4 hplain hup⟩
  · exact sendFrames_plain Dev.mem (fun _ _ _ => rfl) (fun _ _ => rfl) _ 4 hplain
  · exact sendFrames_plain (fun d => d.sec.hellos) (fun _ _ _ => rfl) (fun _ _ => rfl) _ 4 hplain
  · exact (sendFrames_plain (Dev.ses · m) (fun _ _ _ => rfl) (fun _ _ => rfl) _ 4 hplain).trans (ses_setSes_ne _ hm _)
  · exact (sendFrames_plain (Dev.ses · n) (fun _ _ _ => rfl) (fun _ _ => rfl) _ 4 hplain).trans (ses_setSes_same _ _ _ hn)

/-! ### COMMISSION (R261) -/

section commission
variable {s : State} {h : BitVec 384} {x : Nat} {rest : List PxmBody} (hw : secWorks s.dev = true)
  (hb : takeFirst PxmBody.isCommission s.dev.sec.bodies = (some (.commission h x), rest))
include hw hb

theorem commission_first (hblank : s.otp.slots.any (fun k => k.prog) = false) : commission s = { s with
    otp := { s.otp with slots := putAt s.otp.slots 0 { (s.otp.slot 0) with prog := true, hash := h } }, dev := setBodies s.dev rest } := by
  unfold commission
  simp only [hb]
  rw [if_neg (by simp [hw]), if_neg (by simp [hblank])]

theorem commission_again (hprog : s.otp.slots.any (fun k => k.prog) = true) :
    commission s = s.put (refuse (setBodies s.dev rest).next 3 0 ((setBodies s.dev rest).open' % 256) 8 0) := by
  unfold commission
  simp only [hb]
  rw [if_neg (by simp [hw]), if_pos hprog]
  rfl

end commission

theorem getW_postAll (d : Dev) (p : Sess → Bool) (e : EvRec) (k : Nat) : (d.postAll p e).getW k = d.getW k := rfl

/-- The registers of a refusal, before its record goes to the sessions. -/
def refused (d : Dev) (w : Nat) : Dev := (((d.setW PEN_REFLAST w).setW PEN_REFTICK d.tick).inc PEN_CNT_REFUSED).ist 0x28 3

theorem refuse_same {β : Type} (g : Dev → β) (hregs : ∀ (d : Dev) r, g { d with regs := r } = g d) (hsess : ∀ (d : Dev) l, g { d with sess := l } = g d)
    (d : Dev) (type auth reason n seq : Nat) : g (refuse d type auth reason n seq) = g d := by
  have hrefused : ∀ w, g (refused d w) = g d := fun w =>
    (hregs _ _).trans ((hregs _ _).trans ((hregs _ _).trans (hregs _ _)))
  exact (hsess _ _).trans (hrefused _)

theorem refuse_fields (d : Dev) (type auth reason n seq : Nat) : (refuse d type auth reason n seq).mem = d.mem
    ∧ (refuse d type auth reason n seq).sec = d.sec ∧ (refuse d type auth reason n seq).bit (PG_IST 0x28) 3 = true
    ∧ (refuse d type auth reason n seq).get PEN_CNT_REFUSED = min (d.get PEN_CNT_REFUSED + 1) (fldTop PEN_CNT_REFUSED) := by
  have hist : PEN_CNT ≠ PG_IST 0x28 := by decide
  have hlast : PEN_CNT ≠ PEN_REFTICK ∧ PEN_CNT ≠ PEN_REFLAST := by decide
  obtain ⟨w, hw⟩ : ∃ w, ∀ k, (refuse d type auth reason n seq).getW k = (refused d w).getW k := ⟨_, fun k => getW_postAll _ _ _ k⟩
  refine ⟨refuse_same Dev.mem (fun _ _ => rfl) (fun _ _ => rfl) d .., refuse_same Dev.sec (fun _ _ => rfl) (fun _ _ => rfl) d .., ?_, ?_⟩
  · rw [Dev.bit, hw]
    exact bit_ist_on _ (by decide)
  · rw [get_of_getW (hw _), refused, get_of_getW (getW_ist_ne _ hist), get_inc_same _ _ rfl, get_of_getW (getW_setW_ne _ hlast.1 _),
      get_of_getW (getW_setW_ne _ hlast.2 _)]

/-! ### Session ends (R273) -/

theorem vetoClearOp_mask (d : Dev) (b c n : Nat) (h : bitOf (d.get (CHC_VETO_MASK c)) n = false ∨ b = c) :
    bitOf ((vetoClearOp d b n).get (CHC_VETO_MASK c)) n = false := by
  by_cases hbc : b = c
  · subst hbc
    by_cases hn : n < 8
    · exact (veto_mask false hn n).trans (if_pos rfl)
    · have hlt : (vetoClearOp d b n).get (CHC_VETO_MASK b) < 2 ^ n :=
        Nat.lt_of_lt_of_le (get_lt _ (CHC_VETO_MASK b)) (Nat.pow_le_pow_right (by decide) (Nat.le_of_not_lt hn))
      rw [bitOf, Nat.div_eq_of_lt hlt]
      rfl
  · have hne : CHC_VETO c ≠ CHC_VETO b := by
      simp only [CHC_VETO, rkey]
      omega
    rw [vetoClearOp, get_of_getW (getW_set_ne _ _ _ hne)]
    exact h.resolve_right hbc

theorem vetoes_cleared (l : List Nat) {c : Nat} (d : Dev) (n : Nat) (h : bitOf (d.get (CHC_VETO_MASK c)) n = false ∨ c ∈ l) :
    bitOf ((d.forEach l fun d b => vetoClearOp d b n).get (CHC_VETO_MASK c)) n = false := by
  induction l generalizing d with
  | nil => exact h.resolve_right List.not_mem_nil
  | cons b l ih =>
    refine ih (vetoClearOp d b n) ?_
    rcases h with hoff | hmem
    · exact .inl (vetoClearOp_mask d b c n (.inl hoff))
    · exact (List.mem_cons.mp hmem).imp (fun hcb => vetoClearOp_mask d b c n (.inr hcb.symm)) id

/-- The session's number is free again, its offers to the host are gone, and its operations leave the queue. -/
def sessionFreed (d : Dev) (n : Nat) : Dev :=
  let d := (hostRetract d n).setSes n Sess.reset
  let d := d.forEach (d.sec.ops.filter (fun o => o.sess == n)) (fun d _ => d.set (PEN_OPSTAT_STATE n) 0)
  { d with sec := { d.sec with ops := d.sec.ops.filter (fun o => o.sess != n) } }

theorem sessionFreed_same {β : Type} (g : Dev → β) (hregs : ∀ (d : Dev) r, g { d with regs := r } = g d)
    (hintc : ∀ (d : Dev) i, g { d with intc := i } = g d) (hsess : ∀ (d : Dev) l, g { d with sess := l } = g d)
    (hsec : ∀ (d : Dev) x, g { d with sec := x } = g d) (d : Dev) (n : Nat) : g (sessionFreed d n) = g d := by
  unfold sessionFreed
  extract_lets freed stopped
  have hstop : g stopped = g freed := forEach_same g _ _ (fun d _ => hregs d _) _
  have hfreed : g freed = g d := (hsess _ _).trans ((hintc _ _).trans (hregs d _))
  exact (hsec stopped _).trans (hstop.trans hfreed)

theorem sessionFreed_ses (d : Dev) (n m : Nat) : (sessionFreed d n).ses m = ((hostRetract d n).setSes n Sess.reset).ses m :=
  forEach_same (Dev.ses · m) _ (fun d _ => d.set (PEN_OPSTAT_STATE n) 0) (fun _ _ => rfl) _

theorem sessionFreed_ops (d : Dev) (n : Nat) : (sessionFreed d n).sec.ops = d.sec.ops.filter (fun o => o.sess != n) := by
  unfold sessionFreed
  extract_lets freed stopped
  have hstop : stopped.sec = freed.sec := forEach_same Dev.sec _ (fun d _ => d.set (PEN_OPSTAT_STATE n) 0) (fun _ _ => rfl) _
  show stopped.sec.ops.filter _ = _
  rw [hstop]
  rfl

theorem sessionFreed_hostDel (d : Dev) (n : Nat) : (sessionFreed d n).intc.hostDel = d.intc.hostDel.filter (fun e => e.2 != n + 4) :=
  forEach_same (fun d => d.intc.hostDel) _ (fun d _ => d.set (PEN_OPSTAT_STATE n) 0) (fun _ _ => rfl) _

theorem closeSession_eq {d : Dev} {n : Nat} (h : (d.ses n).st ≠ .free) : closeSession d n =
    if (d.ses n).st = .opened then ((sessionFreed d n).forEach (sessionFreed d n).chanList fun d c => vetoClearOp d c n).ist 0x28 1
    else (sessionFreed d n).forEach (sessionFreed d n).chanList fun d c => vetoClearOp d c n := by
  unfold closeSession endSession
  rw [if_neg h]
  simp only [Bool.not_false, Bool.and_true, Bool.or_false, decide_eq_true_eq]
  rfl

/-- What the end of a session leaves beside its registers, the interrupts to its host, the sessions and the operations. -/
theorem closeSession_same {β : Type} (g : Dev → β) (hregs : ∀ (d : Dev) r, g { d with regs := r } = g d) {d : Dev} {n : Nat}
    (h : (d.ses n).st ≠ .free) : g (closeSession d n) = g (sessionFreed d n) := by
  have hveto : g ((sessionFreed d n).forEach (sessionFreed d n).chanList fun d c => vetoClearOp d c n) = g (sessionFreed d n) :=
    forEach_same g _ _ (fun d _ => hregs d _) _
  rw [closeSession_eq h]
  split
  · exact (hregs _ _).trans hveto
  · exact hveto

theorem closeSession_mask {d : Dev} {n c : Nat} (h : (d.ses n).st ≠ .free) (hc : d.hasChan c = true) :
    bitOf ((closeSession d n).get (CHC_VETO_MASK c)) n = false := by
  have hlist : (sessionFreed d n).chanList = d.chanList :=
    sessionFreed_same Dev.chanList (fun _ _ => rfl) (fun _ _ => rfl) (fun _ _ => rfl) (fun _ _ => rfl) d n
  have hmem : c ∈ (sessionFreed d n).chanList := by
    rw [hlist]
    exact mem_chanList.mpr hc
  have hclear := vetoes_cleared (sessionFreed d n).chanList (sessionFreed d n) n (.inr hmem)
  have hist : CHC_VETO c ≠ PG_IST 0x28 := by
    simp only [CHC_VETO, PG_IST, rkey]
    omega
  rw [closeSession_eq h]
  split
  · rw [get_of_getW (getW_ist_ne _ hist)]
    exact hclear
  · exact hclear

theorem closeSession_bit {d : Dev} {n : Nat} (h : (d.ses n).st = .opened) : (closeSession d n).bit (PG_IST 0x28) 1 = true := by
  rw [closeSession_eq (by simp [h]), if_pos h]
  exact bit_ist_on _ (by decide)

theorem closeSession_fields {d : Dev} {n : Nat} (hlen : n < d.sess.length) (h : (d.ses n).st ≠ .free) :
    let e := closeSession d n
    e.ses n = Sess.reset ∧ (∀ m, m ≠ n → e.ses m = d.ses m) ∧ (∀ o ∈ e.sec.ops, o.sess ≠ n ∧ o ∈ d.sec.ops)
      ∧ (∀ c, d.hasChan c = true → bitOf (e.get (CHC_VETO_MASK c)) n = false)
      ∧ (∀ x ∈ e.intc.hostDel, x.2 ≠ n + 4) ∧ e.chans = d.chans ∧ e.mem = d.mem
      ∧ ((d.ses n).st = .opened → e.bit (PG_IST 0x28) 1 = true) := by
  have hses : ∀ m, (closeSession d n).ses m = ((hostRetract d n).setSes n Sess.reset).ses m := fun m =>
    (closeSession_same (Dev.ses · m) (fun _ _ => rfl) h).trans (sessionFreed_ses d n m)
  have hops := (closeSession_same (fun e => e.sec.ops) (fun _ _ => rfl) h).trans (sessionFreed_ops d n)
  have hdel := (closeSession_same (fun e => e.intc.hostDel) (fun _ _ => rfl) h).trans (sessionFreed_hostDel d n)
  refine ⟨(hses n).trans (ses_setSes_same _ _ _ hlen), fun m hm => (hses m).trans (ses_setSes_ne _ hm _), fun o ho => ?_,
    fun c hc => closeSession_mask h hc, fun x hx => ?_, ?_, ?_, closeSession_bit⟩
  · obtain ⟨hmem, hne⟩ := List.mem_filter.mp (hops ▸ ho)
    exact ⟨by simpa using hne, hmem⟩
  · obtain ⟨-, hne⟩ := List.mem_filter.mp (hdel ▸ hx)
    simpa using hne
  · exact (closeSession_same Dev.chans (fun _ _ => rfl) h).trans
      (sessionFreed_same Dev.chans (fun _ _ => rfl) (fun _ _ => rfl) (fun _ _ => rfl) (fun _ _ => rfl) d n)
  · exact (closeSession_same Dev.mem (fun _ _ => rfl) h).trans
      (sessionFreed_same Dev.mem (fun _ _ => rfl) (fun _ _ => rfl) (fun _ _ => rfl) (fun _ _ => rfl) d n)

/-! ### PEN_CLOSE (R273) -/

theorem populated_pen (v : Variant) : populated v 0x28 = true := by cases v <;> decide

theorem exec_penClose {s : State} {m : Nat} {v : Word} (ha : Admits s (.session m) 1 (regAddr 0x28 0x080) [v.toNat])
    (hv : bitOf v.toNat 3 = true) : exec (.penClose (.session m) v) s = .next (s.put (closeSession s.dev (bitsOf v.toNat 2 0))) := by
  have he : exec (.penClose (.session m) v) s = regWrite s (.session m) (regAddr 0x28 0x080) v.toNat := rfl
  have hw : writeReg s.otp s.dev (.session m) 0x28 0x080 v.toNat = penCloseOp s.dev (.session m) v.toNat := rfl
  rw [he, regWrite_admitted ha (populated_pen _) (by decide) (by decide) (by simp), hw, penCloseOp, if_neg (by simp [hv])]

/-- A session that does not name PEN in its scope closes only itself. -/
theorem regReason_penClose {d : Dev} {m n v : Nat} (hr : d.get TWIN_STAT_ROLE ≠ 2) (hv : bitOf v 3 = true) (hn : bitsOf v 2 0 = n)
    (hne : n ≠ m) (hsc : scopePage (d.ses m).scope 0x28 = false) :
    regReason d (.session m) [(regAddr 0x28 0x080, v)] (regAddr 0x28 0x080) v = 7 := by
  have hpage : (regAddr 0x28 0x080 - 0x2000000) / 4096 = 0x28 ∧ regAddr 0x28 0x080 % 4096 = 0x080 := by decide
  have hrow : regHas 0x28 0x080 .rwp = false ∧ regHas 0x28 0x080 .rwl = false := by decide
  have hout : outOfScope d m 0x28 0x080 v [(regAddr 0x28 0x080, v)] = true := by
    simp [outOfScope, hv, hn, hne, Dev.namesPage, hsc]
  unfold regReason
  simp only [hpage, hrow, hout]
  simp [boundTo, hr]

/-- Settles O57: what each command finds decides its branch, and the end of a session is one operation for all its causes. -/
theorem sessionsOpenAndEnd : Obligations.SessionsOpenAndEnd := by
  unfold Obligations.SessionsOpenAndEnd
  refine ⟨?_, ?_, ?_, ?_, ?_, ?_, ?_, ?_, ?_, ?_, ?_, ?_, ?_, ?_, ?_⟩
  · intro s f hp
    refine ⟨fun hform => next_put hp (if_pos hform) rfl, fun hform hcopy => next_put hp ?_ rfl⟩
    exact (if_neg (by simp [hform])).trans (if_pos hcopy)
  · intro s f hp hform hcopy hnew hoff htotal hbody
    exact ⟨_, next_put hp (pxmFragment_whole hform hcopy hnew hoff htotal hbody) rfl, put_otp s _, put_pending s _, rfl, rfl, rfl,
      fun k hk => pxmHeard_getW hk⟩
  · intro s f hp hform hcopy hnew hshort
    exact ⟨_, next_put hp (pxmFragment_part hform hcopy hnew hshort) rfl, put_otp s _, put_pending s _, rfl, rfl, rfl⟩
  · exact fun s x mac xid hp h => next_put hp (if_pos h) rfl
  · intro s h rest hp hw hb d full busy
    have heq := helloOp_eq hw hb
    refine ⟨fun hfull => next_put hp (heq.trans (if_pos hfull)) rfl, fun hfull hbusy => next_put hp (heq.trans ?_) rfl,
      fun hfull hbusy hrng => next_put hp (heq.trans ?_) rfl, fun hfull hbusy hrng => next_put hp (heq.trans ?_) rfl⟩
    · exact (if_neg hfull).trans (if_pos hbusy)
    · exact (if_neg hfull).trans ((if_neg hbusy).trans (if_pos hrng))
    · exact (if_neg hfull).trans ((if_neg hbusy).trans (if_neg (by omega)))
  · intro s h rest hp hw hh hc
    exact next_put hp (acceptOp_refuses hw hh hc) rfl
  · intro s h rest n hp hw hh hc hrng hlen hn hfree hlow hhost
    have haccept := acceptOp_accepts hw hh hc hrng hn hfree hlow hhost
    exact ⟨_, next_put hp haccept rfl, put_otp s _, put_pending s _, acceptSession_fields (hlen ▸ hn)⟩
  · exact fun s h x rest hp hw hb hblank => next_all hp (commission_first hw hb hblank) rfl
  · intro s h x rest hp hw hb hprog
    obtain ⟨hmem, hsec, hbit, hcnt⟩ := refuse_fields (setBodies s.dev rest).next 3 0 ((setBodies s.dev rest).open' % 256) 8 0
    exact ⟨_, next_all hp (commission_again hw hb hprog) rfl, put_otp s _, put_pending s _, hmem, congrArg SecSt.bodies hsec, hbit, hcnt⟩
  · intro s n hp
    refine ⟨fun h => next_put hp (if_pos h) rfl, fun h => next_self (if_neg h) rfl, fun h hl => next_put hp (if_pos ⟨h, hl⟩) rfl,
      fun hl => next_self (if_neg (by simp [hl])) rfl, next_put hp rfl rfl, fun h hs hn => next_put hp (if_pos ⟨h, hs, hn⟩) rfl,
      fun hn => next_self (if_neg (by omega)) rfl⟩
  · exact fun s m v ha hv => exec_penClose ha hv
  · exact fun d n hlen h => closeSession_fields hlen h
  · exact fun d m n v hr hv hn hne hsc => regReason_penClose hr hv hn hne hsc
  · intro s n x hp h
    refine ⟨fun ht => next_put hp ?_ rfl, fun ht => next_self ?_ rfl, next_put hp ?_ rfl, next_put hp rfl rfl⟩
    · exact (if_neg h).trans ((if_neg (by simp)).trans (if_neg (by simp [ht])))
    · exact (if_neg h).trans ((if_neg (by simp)).trans (if_pos ht))
    · exact (if_neg h).trans (if_pos rfl)
  · exact fun s hp => ⟨next_put hp rfl rfl, next_put hp rfl rfl, next_put hp rfl rfl⟩

end Sys2Proof.Machine
end

section
/-! Operations: the queue, the checks and the rows of R276 (R264, R265, R274 to R280). -/

namespace Sys2Proof.Machine

open Sys2Proof

/-! ### PEN_OPGO (R274, R275) -/

theorem exec_penOpgo {s : State} {n len q : Nat} (hlen : len < 2 ^ 13) (hq : q < 2 ^ 19)
    (ha : Admits s (.session n) 1 (regAddr 0x28 0x088) [q * 2 ^ 13 + len]) :
    exec (.penOpgo (.session n) len q) s = .next (s.put (opQueue s.dev n (bufferPennant s.otp s.dev n len))) := by
  have hword : q % 2 ^ 19 * 2 ^ 13 + len % 2 ^ 13 = q * 2 ^ 13 + len := by
    rw [Nat.mod_eq_of_lt hlen, Nat.mod_eq_of_lt hq]
  have hlow : bitsOf (q * 2 ^ 13 + len) 12 0 = len := by
    rw [bitsOf]
    omega
  have he : exec (.penOpgo (.session n) len q) s = regWrite s (.session n) (regAddr 0x28 0x088) (q * 2 ^ 13 + len) :=
    congrArg (regWrite s (.session n) (regAddr 0x28 0x088)) hword
  have hw : writeReg s.otp s.dev (.session n) 0x28 0x088 (q * 2 ^ 13 + len)
      = opGo s.otp s.dev n (bitsOf (q * 2 ^ 13 + len) 12 0) := rfl
  rw [he, regWrite_admitted ha (populated_pen _) (by decide) (by decide) (by simp), hw, hlow, opGo]

/-- An opcode is a number of two bytes. -/
theorem bufferPennant_opcode_lt (o : Otp) (d : Dev) (n len : Nat) : (bufferPennant o d n len).opcode < 2 ^ 16 := by
  have hlt := natOf_lt (bytesAt (d.memB (0xFF0000 + 0x2000 * n) len) 92 2)
  have hlen : (bytesAt (d.memB (0xFF0000 + 0x2000 * n) len) 92 2).length ≤ 2 := by
    rw [bytesAt, List.length_take]
    exact Nat.min_le_left _ _
  exact Nat.lt_of_lt_of_le hlt (Nat.pow_le_pow_right (n := 256) (by decide) hlen)

/-- The part with an operation queued. -/
def opWaits (d : Dev) (n : Nat) (p : Pennant) : Dev :=
  let d := d.setW (PEN_OPSTAT n) (1 * 2 ^ 28 + p.opcode * 2 ^ 8)
  { d with sec := { d.sec with ops := d.sec.ops ++ [⟨n, p, (d.ses n).host⟩] } }

theorem opQueue_waits {d : Dev} {n : Nat} (p : Pennant) (h : opRuns d n = false) (hroom : d.sec.hellos.length + d.sec.ops.length < 5) :
    opQueue d n p = opWaits d n p := by
  unfold opQueue
  rw [if_neg (by simp [h])]
  extract_lets shown
  have hfull : secFull shown = false := decide_eq_false (show ¬ 5 ≤ d.sec.hellos.length + d.sec.ops.length by omega)
  rw [if_neg (by simp [hfull])]
  rfl

theorem opQueue_busy {d : Dev} {n : Nat} (p : Pennant) (h : opRuns d n = false) (hfull : 5 ≤ d.sec.hellos.length + d.sec.ops.length) :
    opQueue d n p = refuse (opState (d.setW (PEN_OPSTAT n) (2 ^ 28 + p.opcode * 2 ^ 8)) n 5 11) 2 p.auth 11 n (p.seq % 2 ^ 32) := by
  unfold opQueue
  rw [if_neg (by simp [h]), Nat.one_mul]
  extract_lets shown
  have hsec : secFull shown = true := decide_eq_true hfull
  rw [if_pos hsec, opState]

theorem opWaits_state {d : Dev} {n : Nat} {p : Pennant} (h : p.opcode < 2 ^ 16) : (opWaits d n p).get (PEN_OPSTAT_STATE n) = 1 := by
  have hword : (opWaits d n p).getW (PEN_OPSTAT n) = (1 * 2 ^ 28 + p.opcode * 2 ^ 8) % 2 ^ 32 := getW_setW_same d (PEN_OPSTAT n) _
  show bitsOf ((opWaits d n p).getW (PEN_OPSTAT n)) 31 28 = 1
  rw [hword, bitsOf]
  omega

/-! ### The checks (R264, R265) -/

theorem exec_opCommand {cc : Instr × Nat} (h : cc ∈ opCommands) :
    ∃ f, ∀ s : State, exec cc.1 s = .next (if s.dev.powered then runOpWith s cc.2 f else s) := by
  simp only [opCommands, List.mem_cons, List.not_mem_nil, or_false] at h
  rcases h with rfl | rfl | rfl | rfl | rfl | rfl | rfl | rfl | rfl | rfl | rfl | rfl | rfl <;> exact ⟨_, fun _ => rfl⟩

theorem runOpWith_other {s : State} {r : OpReq} {rest : List OpReq} {code : Nat} (f : OpReq → State → State × Bool)
    (hops : s.dev.sec.ops = r :: rest) (hcode : r.pennant.opcode ≠ code) (hlist : opListed r.pennant.opcode = true) :
    runOpWith s code f = s := by
  unfold runOpWith
  rw [hops]
  simp only
  rw [if_pos (.inr (.inr (by simp [hcode, hlist])))]

/-- The state with the operation out of the queue. -/
def opDequeued (s : State) (rest : List OpReq) : State := s.put { s.dev with sec := { s.dev.sec with ops := rest } }

section ready
variable {s : State} {r : OpReq} {rest : List OpReq} {code : Nat} (h : OpReady s r rest code) (f : OpReq → State → State × Bool)
include h

theorem opReady_runs : ¬ (secWorks s.dev = false ∨ (List.range 8).any (fun i => s.dev.get (PEN_OPSTAT_STATE i) == 3) = true
    ∨ ¬ (r.pennant.opcode = code ∨ opListed r.pennant.opcode = false)) := by
  obtain ⟨-, hw, -, hidle, hcode⟩ := h
  have hno : (List.range 8).any (fun i => s.dev.get (PEN_OPSTAT_STATE i) == 3) = false := by
    rw [List.any_eq_false]
    exact fun i hi => by simpa using hidle i (List.mem_range.mp hi)
  simp [hw, hno, hcode]

theorem runOpWith_refused (hc : checkPennant s.otp s.dev r.pennant 2 r.host true ≠ 0) : runOpWith s code f
    = s.put (opRefuse (opDequeued s rest).dev r (checkPennant s.otp s.dev r.pennant 2 r.host true)) := by
  have hrun := opReady_runs h
  obtain ⟨-, -, hops, -⟩ := h
  unfold runOpWith
  split
  · next hnil => simp [hops] at hnil
  · next r' rest' hcons =>
    obtain ⟨rfl, rfl⟩ := List.cons.inj (hops.symm.trans hcons)
    rw [if_neg hrun]
    exact if_pos hc

section passes
variable (hc : checkPennant s.otp s.dev r.pennant 2 r.host true = 0)
include hc

theorem runOpWith_passes : runOpWith s code f = match f r (opTaken s r rest) with
    | (t, false) => { t with dev := opRefuse t.dev r 15 }
    | (t, true) => { t with dev := (if code = 0x13 then opState t.dev r.sess 3 0 else opDone t.dev r.sess).inc PEN_CNT_OPS } := by
  have hrun := opReady_runs h
  obtain ⟨-, -, hops, -⟩ := h
  unfold runOpWith
  split
  · next hnil => simp [hops] at hnil
  · next r' rest' hcons =>
    obtain ⟨rfl, rfl⟩ := List.cons.inj (hops.symm.trans hcons)
    rw [if_neg hrun]
    exact (if_neg (fun hne => hne hc)).trans rfl

theorem runOpWith_done {t : State} (hf : f r (opTaken s r rest) = (t, true)) (hcode : code ≠ 0x13) :
    runOpWith s code f = t.put (opEnd t.dev r.sess) := by
  rw [runOpWith_passes h f hc, hf]
  simp only
  rw [if_neg hcode]
  rfl

theorem runOpWith_waits {t : State} (hf : f r (opTaken s r rest) = (t, true)) (hcode : code = 0x13) :
    runOpWith s code f = t.put ((opState t.dev r.sess 3 0).inc PEN_CNT_OPS) := by
  rw [runOpWith_passes h f hc, hf]
  simp only
  rw [if_pos hcode]
  rfl

theorem runOpWith_failed {t : State} (hf : f r (opTaken s r rest) = (t, false)) : runOpWith s code f = t.put (opRefuse t.dev r 15) := by
  rw [runOpWith_passes h f hc, hf]
  rfl

theorem runOp_done {g : OpReq → State → Option State} {t : State} (hg : g r (opTaken s r rest) = some t) (hcode : code ≠ 0x13) :
    runOp s code g = t.put (opEnd t.dev r.sess) := by
  refine runOpWith_done h _ hc ?_ hcode
  rw [hg]

theorem runOp_waits {g : OpReq → State → Option State} {t : State} (hg : g r (opTaken s r rest) = some t) (hcode : code = 0x13) :
    runOp s code g = t.put ((opState t.dev r.sess 3 0).inc PEN_CNT_OPS) := by
  refine runOpWith_waits h _ hc ?_ hcode
  rw [hg]

theorem runOp_failed {g : OpReq → State → Option State} (hg : g r (opTaken s r rest) = none) :
    runOp s code g = s.put (opRefuse (opTaken s r rest).dev r 15) := by
  have hf := runOpWith_failed h (fun r s => match g r s with | some t => (t, true) | none => (s, false)) hc (t := opTaken s r rest)
    (by rw [hg])
  exact hf

end passes

end ready

/-- What the end of an operation leaves, and the state that it shows. -/
theorem opEnd_getW {d : Dev} {n k : Nat} (hs : k ≠ PEN_OPSTAT n) (hi : k ≠ PG_IST 0x28) (hc : k ≠ PEN_CNT) :
    (opEnd d n).getW k = d.getW k := by
  rw [opEnd, getW_inc_ne _ _ hc, opDone, getW_ist_ne _ hi, opState, getW_set_ne _ _ _ hs, getW_set_ne _ _ _ hs]

theorem opstat_ne (n : Nat) : PEN_OPSTAT n ≠ PEN_CNT ∧ PEN_OPSTAT n ≠ PG_IST 0x28 := by
  simp only [PEN_OPSTAT, PEN_CNT, PG_IST, rkey]
  omega

theorem opEnd_state (d : Dev) (n : Nat) : (opEnd d n).get (PEN_OPSTAT_STATE n) = 4 := by
  obtain ⟨hcnt, hist⟩ := opstat_ne n
  rw [opEnd, get_of_getW (getW_inc_ne _ _ hcnt), opDone, get_of_getW (getW_ist_ne _ hist), opState,
    get_set_apart _ _ _ _ rfl (by simp [Fld.apart, PEN_OPSTAT_REASON, PEN_OPSTAT_STATE]), get_set_same _ _ _ rfl]
  rfl

theorem opEnd_same {β : Type} (g : Dev → β) (hregs : ∀ (d : Dev) r, g { d with regs := r } = g d) (d : Dev) (n : Nat) : g (opEnd d n) = g d :=
  (hregs _ _).trans ((hregs _ _).trans ((hregs _ _).trans (hregs _ _)))

/-! ### ENROLL (R257) -/

/-- The channel with the key in force owed to node `a`. -/
def keyOwed (a : Nat) (x : Chan) : Chan :=
  { x with keySent := delKey a (delKey (owesCur a) x.keySent) ++ (if x.cur.isSome then [(owesCur a, 0)] else []) }

/-- The part with a node's new key, which a KEY frame owes it. -/
def enrolled (d : Dev) (ch a : Nat) (key : BitVec 256) : Dev :=
  ((d.storeKey ch a (some key)).setBit (CHX_CONFIRM ch) a false).modChan ch (keyOwed a)

theorem enrollOp_ok {r : OpReq} {s : State} {ch a : Nat} {key : BitVec 256} (hop : r.pennant.operand = .enroll ch a key true)
    (hn : nodeOk s.dev ch a = true) : enrollOp r s = some (s.put (enrolled s.dev ch a key)) := by
  unfold enrollOp
  rw [hop]
  exact if_neg (by simp [hn])

section enrolled
variable (d : Dev) (ch a : Nat) (key : BitVec 256)

theorem enrolled_vault : (enrolled d ch a key).sec.vault = d.sec.vault.filter (fun e => !(e.1 == ch && e.2.1 == a)) ++ [(ch, a, key)] := rfl

theorem enrolled_enroll : (ch, a, rfc3394 d.sec.storage (keyBlocks key)) ∈ (enrolled d ch a key).flash.enroll :=
  List.mem_append_right _ List.mem_cons_self

theorem enrolled_vault_holds : (ch, a, key) ∈ (enrolled d ch a key).sec.vault ∧
    (∀ e ∈ (enrolled d ch a key).sec.vault, e.1 = ch → e.2.1 = a → e.2.2 = key) ∧
    (∀ e ∈ d.sec.vault, ¬ (e.1 = ch ∧ e.2.1 = a) → e ∈ (enrolled d ch a key).sec.vault) := by
  rw [enrolled_vault]
  refine ⟨List.mem_append_right _ List.mem_cons_self, fun e he hch ha => ?_, fun e he hne => ?_⟩
  · rcases List.mem_append.mp he with hold | hnew
    · obtain ⟨-, hother⟩ := List.mem_filter.mp hold
      simp [hch, ha] at hother
    · rw [List.mem_singleton.mp hnew]
  · exact List.mem_append_left _ (List.mem_filter.mpr ⟨he, by simpa [imp_iff_not_or] using hne⟩)

variable {d ch}

/-- A KEY frame with the key in force is owed to the node, whatever the registers hold. -/
theorem enrolled_keyToSend (hlen : ch < d.chans.length) (hkey : (slotKey d ch 0).isSome = true) (l : List (Nat × Word)) :
    keyToSend { enrolled d ch a key with regs := l } ch a = some 0 := by
  have hchan : ({ enrolled d ch a key with regs := l } : Dev).chan ch = keyOwed a (d.chan ch) :=
    chan_modChan_same ((d.storeKey ch a (some key)).setBit (CHX_CONFIRM ch) a false) ch (keyOwed a) hlen
  have hcur : (d.chan ch).cur.isSome = true := by
    obtain ⟨k, hk⟩ := Option.isSome_iff_exists.mp hkey
    obtain ⟨hsome, -⟩ := Option.filter_eq_some_iff.mp (show (d.chan ch).cur.filter (fun x => !x.retired) = some k from hk)
    rw [hsome]
    rfl
  unfold keyToSend
  rw [if_pos]
  refine ⟨?_, ?_⟩
  · rw [hchan, keyOwed, hcur]
    simp
  · rw [slotKey, hchan]
    exact hkey

theorem enrolled_confirm (ha : a < 32) : (enrolled d ch a key).bit (CHX_CONFIRM ch) a = false := by
  rw [enrolled, bit_modChan, bit_setBit _ _ _ _ _ ha, if_pos rfl]

end enrolled

/-! ### Sessions that an operation ends (R273, R278) -/

section ends
variable {d : Dev} {n : Nat} (keep : OpReq → Bool)

/-- The session's number is free again; the operations that `keep` names stay in the queue. -/
def sessionLeft (d : Dev) (n : Nat) (keep : OpReq → Bool) : Dev :=
  let d := (hostRetract d n).setSes n Sess.reset
  { d with sec := { d.sec with ops := d.sec.ops.filter (fun o => o.sess != n || keep o) } }

/-- But for registers, the end of a session is that. -/
theorem endSession_left {β : Type} (g : Dev → β) (hregs : ∀ (d : Dev) r, g { d with regs := r } = g d) (h : (d.ses n).st ≠ .free) :
    g (endSession d n keep) = g (sessionLeft d n keep) := by
  unfold endSession
  rw [if_neg h]
  extract_lets opened e1 e2 e3 sec e4 e5
  have hsec : e3.sec = e2.sec := forEach_same Dev.sec _ (fun d _ => d.set (PEN_OPSTAT_STATE n) 0) (fun _ _ => rfl) _
  have hleft : g e4 = g (sessionLeft d n keep) := by
    have hstop := forEach_same (fun x : Dev => g { x with sec := { e2.sec with ops := e2.sec.ops.filter (fun o => o.sess != n || keep o) } })
      (e2.sec.ops.filter fun o => o.sess == n && !keep o) (fun d _ => d.set (PEN_OPSTAT_STATE n) 0)
      (fun x _ => hregs { x with sec := { e2.sec with ops := e2.sec.ops.filter (fun o => o.sess != n || keep o) } } _) e2
    have h4 : e4 = { e3 with sec := { e2.sec with ops := e2.sec.ops.filter (fun o => o.sess != n || keep o) } } :=
      congrArg (fun x : SecSt => { e3 with sec := { x with ops := x.ops.filter (fun o => o.sess != n || keep o) } }) hsec
    rw [h4]
    exact hstop
  have hveto : g e5 = g e4 := forEach_same g _ (fun d c => vetoClearOp d c n) (fun _ _ => hregs _ _) _
  split
  · exact (hregs e5 _).trans (hveto.trans hleft)
  · exact hveto.trans hleft

theorem endSession_free (h : (d.ses n).st = .free) : endSession d n keep = d := if_pos h

theorem endSession_same {β : Type} (g : Dev → β) (hregs : ∀ (d : Dev) r, g { d with regs := r } = g d)
    (hintc : ∀ (d : Dev) i, g { d with intc := i } = g d) (hsess : ∀ (d : Dev) l, g { d with sess := l } = g d)
    (hsec : ∀ (d : Dev) x, g { d with sec := x } = g d) : g (endSession d n keep) = g d := by
  by_cases h : (d.ses n).st = .free
  · rw [endSession_free keep h]
  · exact (endSession_left keep g hregs h).trans ((hsec _ _).trans ((hsess _ _).trans ((hintc _ _).trans (hregs _ _))))

theorem endSession_ses_ne {m : Nat} (hm : m ≠ n) : (endSession d n keep).ses m = d.ses m := by
  by_cases h : (d.ses n).st = .free
  · rw [endSession_free keep h]
  · exact (endSession_left keep (Dev.ses · m) (fun _ _ => rfl) h).trans (ses_setSes_ne (hostRetract d n) hm _)

theorem endSession_frees : ((endSession d n keep).ses n).st = .free := by
  by_cases h : (d.ses n).st = .free
  · rwa [endSession_free keep h]
  · have hlen : n < (hostRetract d n).sess.length := Nat.lt_of_not_le fun hle => h (by rw [ses_of_length_le (d := d) hle]; rfl)
    rw [endSession_left keep (Dev.ses · n) (fun _ _ => rfl) h]
    exact congrArg Sess.st (ses_setSes_same (hostRetract d n) n Sess.reset hlen)

theorem endSession_keeps_op {o : OpReq} (hk : keep o = true) (ho : o ∈ d.sec.ops) : o ∈ (endSession d n keep).sec.ops := by
  by_cases h : (d.ses n).st = .free
  · rwa [endSession_free keep h]
  · rw [endSession_left keep (fun d => d.sec.ops) (fun _ _ => rfl) h]
    exact List.mem_filter.mpr ⟨ho, by simp [hk]⟩

/-- A sweep over the sessions that ends the ones that `bad` holds of. -/
theorem sessions_swept (bad : Sess → Prop) [DecidablePred bad] (l : List Nat) (d : Dev)
    (h : ((d.ses n).st = .free ∨ ¬ bad (d.ses n)) ∨ n ∈ l) :
    (((d.forEach l fun d i => if bad (d.ses i) then endSession d i keep else d).ses n).st = .free
      ∨ ¬ bad ((d.forEach l fun d i => if bad (d.ses i) then endSession d i keep else d).ses n)) := by
  induction l generalizing d with
  | nil => exact h.resolve_right List.not_mem_nil
  | cons i l ih =>
    refine ih (if bad (d.ses i) then endSession d i keep else d) ?_
    by_cases hi : n = i
    · subst hi
      by_cases hbad : bad (d.ses n)
      · rw [if_pos hbad]
        exact .inl (.inl (endSession_frees keep))
      · rw [if_neg hbad]
        exact .inl (.inr hbad)
    · have hkeep : (if bad (d.ses i) then endSession d i keep else d).ses n = d.ses n := by
        split
        · exact endSession_ses_ne keep hi
        · rfl
      rw [hkeep]
      exact h.imp id fun hmem => (List.mem_cons.mp hmem).resolve_left hi

theorem swept_same {β : Type} (g : Dev → β) (hregs : ∀ (d : Dev) r, g { d with regs := r } = g d)
    (hintc : ∀ (d : Dev) i, g { d with intc := i } = g d) (hsess : ∀ (d : Dev) l, g { d with sess := l } = g d)
    (hsec : ∀ (d : Dev) x, g { d with sec := x } = g d) (bad : Sess → Prop) [DecidablePred bad] (l : List Nat) (d : Dev) :
    g (d.forEach l fun d i => if bad (d.ses i) then endSession d i keep else d) = g d := by
  refine forEach_same g l (fun d i => if bad (d.ses i) then endSession d i keep else d) (fun d i => ?_) d
  split
  · exact endSession_same keep g hregs hintc hsess hsec
  · rfl

theorem swept_keeps_op (bad : Sess → Prop) [DecidablePred bad] (l : List Nat) (d : Dev) {o : OpReq} (hk : keep o = true) (ho : o ∈ d.sec.ops) :
    o ∈ (d.forEach l fun d i => if bad (d.ses i) then endSession d i keep else d).sec.ops := by
  refine forEach_keeps (fun d => o ∈ d.sec.ops) l _ (fun d i hd => ?_) d ho
  split
  · exact endSession_keeps_op keep hk hd
  · exact hd

end ends

/-! ### FLOOR and AUTHREV -/

/-- The sessions of slot `k` below its new floor `v` end. -/
def floored (d : Dev) (k v : Nat) : Dev :=
  ({ d with flash := { d.flash with floors := putAt d.flash.floors k v } }).forEach (List.range 8) fun d i =>
    if (d.ses i).auth = k ∧ (d.ses i).seq < v then endSession d i (fun _ => false) else d

theorem floorOp_raises {r : OpReq} {s : State} {v : Nat} (hop : r.pennant.operand = .floor v)
    (h : elemAt 0 s.dev.flash.floors r.pennant.auth < v) : floorOp r s = some (s.put (floored s.dev r.pennant.auth v)) := by
  unfold floorOp
  rw [hop]
  exact if_neg (Nat.not_le_of_lt h)

theorem floorOp_low {r : OpReq} {s : State} {v : Nat} (hop : r.pennant.operand = .floor v)
    (h : v ≤ elemAt 0 s.dev.flash.floors r.pennant.auth) : floorOp r s = none := by
  unfold floorOp
  rw [hop]
  exact if_pos h

theorem floored_fields (d : Dev) (k v : Nat) : (floored d k v).mem = d.mem ∧ (floored d k v).flash.floors = putAt d.flash.floors k v
    ∧ ∀ n, n < 8 → ((floored d k v).ses n).st ≠ .free → ((floored d k v).ses n).auth = k → v ≤ ((floored d k v).ses n).seq := by
  refine ⟨?_, ?_, fun n hn hst hauth => ?_⟩
  · unfold floored
    rw [swept_same (fun _ => false) Dev.mem (fun _ _ => rfl) (fun _ _ => rfl) (fun _ _ => rfl) (fun _ _ => rfl)
      (fun x => x.auth = k ∧ x.seq < v)]
  · unfold floored
    rw [swept_same (fun _ => false) Dev.flash (fun _ _ => rfl) (fun _ _ => rfl) (fun _ _ => rfl) (fun _ _ => rfl)
      (fun x => x.auth = k ∧ x.seq < v)]
  · unfold floored at hst hauth ⊢
    have hswept := sessions_swept (n := n) (fun _ => false) (fun x => x.auth = k ∧ x.seq < v) (List.range 8)
      { d with flash := { d.flash with floors := putAt d.flash.floors k v } } (.inr (List.mem_range.mpr hn))
    exact Nat.le_of_not_lt fun hlt => hswept.resolve_left hst ⟨hauth, hlt⟩

/-- The sessions of the revoked slot `k` end; the operations of the slot stay queued. -/
def slotSwept (d : Dev) (k : Nat) : Dev :=
  d.forEach (List.range 8) fun d i => if (d.ses i).auth = k then endSession d i (fun r => r.pennant.auth == k) else d

/-- The fuses with slot `k` revoked. -/
def slotRevoked (o : Otp) (k : Nat) : Otp := { o with slots := putAt o.slots k { (o.slot k) with revoked := true } }

theorem slotRevoked_same (o : Otp) {k : Nat} (h : k < o.slots.length) : (slotRevoked o k).usable k = false := by
  have hslot : (slotRevoked o k).slot k = { (o.slot k) with revoked := true } := elemAt_putAt_same _ _ _ _ h
  simp [Otp.usable, hslot]

theorem slotRevoked_ne (o : Otp) {j k : Nat} (h : j ≠ k) : (slotRevoked o k).slot j = o.slot j := elemAt_putAt_ne _ _ _ _ _ h

/-- The state with slot `k` revoked. -/
def slotGone (s : State) (k : Nat) : State := { s with otp := slotRevoked s.otp k, dev := slotSwept s.dev k }

theorem slotGone_dev (s : State) (k : Nat) : (slotGone s k).dev = slotSwept s.dev k := by rw [slotGone]

theorem slotGone_otp (s : State) (k : Nat) : (slotGone s k).otp = slotRevoked s.otp k := by rw [slotGone]

theorem slotGone_pending (s : State) (k : Nat) : (slotGone s k).pending = s.pending := by rw [slotGone]

theorem authrevOp_revokes {r : OpReq} {s : State} {k : Nat} (hop : r.pennant.operand = .slot k) (hk : k < 4)
    (hother : ∃ j, j < 4 ∧ j ≠ k ∧ s.otp.usable j = true) :
    authrevOp r s = some (slotGone s k) := by
  obtain ⟨j, hj, hne, huse⟩ := hother
  have hleft : (slotRevoked s.otp k).usable j = true := by
    rw [Otp.usable, slotRevoked_ne _ hne]
    exact huse
  have hany : (List.range 4).any (fun i => (slotRevoked s.otp k).usable i) = true :=
    List.any_eq_true.mpr ⟨j, List.mem_range.mpr hj, hleft⟩
  unfold authrevOp
  rw [hop]
  exact if_neg fun hbad => hbad.elim (Nat.not_le_of_lt hk) fun hnone => by
    change (List.range 4).any (fun i => (slotRevoked s.otp k).usable i) = false at hnone
    rw [hany] at hnone
    exact Bool.noConfusion hnone

theorem slotSwept_fields (d : Dev) (k : Nat) : (slotSwept d k).mem = d.mem
    ∧ (∀ n, n < 8 → ((slotSwept d k).ses n).st ≠ .free → ((slotSwept d k).ses n).auth ≠ k)
    ∧ ∀ o ∈ d.sec.ops, o.pennant.auth = k → o ∈ (slotSwept d k).sec.ops := by
  refine ⟨?_, fun n hn hst => ?_, fun o ho hauth => ?_⟩
  · unfold slotSwept
    rw [swept_same (fun r => r.pennant.auth == k) Dev.mem (fun _ _ => rfl) (fun _ _ => rfl) (fun _ _ => rfl) (fun _ _ => rfl) (fun x => x.auth = k)]
  · unfold slotSwept at hst ⊢
    exact (sessions_swept (n := n) (fun r => r.pennant.auth == k) (fun x => x.auth = k) (List.range 8) d
      (.inr (List.mem_range.mpr hn))).resolve_left hst
  · unfold slotSwept
    exact swept_keeps_op (fun r => r.pennant.auth == k) (fun x => x.auth = k) (List.range 8) d (by simpa using hauth) ho

/-! ### The rows -/

section rows
variable {s : State} {r : OpReq} {rest : List OpReq} {code : Nat} (h : OpReady s r rest code)
  (hc : checkPennant s.otp s.dev r.pennant 2 r.host true = 0)
include h hc

/-- A row whose operation passes and leaves the part `e`. -/
theorem row_done {i : Instr} {g : OpReq → State → Option State} {e : Dev} (hexec : exec i s = .next (if s.dev.powered then runOp s code g else s))
    (hg : g r (opTaken s r rest) = some (s.put e)) (hcode : code ≠ 0x13) : exec i s = .next (s.put (opEnd e r.sess)) :=
  next_all h.1 (runOp_done h hc hg hcode) hexec

/-- A row whose operand check fails. -/
theorem row_failed {i : Instr} {g : OpReq → State → Option State} (hexec : exec i s = .next (if s.dev.powered then runOp s code g else s))
    (hg : g r (opTaken s r rest) = none) : exec i s = .next (s.put (opRefuse (opTaken s r rest).dev r 15)) :=
  next_all h.1 (runOp_failed h hc hg) hexec

theorem rowWith_done {i : Instr} {f : OpReq → State → State × Bool} {e : Dev}
    (hexec : exec i s = .next (if s.dev.powered then runOpWith s code f else s)) (hf : f r (opTaken s r rest) = (s.put e, true))
    (hcode : code ≠ 0x13) : exec i s = .next (s.put (opEnd e r.sess)) :=
  next_all h.1 (runOpWith_done h f hc hf hcode) hexec

theorem rowWith_failed {i : Instr} {f : OpReq → State → State × Bool} {e : Dev}
    (hexec : exec i s = .next (if s.dev.powered then runOpWith s code f else s)) (hf : f r (opTaken s r rest) = (s.put e, false)) :
    exec i s = .next (s.put (opRefuse e r 15)) :=
  next_all h.1 (runOpWith_failed h f hc hf) hexec

end rows

theorem armOp_passes {r : OpReq} {s : State} {g : BitVec 384} {x : Nat} (hop : r.pennant.operand = .digestTick g x)
    (h0 : armReason s.dev g x = 0) : armOp r s = (s.put ((((s.dev.set CFG_STAT_STAGED 5).setW CFG_ARMTICKLO (x % 2 ^ 32)).setW CFG_ARMTICKHI
      (x / 2 ^ 32 % 2 ^ 16)).ist 0x60 3), true) := by
  unfold armOp
  rw [hop]
  exact if_neg fun hne => hne h0

theorem armOp_fails {r : OpReq} {s : State} {g : BitVec 384} {x : Nat} (hop : r.pennant.operand = .digestTick g x)
    (hne : armReason s.dev g x ≠ 0) : armOp r s = (s.put (s.dev.set CFG_STAT_LASTERR (armReason s.dev g x)), false) := by
  unfold armOp
  rw [hop]
  exact if_pos hne

theorem rollbackOp_returns {r : OpReq} {s : State} (hop : r.pennant.operand = .digest 0#384) (hprev : s.dev.flash.previous ≠ none) :
    rollbackOp r s = (s.put (s.dev.modCfg fun c => { c with manualAt := insertNat (s.dev.tick + 2) c.manualAt }), true) := by
  unfold rollbackOp
  rw [hop]
  exact (if_pos rfl).trans (if_neg (by simpa using hprev))

theorem rollbackOp_permits {r : OpReq} {s : State} {g : BitVec 384} (hop : r.pennant.operand = .digest g) (hg : g ≠ 0#384) :
    rollbackOp r s = (s.put (s.dev.modCfg fun c => { c with permit := some g }), true) := by
  unfold rollbackOp
  rw [hop]
  exact if_neg hg

theorem revokeOp_ok {r : OpReq} {s : State} {ch a : Nat} (hop : r.pennant.operand = .chNode ch a) (hn : nodeOk s.dev ch a = true) :
    revokeOp r s = some (s.put (epochAnew ((s.dev.storeKey ch a none).setBit (CHX_CONFIRM ch) a false) ch)) := by
  unfold revokeOp
  rw [hop]
  exact if_neg (by simp [hn])

theorem unfenceOp_ok {r : OpReq} {s : State} {ch a : Nat} (hop : r.pennant.operand = .chNode ch a) (hn : nodeOk s.dev ch a = true) :
    unfenceOp r s = some (s.put (s.dev.modChan ch fun x => { x with unfReq := insertNat a x.unfReq })) := by
  unfold unfenceOp
  rw [hop]
  exact if_neg (by simp [hn])

theorem releaseOp_ok {r : OpReq} {s : State} {p : Nat} (hop : r.pennant.operand = .page p) (hp : populated s.dev.part p = true) :
    releaseOp r s = some (s.put (releasePage s.dev p)) := by
  unfold releaseOp
  rw [hop]
  exact if_pos hp

theorem gateOp_ok {r : OpReq} {s : State} {g : BitVec 384} (hop : r.pennant.operand = .digest g) :
    gateOp r s = some (s.put (({ s.dev with gate := { s.dev.gate with permit := some g } }).set GATE_COMMIT_PERMIT 1)) := by
  unfold gateOp
  rw [hop]
  rfl

theorem authaddOp_ok {r : OpReq} {s : State} {k : Nat} {g : BitVec 384} (hop : r.pennant.operand = .slotHash k g) (hk : k < 4)
    (hblank : (s.otp.slot k).prog = false) : authaddOp r s = some { s with
      otp := { s.otp with slots := putAt s.otp.slots k { (s.otp.slot k) with prog := true, hash := g } } } := by
  unfold authaddOp
  rw [hop]
  exact if_neg (by simp [hk, hblank])

theorem opEnd_bit_confirm (d : Dev) {ch a n : Nat} (hn : n < 8) : (opEnd d n).bit (CHX_CONFIRM ch) a = d.bit (CHX_CONFIRM ch) a := by
  have hne : CHX_CONFIRM ch ≠ PEN_OPSTAT n ∧ CHX_CONFIRM ch ≠ PG_IST 0x28 ∧ CHX_CONFIRM ch ≠ PEN_CNT := by
    simp only [CHX_CONFIRM, PEN_OPSTAT, PG_IST, PEN_CNT, rkey]
    omega
  exact congrArg (bitOf · a) (opEnd_getW hne.1 hne.2.1 hne.2.2)

theorem put_dev (s : State) (d : Dev) : (s.put d).dev = d := rfl

/-- The end of an operation changes registers alone. -/
theorem opEnd_fields (d : Dev) (n : Nat) : (opEnd d n).mem = d.mem ∧ (opEnd d n).flash = d.flash ∧ (opEnd d n).sec = d.sec
    ∧ (∀ i, (opEnd d n).ses i = d.ses i) :=
  ⟨opEnd_same Dev.mem (fun _ _ => rfl) d n, opEnd_same Dev.flash (fun _ _ => rfl) d n, opEnd_same Dev.sec (fun _ _ => rfl) d n,
    fun i => opEnd_same (fun d => d.ses i) (fun _ _ => rfl) d n⟩

/-! ### The rows whose next state is given by what it holds -/

section bigRows
variable {s : State} {r : OpReq} {rest : List OpReq} (hc : checkPennant s.otp s.dev r.pennant 2 r.host true = 0)
include hc

theorem enroll_row {ch a : Nat} {key : BitVec 256} (h : OpReady s r rest 0x10) (hop : r.pennant.operand = .enroll ch a key true)
    (hn : nodeOk s.dev ch a = true) :
    exec .enroll s = .next (s.put (opEnd (enrolled (opTaken s r rest).dev ch a key) r.sess)) :=
  row_done h hc rfl (enrollOp_ok hop hn) (by decide)

theorem floor_row {v : Nat} (h : OpReady s r rest 0x50) (hop : r.pennant.operand = .floor v)
    (hv : elemAt 0 s.dev.flash.floors r.pennant.auth < v) :
    exec .floor s = .next (s.put (opEnd (floored (opTaken s r rest).dev r.pennant.auth v) r.sess)) :=
  row_done h hc rfl (floorOp_raises hop hv) (by decide)

theorem authrev_row {k : Nat} (h : OpReady s r rest 0x51) (hop : r.pennant.operand = .slot k) (hk : k < 4)
    (hother : ∃ j, j < 4 ∧ j ≠ k ∧ s.otp.usable j = true) :
    exec .authrev s = .next ((slotGone (opTaken s r rest) k).put (opEnd (slotGone (opTaken s r rest) k).dev r.sess)) :=
  next_all h.1 (runOp_done h hc (authrevOp_revokes (s := opTaken s r rest) hop hk hother) (by decide)) rfl

theorem enroll_holds {ch a : Nat} {key : BitVec 256} (hsess : r.sess < 8) (h : OpReady s r rest 0x10)
    (hop : r.pennant.operand = .enroll ch a key true) (hn : nodeOk s.dev ch a = true) :
    ∃ t, exec .enroll s = .next t ∧ t.otp = s.otp ∧ t.pending = s.pending ∧ t.dev.mem = s.dev.mem
      ∧ (ch, a, key) ∈ t.dev.sec.vault ∧ (∀ e ∈ t.dev.sec.vault, e.1 = ch → e.2.1 = a → e.2.2 = key)
      ∧ (∀ e ∈ s.dev.sec.vault, ¬ (e.1 = ch ∧ e.2.1 = a) → e ∈ t.dev.sec.vault)
      ∧ (ch, a, rfc3394 s.dev.sec.storage (keyBlocks key)) ∈ t.dev.flash.enroll
      ∧ (ch < s.dev.chans.length → (slotKey s.dev ch 0).isSome = true → keyToSend t.dev ch a = some 0)
      ∧ t.dev.bit (CHX_CONFIRM ch) a = false ∧ t.dev.get (PEN_OPSTAT_STATE r.sess) = 4 ∧ t.dev.sec.ops = rest := by
  have ha : a < 32 := by
    simp only [nodeOk, Bool.and_eq_true, decide_eq_true_eq] at hn
    exact Nat.lt_succ_of_le hn.2
  have hexec := enroll_row hc h hop hn
  obtain ⟨hin, hkey, hothers⟩ := enrolled_vault_holds (opTaken s r rest).dev ch a key
  have hflash := enrolled_enroll (opTaken s r rest).dev ch a key
  have hsend := fun (hlen : ch < s.dev.chans.length) (hslot : (slotKey s.dev ch 0).isSome = true) =>
    enrolled_keyToSend (d := (opTaken s r rest).dev) a key hlen hslot
  have hconf := enrolled_confirm (d := (opTaken s r rest).dev) (ch := ch) a key ha
  have hmem : (enrolled (opTaken s r rest).dev ch a key).mem = s.dev.mem := rfl
  have hops : (enrolled (opTaken s r rest).dev ch a key).sec.ops = rest := rfl
  generalize enrolled (opTaken s r rest).dev ch a key = e at *
  obtain ⟨emem, eflash, esec, -⟩ := opEnd_fields e r.sess
  have hown := fun hlen hslot => hsend hlen hslot (opEnd e r.sess).regs
  have hbit := (opEnd_bit_confirm (a := a) (ch := ch) e hsess).trans hconf
  refine ⟨_, hexec, put_otp s _, put_pending s _, ?_⟩
  rw [put_dev, emem, esec, eflash]
  exact ⟨hmem, hin, hkey, hothers, hflash, hown, hbit, opEnd_state e r.sess, hops⟩

theorem floor_holds {v : Nat} (h : OpReady s r rest 0x50) (hop : r.pennant.operand = .floor v)
    (hv : elemAt 0 s.dev.flash.floors r.pennant.auth < v) :
    ∃ t, exec .floor s = .next t ∧ t.otp = s.otp ∧ t.pending = s.pending ∧ t.dev.mem = s.dev.mem
      ∧ t.dev.flash.floors = putAt s.dev.flash.floors r.pennant.auth v
      ∧ (∀ n, n < 8 → (t.dev.ses n).st ≠ .free → (t.dev.ses n).auth = r.pennant.auth → v ≤ (t.dev.ses n).seq)
      ∧ t.dev.get (PEN_OPSTAT_STATE r.sess) = 4 := by
  obtain ⟨hmem, hfloors, hsess⟩ := floored_fields (opTaken s r rest).dev r.pennant.auth v
  have hexec := floor_row hc h hop hv
  generalize floored (opTaken s r rest).dev r.pennant.auth v = e at hmem hfloors hsess hexec
  obtain ⟨emem, eflash, -, eses⟩ := opEnd_fields e r.sess
  have hstate := opEnd_state e r.sess
  generalize opEnd e r.sess = f at hexec emem eflash eses hstate
  refine ⟨_, hexec, put_otp s f, put_pending s f, ?_⟩
  rw [put_dev, emem, eflash]
  simp only [eses]
  exact ⟨hmem, hfloors, hsess, hstate⟩

theorem authrev_holds {k : Nat} (h : OpReady s r rest 0x51) (hop : r.pennant.operand = .slot k) (hlen : k < s.otp.slots.length)
    (hk : k < 4) (hother : ∃ j, j < 4 ∧ j ≠ k ∧ s.otp.usable j = true) :
    ∃ t, exec .authrev s = .next t ∧ t.pending = s.pending ∧ t.dev.mem = s.dev.mem
      ∧ t.otp.usable k = false ∧ (∀ j, j ≠ k → t.otp.slot j = s.otp.slot j)
      ∧ (∀ n, n < 8 → (t.dev.ses n).st ≠ .free → (t.dev.ses n).auth ≠ k) ∧ t.dev.get (PEN_OPSTAT_STATE r.sess) = 4
      ∧ (∀ o ∈ rest, o.pennant.auth = k → o ∈ t.dev.sec.ops) := by
  obtain ⟨hmem, hsess, hops⟩ := slotSwept_fields (opTaken s r rest).dev k
  have hexec := authrev_row hc h hop hk hother
  have hotp := slotGone_otp (opTaken s r rest) k
  have hpend := slotGone_pending (opTaken s r rest) k
  rw [← slotGone_dev] at hmem hsess hops
  generalize slotGone (opTaken s r rest) k = e at hmem hsess hops hexec hotp hpend
  obtain ⟨emem, -, esec, eses⟩ := opEnd_fields e.dev r.sess
  have hstate := opEnd_state e.dev r.sess
  generalize opEnd e.dev r.sess = f at hexec emem esec eses hstate
  refine ⟨_, hexec, (put_pending e f).trans hpend, ?_⟩
  rw [put_dev, put_otp, hotp, emem, esec]
  simp only [eses]
  exact ⟨hmem, slotRevoked_same s.otp hlen, fun j hj => slotRevoked_ne s.otp hj, hsess, hstate, hops⟩

end bigRows

/-- Settles O58: the queue, the checks once for all rows, and each row's effect. -/
theorem operationsRunOnce : Obligations.OperationsRunOnce := by
  unfold Obligations.OperationsRunOnce
  refine ⟨?_, ?_, ?_, ?_, ?_⟩
  · intro s n len q hlen hq ha p
    have hexec := exec_penOpgo hlen hq ha
    refine ⟨fun hrun hroom => ?_, fun hrun => ?_, fun hrun hfull => ?_⟩
    · exact ⟨_, hexec.trans (congrArg (fun d => Host.Outcome.next (s.put d)) (opQueue_waits p hrun hroom)), put_otp s _, put_pending s _, rfl, rfl,
        opWaits_state (bufferPennant_opcode_lt _ _ _ _), fun k hk => getW_setW_ne _ hk _⟩
    · exact hexec.trans (congrArg (fun d => Host.Outcome.next (s.put d)) (if_pos hrun))
    · exact hexec.trans (congrArg (fun d => Host.Outcome.next (s.put d)) (opQueue_busy p hrun hfull))
  · intro cc hcc s r rest hops hcode hlist
    obtain ⟨f, hf⟩ := exec_opCommand hcc
    rw [hf, runOpWith_other f hops hcode hlist, ite_self]
  · intro cc hcc s r rest h hc
    obtain ⟨f, hf⟩ := exec_opCommand hcc
    exact next_all h.1 (runOpWith_refused h f hc) (hf s)
  · intro s r rest code h hc q d
    refine ⟨?_, ?_, ?_, ?_, ?_, ?_, ?_, ?_, ?_, ?_, ?_, ?_, ?_, ?_, ?_, ?_⟩
    · rintro g x rfl hop h0
      exact rowWith_done h hc rfl (armOp_passes hop h0) (by decide)
    · rintro g x rfl hop hne
      exact rowWith_failed h hc rfl (armOp_fails hop hne)
    · rintro rfl hop hprev
      exact rowWith_done h hc rfl (rollbackOp_returns hop hprev) (by decide)
    · rintro g rfl hop hg
      exact rowWith_done h hc rfl (rollbackOp_permits hop hg) (by decide)
    · rintro ch a key hsess rfl hop hn
      exact enroll_holds hc hsess h hop hn
    · rintro ch a rfl hop hn
      exact row_done h hc rfl (revokeOp_ok hop hn) (by decide)
    · rintro rfl
      exact row_done h hc rfl (g := rekeyOp) rfl (by decide)
    · rintro ch a rfl hop hn
      exact next_all h.1 (runOp_waits h hc (unfenceOp_ok hop hn) rfl) rfl
    · rintro p rfl hop hp
      exact row_done h hc rfl (releaseOp_ok hop hp) (by decide)
    · rintro g rfl hop
      exact row_done h hc rfl (gateOp_ok hop) (by decide)
    · rintro rfl
      exact row_done h hc rfl (g := debugOp) rfl (by decide)
    · rintro v rfl hop hv
      exact floor_holds hc h hop hv
    · rintro v rfl hop hv
      exact row_failed h hc rfl (floorOp_low hop hv)
    · rintro k rfl hop hlen hk hother
      exact authrev_holds hc h hop hlen hk hother
    · rintro k g rfl hop hk hblank
      exact next_all h.1 (runOp_done h hc (authaddOp_ok hop hk hblank) (by decide)) rfl
    · rintro rfl
      exact next_all h.1 (runOp_done h hc (g := certifyOp) rfl (by decide)) rfl
  · exact fun s hp hdebug => ⟨fun hend => next_put hp (if_pos ⟨hdebug, hend⟩) rfl,
      fun hlater => next_self (if_neg fun hc => absurd hc.2 (Nat.not_le_of_lt hlater)) rfl⟩

end Sys2Proof.Machine
end

section
/-! Headship: heartbeats, start, takeover, abdication (R445, R450 to R455). -/

namespace Sys2Proof.Machine

open Sys2Proof

/-! ### Frames on the twin link (R442, R445) -/

/-- The channels with nothing left to report. -/
def flightsSent (d : Dev) : Dev := { d with chans := d.chans.map (fun x => { x with inFlight := none }) }

theorem hbSend_head {d : Dev} (hl : linked d = true) (hh : d.isHead = true) : hbSend d =
    twinSend (flightsSent d) (.heartbeat true (twinReady d) (d.get DEV_SAFE_ACTIVE == 1) (d.get DEV_VIGSTAT_STATE == 2)
      (d.get DEV_VIGSTAT_STATE == 0 && d.has DEV_VIGSTAT_CAUSE) (d.tick % 2 ^ 24) (d.chans.filterMap (fun x => x.inFlight))) := by
  unfold hbSend
  rw [if_neg (by simp [hl]), hh]
  rfl

theorem hbSend_standby {d : Dev} (hl : linked d = true) (hh : d.isHead = false) : hbSend d =
    twinSend d (.heartbeat false (twinReady d) (d.get DEV_SAFE_ACTIVE == 1) false false (d.tick % 2 ^ 24) []) := by
  unfold hbSend
  rw [if_neg (by simp [hl]), hh]
  rfl

/-- A heartbeat as it is noted: nothing missed, the partner's READY, and its HEADSHIP line. -/
def hbNoted (d : Dev) (f : HbFrame) : Dev :=
  ((d.set TWIN_STAT_MISSED 0).setB TWIN_STAT_PREADY f.ready).modTwin (fun t => { t with lineLow := f.head })

/-- What the frame names as started or ended on each channel is noted too. -/
def hbHeard (d : Dev) (f : HbFrame) : Dev :=
  (hbNoted d f).forEach f.recs (fun d r => d.modChan r.ch (fun x => { x with peerFlight := some r }))

theorem hbTake_eq (o : Otp) (d : Dev) (f : HbFrame) : hbTake o d f = if f.head = false then hbHeard d f
    else if (hbHeard d f).get TWIN_STAT_ROLE = 0 then toJoining (hbHeard d f)
    else if (hbHeard d f).get TWIN_STAT_ROLE = 1 then split o (hbHeard d f) else hbHeard d f := rfl

theorem hbHeard_same {β : Type} (g : Dev → β) (hg : ∀ (d : Dev) cs, g { d with chans := cs } = g d) (d : Dev) (f : HbFrame) :
    g (hbHeard d f) = g (hbNoted d f) :=
  forEach_same g f.recs (fun d r => d.modChan r.ch (fun x => { x with peerFlight := some r })) (fun _ _ => hg _ _) _

theorem hbHeard_plain (d : Dev) {f : HbFrame} (h : f.recs = []) : hbHeard d f = hbNoted d f := by rw [hbHeard, h]; rfl

section noted
variable (d : Dev) (f : HbFrame)

theorem hbNoted_fields : (hbNoted d f).get TWIN_STAT_MISSED = 0 ∧ (hbNoted d f).get TWIN_STAT_PREADY = b2n f.ready
    ∧ (hbNoted d f).get TWIN_STAT_ROLE = d.get TWIN_STAT_ROLE
    ∧ OnlyRegs [TWIN_STAT] { d with twin := { d.twin with lineLow := f.head } } (hbNoted d f) := by
  refine ⟨?_, ?_, ?_, fun k hk => ?_, rfl⟩
  · rw [hbNoted, get_modTwin, setB_eq_set, get_set_apart _ _ _ _ rfl (by decide), get_set_same _ _ _ rfl]
    rfl
  · rw [hbNoted, get_modTwin, setB_get_same _ rfl rfl]
  · rw [hbNoted, get_modTwin, setB_eq_set, get_set_apart _ _ _ _ rfl (by decide), get_set_apart _ _ _ _ rfl (by decide)]
  · have hne : k ≠ TWIN_STAT := by simpa using hk
    rw [hbNoted, getW_modTwin, setB_eq_set, getW_set_ne _ _ _ hne, getW_set_ne _ _ _ hne]
    rfl

/-- A heartbeat that is heard writes TWIN_STAT and leaves the role. -/
theorem hbHeard_fields : (hbHeard d f).get TWIN_STAT_MISSED = 0 ∧ (hbHeard d f).get TWIN_STAT_PREADY = b2n f.ready
    ∧ (hbHeard d f).get TWIN_STAT_ROLE = d.get TWIN_STAT_ROLE ∧ (∀ k, k ≠ TWIN_STAT → (hbHeard d f).getW k = d.getW k)
    ∧ { hbHeard d f with regs := d.regs, chans := d.chans, twin := d.twin } = d
    ∧ (hbHeard d f).twin = { d.twin with lineLow := f.head } := by
  obtain ⟨hmissed, hready, hrole, hregs, -⟩ := hbNoted_fields d f
  refine ⟨?_, ?_, ?_, fun k hk => ?_, ?_, ?_⟩
  · exact (hbHeard_same (Dev.get · TWIN_STAT_MISSED) (fun _ _ => rfl) d f).trans hmissed
  · exact (hbHeard_same (Dev.get · TWIN_STAT_PREADY) (fun _ _ => rfl) d f).trans hready
  · exact (hbHeard_same (Dev.get · TWIN_STAT_ROLE) (fun _ _ => rfl) d f).trans hrole
  · exact (hbHeard_same (Dev.getW · k) (fun _ _ => rfl) d f).trans (hregs k (by simpa using hk))
  · exact hbHeard_same (fun e => { e with regs := d.regs, chans := d.chans, twin := d.twin }) (fun _ _ => rfl) d f
  · exact hbHeard_same Dev.twin (fun _ _ => rfl) d f

end noted

/-! ### HB_RECEIVED -/

section received
variable {s : State} {f : HbFrame} (hl : linked s.dev = true)
include hl

theorem hbReceived_bad (hf : f.badTag = true) : hbReceived s f = s.put (s.dev.inc TWIN_LNKCNT_BADTAG) := by
  unfold hbReceived
  rw [if_neg (by simp [hl]), if_pos hf]
  rfl

variable (hf : f.badTag = false)
include hf

/-- A part that is no standby, and a frame of no head, only take the frame. -/
theorem hbReceived_takes (h : s.dev.get TWIN_STAT_ROLE ≠ 2 ∨ f.head = false) : hbReceived s f = s.put (hbTake s.otp s.dev f) := by
  unfold hbReceived
  rw [if_neg (by simp [hl]), if_neg (by simp [hf])]
  exact if_pos (h.imp decide_eq_false id)

theorem hbReceived_standby (hrole : s.dev.get TWIN_STAT_ROLE = 2) (hh : f.head = true) (hrecs : f.recs = []) :
    hbReceived s f = if f.vigil = true then
        (if (hbNoted s.dev f).get DEV_VIGSTAT_STATE = 0 then s.put (vigilBegin (hbNoted s.dev f)) else s.put (hbNoted s.dev f))
      else if f.wake = true then vigilLeave (s.put (hbNoted s.dev f)) .twin
      else s.put (hbNoted s.dev f) := by
  obtain ⟨-, -, hstay, -⟩ := hbHeard_fields s.dev f
  have htake : hbTake s.otp s.dev f = hbNoted s.dev f := by
    rw [hbTake_eq, if_neg (by simp [hh]), if_neg (by omega), if_neg (by omega), hbHeard_plain _ hrecs]
  unfold hbReceived
  rw [if_neg (by simp [hl]), if_neg (by simp [hf]), htake]
  exact (if_neg (by simp [hrole, hh])).trans rfl

end received

theorem toJoining_fields (d : Dev) : (toJoining d).get TWIN_STAT_ROLE = 3 ∧ (∀ k, k ≠ TWIN_STAT → (toJoining d).getW k = d.getW k) := by
  refine ⟨?_, fun k hk => ?_⟩
  · rw [toJoining, get_modTwin, get_set_same _ _ _ rfl]
    rfl
  · rw [toJoining, getW_modTwin, getW_set_ne _ _ _ hk]

theorem toJoining_only (d : Dev) : OnlyRegs [TWIN_STAT] { d with twin := { d.twin with lineLow := true } } (toJoining d) :=
  ⟨fun k hk => (toJoining_fields d).2 k (by simpa using hk), rfl⟩

theorem twinStat_ne_offer (n : Nat) : TWIN_STAT ≠ INTC_OFFER n := by
  simp only [TWIN_STAT, INTC_OFFER, rkey]
  omega

theorem vigilBegin_role (d : Dev) : (vigilBegin d).get TWIN_STAT_ROLE = d.get TWIN_STAT_ROLE := by
  unfold vigilBegin vigilRetract
  rw [forEach_same (Dev.get · TWIN_STAT_ROLE) _ (fun d t => d.set (INTC_OFFER_VALID t) 0)
    (fun e t => get_of_getW (getW_set_ne e _ _ (twinStat_ne_offer t)))]
  exact get_of_getW (getW_set_ne _ _ _ (by decide))

theorem vigilAwake_role (d : Dev) : (vigilAwake d .twin).get TWIN_STAT_ROLE = d.get TWIN_STAT_ROLE := by
  have hawoken : (vigilAwake d .twin).get TWIN_STAT_ROLE
      = (((d.set DEV_VIGSTAT_STATE 0).set DEV_VIGSTAT_CAUSE (VigilCause.code .twin)).ist 3 1).get TWIN_STAT_ROLE :=
    awoken_same (Dev.get · TWIN_STAT_ROLE) (fun _ _ => rfl) (fun _ _ _ => rfl) d .twin
  rw [hawoken, get_of_getW (getW_ist_ne _ (by decide)), get_of_getW (getW_set_ne _ _ _ (by decide)),
    get_of_getW (getW_set_ne _ _ _ (by decide))]

/-- The part awake on the head's notice, with no message held. -/
def twinWoken (d : Dev) : Dev := { vigilAwake d .twin with vigHeld := [] }

theorem vigilLeave_idle {s : State} {d : Dev} (h : d.get DEV_VIGSTAT_STATE = 2) (hheld : d.vigHeld = []) :
    vigilLeave (s.put d) .twin = s.put (twinWoken d) := by
  unfold vigilLeave
  rw [put_dev, if_neg (by omega), if_pos h, hheld]
  rfl

theorem twinWoken_fields (d : Dev) : (twinWoken d).mem = d.mem ∧ (twinWoken d).get DEV_VIGSTAT_STATE = 0
    ∧ (twinWoken d).get DEV_VIGSTAT_CAUSE = 3 ∧ (twinWoken d).get TWIN_STAT_ROLE = d.get TWIN_STAT_ROLE := by
  obtain ⟨hmem, hawake, hcause, -⟩ := vigilAwake_fields d .twin
  have hrole := vigilAwake_role d
  unfold twinWoken
  generalize vigilAwake d .twin = e at *
  exact ⟨hmem, hawake, hcause, hrole⟩

/-! ### Takeover (R452, R454) -/

theorem putAt_elemAt {α : Type} (a : α) (l : List α) (i : Nat) : putAt l i (elemAt a l i) = l := by
  induction l generalizing i with
  | nil => rfl
  | cons b l ih =>
    cases i with
    | zero => rfl
    | succ i => exact congrArg (b :: ·) (ih i)

theorem modChan_unchanged {d : Dev} {c : Nat} {f : Chan → Chan} (h : f (d.chan c) = d.chan c) : d.modChan c f = d := by
  rw [Dev.modChan, h, Dev.setChan, Dev.chan, putAt_elemAt]

theorem resumeChan_idle {d : Dev} {c : Nat} (h : (d.chan c).peerFlight = none) : resumeChan d c = d := by
  have hmod : d.modChan c (fun x => { x with peerFlight := none }) = d := modChan_unchanged (by rw [← h])
  unfold resumeChan
  rw [h, hmod]

theorem putEntry_entry {d : Dev} {c i : Nat} {e x : TxEntry} (hc : c < d.chans.length) (h : d.entry c i = some e) (hx : x.idx = i) :
    (putEntry d c x).entry c i = some x := by
  have hidx := entry_idx h
  have hchan : (putEntry d c x).chan c = { d.chan c with tx := (d.chan c).tx.map (fun f => if f.idx = x.idx then x else f) } :=
    chan_modChan_same (d := d) c (fun y => { y with tx := y.tx.map (fun f => if f.idx = x.idx then x else f) }) hc
  have hsame : ((fun e : TxEntry => e.idx == i) ∘ fun f => if f.idx = x.idx then x else f) = fun e => e.idx == i := by
    funext f
    simp only [Function.comp_apply]
    split
    · next hf => rw [hf]
    · rfl
  rw [Dev.entry, hchan, List.find?_map, hsame, show (d.chan c).tx.find? (fun e => e.idx == i) = some e from h]
  exact congrArg some (if_pos (hidx.trans hx.symm))

theorem putEntry_peerFlight (d : Dev) (b c : Nat) (e : TxEntry) : ((putEntry d c e).chan b).peerFlight = (d.chan b).peerFlight :=
  modChan_keeps Chan.peerFlight (f := fun x => { x with tx := x.tx.map (fun f => if f.idx = e.idx then e else f) }) (fun _ => rfl) d b c

/-- An attempt of the old head whose end was not seen waits again (R454). -/
theorem resumeChan_queues {d : Dev} {c : Nat} {r : InFlight} {e : TxEntry} (hc : c < d.chans.length)
    (hr : (d.chan c).peerFlight = some r) (ho : r.outcome = 0) (he : d.entry c r.idx = some e) (hidx : e.idx = r.idx) :
    ((resumeChan d c).chan c).peerFlight = none
      ∧ (resumeChan d c).entry c r.idx = some { e with st := 1, att := min (e.att + 1) 15, copy := none, since := d.aon.cycles } := by
  have hres : resumeChan d c = putEntry (d.modChan c (fun x => { x with peerFlight := none })) c
      { e with st := 1, att := min (e.att + 1) 15, copy := none, since := d.aon.cycles } := by
    unfold resumeChan
    rw [hr]
    simp only
    rw [if_neg (by simp [ho]), he]
  have hcleared : (d.modChan c (fun x => { x with peerFlight := none })).chan c = { d.chan c with peerFlight := none } :=
    chan_modChan_same _ _ _ hc
  have hentry : (d.modChan c (fun x => { x with peerFlight := none })).entry c r.idx = some e := by
    rw [Dev.entry, hcleared]
    exact he
  rw [hres]
  refine ⟨?_, putEntry_entry (by simpa using hc) hentry hidx⟩
  rw [putEntry_peerFlight, hcleared]

/-- The part as the head, which it has become by a takeover. -/
def tookHead (d : Dev) : Dev :=
  (((d.set TWIN_STAT_ROLE 1).inc TWIN_CNT_TAKEOVERS).ist 0x70 0).modTwin (fun t => { t with lineLow := false })

theorem takeHeadship_idle {d : Dev} (hrole : d.get TWIN_STAT_ROLE = 2) (h : ∀ c, (d.chan c).peerFlight = none) :
    takeHeadship d = if d.twin.commitOk then tookHead d else raise (tookHead d) 0x70 2 := by
  have hresume : (tookHead d).forEach (tookHead d).chanList resumeChan = tookHead d := forEach_unchanged fun c _ => resumeChan_idle (h c)
  have hunf : takeHeadship d = if ((tookHead d).forEach (tookHead d).chanList resumeChan).twin.commitOk
      then (tookHead d).forEach (tookHead d).chanList resumeChan
      else raise ((tookHead d).forEach (tookHead d).chanList resumeChan) 0x70 2 := if_neg (by simp [hrole])
  rw [hunf, hresume]
  rfl

theorem OnlyRegs.modTwin {ks : List Nat} {d e : Dev} (h : OnlyRegs ks d e) (f : TwinSt → TwinSt) :
    OnlyRegs ks (d.modTwin f) (e.modTwin f) := by
  obtain ⟨hregs, hrest⟩ := h
  exact ⟨hregs, congrArg (fun d => d.modTwin f) hrest⟩

theorem bit_modTwin (d : Dev) (f : TwinSt → TwinSt) (k i : Nat) : (d.modTwin f).bit k i = d.bit k i := rfl

theorem tookHead_fields (d : Dev) : OnlyRegs [TWIN_STAT, TWIN_CNT, PG_IST 0x70] { d with twin := { d.twin with lineLow := false } } (tookHead d)
    ∧ (tookHead d).get TWIN_STAT_ROLE = 1 ∧ (tookHead d).bit (PG_IST 0x70) 0 = true
    ∧ (tookHead d).get TWIN_CNT_TAKEOVERS = min (d.get TWIN_CNT_TAKEOVERS + 1) (fldTop TWIN_CNT_TAKEOVERS) := by
  refine ⟨?_, ?_, ?_, ?_⟩
  · exact ((((onlyRegs_refl _ d).set 1 (by decide)).inc (by decide)).ist 0 (by decide)).modTwin fun t => { t with lineLow := false }
  · rw [tookHead, get_modTwin, get_of_getW (getW_ist_ne _ (by decide)), get_of_getW (getW_inc_ne _ _ (by decide)), get_set_same _ _ _ rfl]
    rfl
  · rw [tookHead, bit_modTwin]
    exact bit_ist_on _ (by decide)
  · rw [tookHead, get_modTwin, get_of_getW (getW_ist_ne _ (by decide)), get_inc_same _ _ rfl, get_of_getW (getW_set_ne _ _ _ (by decide))]

/-! ### Abdication (R453) -/

theorem populated_twin (v : Variant) : populated v 0x70 = true := by cases v <;> decide

theorem exec_abdicate {s : State} {w : Who} (ha : Admits s w 1 (regAddr 0x70 0x054) [1]) :
    exec (.abdicate w) s = .next (s.put (abdicateReq s.dev)) := by
  have hw : writeReg s.otp s.dev w 0x70 0x054 1 = abdicateReq s.dev := rfl
  have he : exec (.abdicate w) s = regWrite s w (regAddr 0x70 0x054) 1 := rfl
  rw [he, regWrite_admitted ha (populated_twin _) (by decide) (by decide) (by simp), hw]

theorem releaseHead_getW_twin {d : Dev} {off : Nat} (hl : d.get TWIN_STAT_LINK = 1) (hoff : off < 4096) :
    (releaseHead (handedOver d)).getW (rkey 0x70 off) = ((handedOver d).set TWIN_STAT_ROLE 2).getW (rkey 0x70 off) := by
  have hlink : (handedOver d).get TWIN_STAT_LINK = 1 := (get_of_getW (handedOver_getW (by decide) (by decide))).trans hl
  have hhas : (handedOver d).has TWIN_STAT_LINK = true := by simp [Dev.has, hlink]
  rw [releaseHead_getW (offCurfew_system (by decide) hoff), unheaded, hhas]
  rfl

theorem handedOff_fields {d : Dev} (hl : d.get TWIN_STAT_LINK = 1) : (releaseHead (handedOver d)).mem = d.mem
    ∧ (releaseHead (handedOver d)).pages = d.pages ∧ (releaseHead (handedOver d)).flash = d.flash
    ∧ (releaseHead (handedOver d)).get TWIN_STAT_ROLE = 2
    ∧ (releaseHead (handedOver d)).out = d.out ++ [.twin d.twin.seq .abdicateFrame]
    ∧ (releaseHead (handedOver d)).bit (PG_IST 0x70) 1 = true
    ∧ (releaseHead (handedOver d)).get TWIN_CNT_ABDICATIONS = min (d.get TWIN_CNT_ABDICATIONS + 1) (fldTop TWIN_CNT_ABDICATIONS) := by
  refine ⟨?_, ?_, ?_, ?_, ?_, ?_, ?_⟩
  · exact releaseHead_same Dev.mem (fun _ _ => rfl) (fun _ _ => rfl) (handedOver d)
  · exact releaseHead_same Dev.pages (fun _ _ => rfl) (fun _ _ => rfl) (handedOver d)
  · exact releaseHead_same Dev.flash (fun _ _ => rfl) (fun _ _ => rfl) (handedOver d)
  · rw [get_of_getW (releaseHead_getW_twin hl (by decide)), get_set_same _ _ _ rfl]
    rfl
  · exact releaseHead_same Dev.out (fun _ _ => rfl) (fun _ _ => rfl) (handedOver d)
  · rw [Dev.bit, PG_IST, releaseHead_getW_twin hl (by decide), getW_set_ne _ _ _ (by decide)]
    exact handedOver_ist d
  · rw [get_of_getW (releaseHead_getW_twin hl (by decide)), get_of_getW (getW_set_ne _ _ _ (by decide)), handedOver_count]

/-! ### START (R450) -/

/-- The part takes headship when HEADSHIP has stayed high for long enough. -/
def startHead (d : Dev) : Dev := (d.pass (d.aon.release + startCycles d - d.aon.cycles)).set TWIN_STAT_ROLE 1

theorem startHead_fields (d : Dev) : OnlyRegs [TWIN_STAT] { d with aon := (startHead d).aon } (startHead d)
    ∧ (startHead d).get TWIN_STAT_ROLE = 1
    ∧ (startHead d).aon.cycles = max d.aon.cycles (d.aon.release + (if d.get TWIN_CFG_PREF = 1 then 3250 else 13250)) := by
  refine ⟨⟨fun k hk => ?_, rfl⟩, ?_, ?_⟩
  · have hne : k ≠ TWIN_STAT := by simpa using hk
    rw [startHead, getW_set_ne _ _ _ hne]
    rfl
  · rw [startHead, get_set_same _ _ _ rfl]
    rfl
  · show d.aon.cycles + (d.aon.release + startCycles d - d.aon.cycles) = _
    rw [startCycles]
    split <;> omega

theorem isHead_of_role {d : Dev} (h : d.get TWIN_STAT_ROLE = 1) : d.isHead = true := by simp [Dev.isHead, h]

theorem role_of_isHead {d : Dev} (h : d.isHead = true) : d.get TWIN_STAT_ROLE = 1 := by simpa [Dev.isHead] using h

/-! ### The clauses -/

section standby
variable {s : State} {f : HbFrame} (hp : s.dev.powered = true) (hl : linked s.dev = true) (hf : f.badTag = false) (hh : f.head = true)
  (hrecs : f.recs = []) (hrole : s.dev.get TWIN_STAT_ROLE = 2)
include hp hl hf hh hrecs hrole

/-- The standby enters vigil on the head's notice (R378). -/
theorem standby_enters (hv : f.vigil = true) (hst : s.dev.get DEV_VIGSTAT_STATE = 0) :
    ∃ t, exec (.hbReceived f) s = .next t ∧ t.otp = s.otp ∧ t.pending = s.pending ∧ t.dev.mem = s.dev.mem
      ∧ t.dev.get DEV_VIGSTAT_STATE = 1 ∧ t.dev.get TWIN_STAT_ROLE = 2 ∧ t.dev.chans = s.dev.chans := by
  obtain ⟨-, -, hstay, hregs, -⟩ := hbNoted_fields s.dev f
  have hstate : (hbNoted s.dev f).get DEV_VIGSTAT_STATE = 0 := (get_of_getW (f := DEV_VIGSTAT_STATE) (hregs _ (by decide))).trans hst
  have hrec := hbReceived_standby hl hf hrole hh hrecs
  rw [if_pos hv, if_pos hstate] at hrec
  obtain ⟨hmem, hbegun, -, hchans⟩ := vigilBegin_fields (hbNoted s.dev f)
  exact ⟨_, next_all hp hrec rfl, put_otp s _, put_pending s _, hmem, hbegun, (vigilBegin_role _).trans (hstay.trans hrole), hchans⟩

/-- The standby leaves vigil on the head's notice (R379). -/
theorem standby_leaves (hv : f.vigil = false) (hw : f.wake = true) (hst : s.dev.get DEV_VIGSTAT_STATE = 2) (hheld : s.dev.vigHeld = []) :
    ∃ t, exec (.hbReceived f) s = .next t ∧ t.otp = s.otp ∧ t.pending = s.pending ∧ t.dev.mem = s.dev.mem
      ∧ t.dev.get DEV_VIGSTAT_STATE = 0 ∧ t.dev.get DEV_VIGSTAT_CAUSE = 3 ∧ t.dev.get TWIN_STAT_ROLE = 2 := by
  obtain ⟨-, -, hstay, hregs, -⟩ := hbNoted_fields s.dev f
  have hstate : (hbNoted s.dev f).get DEV_VIGSTAT_STATE = 2 := (get_of_getW (f := DEV_VIGSTAT_STATE) (hregs _ (by decide))).trans hst
  have hleave : vigilLeave (s.put (hbNoted s.dev f)) .twin = s.put (twinWoken (hbNoted s.dev f)) := vigilLeave_idle hstate hheld
  have hrec := hbReceived_standby hl hf hrole hh hrecs
  rw [if_neg (by simp [hv]), if_pos hw, hleave] at hrec
  obtain ⟨hmem, hawake, hcause, hkept⟩ := twinWoken_fields (hbNoted s.dev f)
  exact ⟨_, next_all hp hrec rfl, put_otp s _, put_pending s _, hmem, hawake, hcause, hkept.trans (hstay.trans hrole)⟩

theorem standby_stays (hv : f.vigil = false) (hw : f.wake = false) :
    ∃ t, exec (.hbReceived f) s = .next t ∧ t.otp = s.otp ∧ t.pending = s.pending
      ∧ OnlyRegs [TWIN_STAT] { s.dev with twin := { s.dev.twin with lineLow := true } } t.dev ∧ t.dev.get TWIN_STAT_ROLE = 2
      ∧ t.dev.get TWIN_STAT_MISSED = 0 := by
  obtain ⟨hmissed, -, hstay, honly⟩ := hbNoted_fields s.dev f
  have hrec := hbReceived_standby hl hf hrole hh hrecs
  rw [if_neg (by simp [hv]), if_neg (by simp [hw])] at hrec
  rw [hh] at honly
  exact ⟨_, next_all hp hrec rfl, put_otp s _, put_pending s _, honly, hstay.trans hrole, hmissed⟩

end standby

/-- A part in START that hears a head joins it. -/
theorem hbReceived_joins {s : State} {f : HbFrame} (hp : s.dev.powered = true) (hl : linked s.dev = true) (hf : f.badTag = false)
    (hh : f.head = true) (hrole : s.dev.get TWIN_STAT_ROLE = 0) :
    ∃ t, exec (.hbReceived f) s = .next t ∧ t.otp = s.otp ∧ t.pending = s.pending
      ∧ (∀ k, k ≠ TWIN_STAT → t.dev.getW k = s.dev.getW k)
      ∧ { t.dev with regs := s.dev.regs, chans := s.dev.chans, twin := s.dev.twin } = s.dev
      ∧ t.dev.twin = { s.dev.twin with lineLow := true } ∧ t.dev.get TWIN_STAT_ROLE = 3 := by
  obtain ⟨-, -, hstay, hregs, hrest, htwin⟩ := hbHeard_fields s.dev f
  obtain ⟨hjoin, hword⟩ := toJoining_fields (hbHeard s.dev f)
  have hrec := hbReceived_takes hl hf (.inl (by omega))
  rw [hbTake_eq, if_neg (by simp [hh]), if_pos (hstay.trans hrole)] at hrec
  refine ⟨_, next_all hp hrec rfl, put_otp s _, put_pending s _, fun k hk => (hword k hk).trans (hregs k hk), hrest, ?_, hjoin⟩
  exact congrArg (fun t : TwinSt => { t with lineLow := true }) htwin

theorem hbMissed_counts {d : Dev} (h : ¬ (d.get TWIN_STAT_ROLE = 2 ∧ d.twin.lineLow = true)) : hbMissed d = d.inc TWIN_STAT_MISSED := by
  have hrole : (d.inc TWIN_STAT_MISSED).get TWIN_STAT_ROLE = d.get TWIN_STAT_ROLE := get_set_apart _ _ _ _ rfl (by decide)
  refine if_neg fun hc => h ?_
  rwa [hrole] at hc

theorem hbMissed_raises {d : Dev} (hrole : d.get TWIN_STAT_ROLE = 2) (hlow : d.twin.lineLow = true) :
    hbMissed d = raise (d.inc TWIN_STAT_MISSED) 0x70 0 :=
  if_pos ⟨(get_set_apart d TWIN_STAT_MISSED TWIN_STAT_ROLE _ rfl (by decide)).trans hrole, hlow⟩

/-- Settles O59: frames, the moves from START, takeovers and abdications. -/
theorem headshipMoves : Obligations.HeadshipMoves := by
  unfold Obligations.HeadshipMoves
  refine ⟨?_, ?_, ?_, ?_, ?_, ?_, ?_, ?_, ?_, ?_, ?_, ?_, ?_, ?_, ?_, ?_, ?_, ?_, ?_, ?_⟩
  · intro s h
    refine ⟨next_self (if_pos h) rfl, next_self (if_neg (by simp [h])) rfl, next_self (if_pos h) rfl, fun f => ?_⟩
    have hdeaf : hbReceived s f = s := if_pos h
    show actAll s (fun s => hbReceived s f) = .next s
    rw [actAll, hdeaf, ite_self]
  · intro s hp hl hh
    exact ⟨_, next_put hp (hbSend_head hl hh) rfl, put_otp s _, put_pending s _, rfl, rfl, rfl, rfl⟩
  · intro s hp hl hh
    exact ⟨_, next_put hp (hbSend_standby hl hh) rfl, put_otp s _, put_pending s _, rfl, rfl, rfl⟩
  · intro s f hp hl hf
    exact next_all hp (hbReceived_bad hl hf) rfl
  · intro s f hp hl hf hh
    obtain ⟨hmissed, hready, hstay, hregs, hrest, htwin⟩ := hbHeard_fields s.dev f
    have hrec := hbReceived_takes hl hf (.inr hh)
    rw [hbTake_eq, if_pos hh] at hrec
    rw [hh] at htwin
    exact ⟨_, next_all hp hrec rfl, put_otp s _, put_pending s _, hregs, hrest, htwin, hmissed, hready, hstay⟩
  · intro s f hp hl hf hh hrole
    exact hbReceived_joins hp hl hf hh hrole
  · intro s f hp hl hf hh hrecs hhead
    have hrole := role_of_isHead hhead
    obtain ⟨-, -, hstay, -⟩ := hbNoted_fields s.dev f
    have hrec := hbReceived_takes hl hf (.inl (by omega))
    rw [hbTake_eq, if_neg (by simp [hh]), hbHeard_plain _ hrecs, if_neg (by omega), if_pos (by omega), hbNoted, hh] at hrec
    exact next_all hp hrec rfl
  · intro s f hp hl hf hh hrecs hrole
    exact ⟨standby_enters hp hl hf hh hrecs hrole, standby_leaves hp hl hf hh hrecs hrole, standby_stays hp hl hf hh hrecs hrole⟩
  · intro s hp h
    exact ⟨_, next_put hp (hbMissed_counts h) rfl, put_otp s _, put_pending s _, (onlyRegs_refl _ _).inc (by decide),
      get_inc_same _ _ rfl, get_set_apart _ _ _ _ rfl (by decide)⟩
  · intro s hp hrole hlow
    exact next_put hp (hbMissed_raises hrole hlow) rfl
  · intro s hp hrole hok hidle
    obtain ⟨honly, hnow, hist, hcnt⟩ := tookHead_fields s.dev
    exact ⟨_, next_put hp ((takeHeadship_idle hrole hidle).trans (if_pos hok)) rfl, put_otp s _, put_pending s _, honly, hnow,
      isHead_of_role hnow, hist, hcnt⟩
  · intro s hp hrole hok hidle
    exact next_put hp ((takeHeadship_idle hrole hidle).trans (if_neg (by simp [hok]))) rfl
  · intro s hrole
    exact next_self (if_pos hrole) rfl
  · intro s hl
    have harrives : abdicateArrives s.dev = takeHeadship s.dev := if_neg (by simp [hl])
    show act s abdicateArrives = act s takeHeadship
    rw [act, act, harrives]
  · intro d c r e hc hr ho he hidx
    exact resumeChan_queues hc hr ho he hidx
  · intro s w ha
    have hexec := exec_abdicate ha
    refine ⟨fun hh hl hr => ?_, fun hno => ?_⟩
    · have hreq : abdicateReq s.dev = releaseHead (handedOver s.dev) := if_pos ⟨hh, hl, hr⟩
      rw [hreq] at hexec
      exact ⟨_, hexec, put_otp s _, put_pending s _, handedOff_fields hl⟩
    · have hreq : abdicateReq s.dev = s.dev.ist 0x70 2 := if_neg fun hc => by
        obtain ⟨hh, hl, hr⟩ := hc
        rcases hno with h | h | h
        · simp [hh] at h
        · omega
        · omega
      rw [hreq] at hexec
      exact ⟨_, hexec, put_otp s _, put_pending s _, (onlyRegs_refl _ _).ist 2 (by decide), bit_ist_on _ (by decide)⟩
  · intro s hp hrole hlow
    obtain ⟨honly, hnow, hcyc⟩ := startHead_fields s.dev
    exact ⟨s.put (startHead s.dev), next_put hp (if_pos ⟨hrole, hlow⟩) rfl, put_otp s _, put_pending s _, honly, hnow, isHead_of_role hnow, hcyc⟩
  · intro s hp hrole
    exact ⟨_, next_put hp (if_pos hrole) rfl, put_otp s _, put_pending s _, toJoining_only s.dev, (toJoining_fields s.dev).1, rfl⟩
  · intro s hrole
    exact ⟨next_self (if_neg fun h => hrole h.1) rfl, next_self (if_neg hrole) rfl⟩
  · intro s hlow
    exact next_self (if_neg (by simp [hlow])) rfl

end Sys2Proof.Machine
end

section
/-! Twin partners: pairing, and what a joining part takes from the head (R443 to R448, R456). -/

namespace Sys2Proof.Machine

open Sys2Proof

/-! ### Pairing (R443, R444) -/

theorem resync'_getW (d : Dev) (p : Nat) {k : Nat} (hk : k ≠ TWIN_SYNC) : (resync' d p).getW k = d.getW k := by
  rw [resync', getW_modTwin, getW_set_ne _ _ _ hk, getW_set_ne _ _ _ hk]

theorem resync'_mem (d : Dev) (p : Nat) : (resync' d p).mem = d.mem := by rw [resync', modTwin_mem, set_mem, set_mem]

theorem resync'_peer (d : Dev) (p : Nat) : (resync' d p).twin.peer = d.twin.peer := by rw [resync']; rfl

theorem resync'_phase (d : Dev) {p : Nat} (hp : p < 8) : (resync' d p).get TWIN_SYNC_PHASE = p := by
  rw [resync', get_modTwin, get_set_apart _ _ _ _ rfl (by decide), get_set_same _ _ _ rfl]
  exact Nat.mod_eq_of_lt hp

/-- The part without its link: the count, the status bit, and the partner not ready. -/
def linkDropped (d : Dev) : Dev := (((d.set TWIN_STAT_LINK 0).inc TWIN_LNKCNT_DROPS).ist 0x70 4).set TWIN_STAT_PREADY 0

theorem linkDropped_fields (d : Dev) : (linkDropped d).mem = d.mem ∧ (linkDropped d).get TWIN_STAT_LINK = 0
    ∧ (linkDropped d).get TWIN_STAT_PREADY = 0 ∧ (linkDropped d).bit (PG_IST 0x70) 4 = true
    ∧ (linkDropped d).get TWIN_STAT_ROLE = d.get TWIN_STAT_ROLE
    ∧ (linkDropped d).get TWIN_LNKCNT_DROPS = min (d.get TWIN_LNKCNT_DROPS + 1) (fldTop TWIN_LNKCNT_DROPS) := by
  refine ⟨?_, ?_, ?_, ?_, ?_, ?_⟩
  · rw [linkDropped, set_mem, ist_mem, inc_mem, set_mem]
  · rw [linkDropped, get_set_apart _ _ _ _ rfl (by decide), get_of_getW (getW_ist_ne _ (by decide)),
      get_of_getW (getW_inc_ne _ _ (by decide)), get_set_same _ _ _ rfl]
    rfl
  · rw [linkDropped, get_set_same _ _ _ rfl]
    rfl
  · rw [linkDropped, bit_set_off _ _ _ (by decide)]
    exact bit_ist_on _ (by decide)
  · rw [linkDropped, get_set_apart _ _ _ _ rfl (by decide), get_of_getW (getW_ist_ne _ (by decide)),
      get_of_getW (getW_inc_ne _ _ (by decide)), get_set_apart _ _ _ _ rfl (by decide)]
  · rw [linkDropped, get_of_getW (getW_set_ne _ _ _ (by decide)), get_of_getW (getW_ist_ne _ (by decide)), get_inc_same _ _ rfl,
      get_of_getW (getW_set_ne _ _ _ (by decide))]

theorem twinDown_linked {d : Dev} (h : linked d = true) :
    twinDown d = (resync' (linkDropped d) 0).modTwin (fun t => { t with peer := none }) := if_neg (by simp [h])

theorem twinDown_fields {d : Dev} (h : linked d = true) : (twinDown d).mem = d.mem ∧ (twinDown d).get TWIN_STAT_LINK = 0
    ∧ (twinDown d).get TWIN_STAT_PREADY = 0 ∧ (twinDown d).get TWIN_SYNC_PHASE = 0 ∧ (twinDown d).twin.peer = none
    ∧ (twinDown d).bit (PG_IST 0x70) 4 = true ∧ (twinDown d).get TWIN_STAT_ROLE = d.get TWIN_STAT_ROLE
    ∧ (twinDown d).get TWIN_LNKCNT_DROPS = min (d.get TWIN_LNKCNT_DROPS + 1) (fldTop TWIN_LNKCNT_DROPS) := by
  obtain ⟨hmem, hlink, hready, hist, hrole, hdrops⟩ := linkDropped_fields d
  have hword : ∀ k, k ≠ TWIN_SYNC → (resync' (linkDropped d) 0).getW k = (linkDropped d).getW k := fun k hk => resync'_getW _ 0 hk
  have hphase := resync'_phase (linkDropped d) (p := 0) (by decide)
  have hsame : (resync' (linkDropped d) 0).mem = (linkDropped d).mem := resync'_mem _ 0
  have hstat := hword TWIN_STAT (by decide)
  have hcnt := hword TWIN_LNKCNT (by decide)
  have hbits := hword (PG_IST 0x70) (by decide)
  rw [twinDown_linked h]
  generalize resync' (linkDropped d) 0 = e at *
  exact ⟨hsame.trans hmem, (get_of_getW hstat).trans hlink, (get_of_getW hstat).trans hready, hphase, rfl,
    (congrArg (bitOf · 4) hbits).trans hist, (get_of_getW hstat).trans hrole, (get_of_getW hcnt).trans hdrops⟩

/-- The link with an accepted partner. -/
def pairedWith (d : Dev) (m : PairMsg) : Dev :=
  ((d.set TWIN_STAT_LINK 1).set TWIN_STAT_MISSED 0).modTwin (fun t => { t with peer := some m.peer, keys := t.keys + 1 })

theorem pairedWith_fields (d : Dev) (m : PairMsg) : (pairedWith d m).mem = d.mem ∧ (pairedWith d m).get TWIN_STAT_LINK = 1
    ∧ (pairedWith d m).get TWIN_STAT_MISSED = 0 ∧ (pairedWith d m).twin.peer = some m.peer
    ∧ (pairedWith d m).get TWIN_STAT_ROLE = d.get TWIN_STAT_ROLE
    ∧ (pairedWith d m).get TWIN_SYNC_PHASE = d.get TWIN_SYNC_PHASE := by
  refine ⟨?_, ?_, ?_, rfl, ?_, ?_⟩
  · rw [pairedWith, modTwin_mem, set_mem, set_mem]
  · rw [pairedWith, get_modTwin, get_set_apart _ _ _ _ rfl (by decide), get_set_same _ _ _ rfl]
    rfl
  · rw [pairedWith, get_modTwin, get_set_same _ _ _ rfl]
    rfl
  · rw [pairedWith, get_modTwin, get_set_apart _ _ _ _ rfl (by decide), get_set_apart _ _ _ _ rfl (by decide)]
  · rw [pairedWith, get_modTwin, get_of_getW (getW_set_ne _ _ _ (by decide)), get_of_getW (getW_set_ne _ _ _ (by decide))]

theorem pairDone_eq (d : Dev) (m : PairMsg) : pairDone d m = if d.isHead then pairedWith d m else resync' (pairedWith d m) 1 := by
  obtain ⟨-, -, -, -, hrole, -⟩ := pairedWith_fields d m
  have hhead : (pairedWith d m).isHead = d.isHead := by rw [Dev.isHead, hrole, Dev.isHead]
  have hdone : pairDone d m = if (pairedWith d m).isHead then pairedWith d m else resync' (pairedWith d m) 1 := by
    rw [pairDone, pairedWith]
  rw [hdone, hhead]

theorem pairDone_fields (d : Dev) (m : PairMsg) : (pairDone d m).mem = d.mem ∧ (pairDone d m).get TWIN_STAT_LINK = 1
    ∧ (pairDone d m).get TWIN_STAT_MISSED = 0 ∧ (pairDone d m).twin.peer = some m.peer
    ∧ (pairDone d m).get TWIN_STAT_ROLE = d.get TWIN_STAT_ROLE
    ∧ (pairDone d m).get TWIN_SYNC_PHASE = (if d.isHead = true then d.get TWIN_SYNC_PHASE else 1) := by
  obtain ⟨hmem, hlink, hmissed, hpeer, hrole, hphase⟩ := pairedWith_fields d m
  rw [pairDone_eq]
  by_cases h : d.isHead = true
  · rw [if_pos h, if_pos h]
    exact ⟨hmem, hlink, hmissed, hpeer, hrole, hphase⟩
  · have hstat := resync'_getW (pairedWith d m) 1 (k := TWIN_STAT) (by decide)
    rw [if_neg h, if_neg h]
    exact ⟨(resync'_mem _ 1).trans hmem, (get_of_getW hstat).trans hlink, (get_of_getW hstat).trans hmissed, (resync'_peer _ 1).trans hpeer, (get_of_getW hstat).trans hrole,
      resync'_phase _ (by decide)⟩

/-! ### DELTA (R446) -/

section follows
variable {d : Dev} (hf : follows d = true) (hp : d.get TWIN_SYNC_PHASE ≠ 0)
include hf hp

theorem deltaOp_damaged (tag : Bool) : deltaOp d (.damaged tag) = twinDamage d tag 3 := if_neg (by simp [hf, hp])

theorem deltaOp_commit (hg : d.twin.gotSnapshot = true) (n q : Nat) (h : Option (BitVec 384)) :
    deltaOp d (.commit n q h) = twinCommit d q h := by
  unfold deltaOp
  rw [if_neg (by simp [hf, hp])]
  exact if_pos hg

/-- A change on top of the snapshot, with no message missing, is applied and counted. -/
theorem deltaOp_applies {m : Delta} (hg : d.twin.gotSnapshot = true) (hm : (applyDelta d m).twin.missing = 0)
    (hkind : deltaOp d m = if follows d = false ∨ d.get TWIN_SYNC_PHASE = 0 then d
      else if d.twin.gotSnapshot then countDelta (applyDelta d m) else d) :
    deltaOp d m = (applyDelta d m).modTwin (fun t => { t with deltas := t.deltas + 1 }) := by
  rw [hkind, if_neg (by simp [hf, hp]), if_pos hg]
  exact if_pos hm

theorem bulkOp_damaged (o : Otp) (pkg tag : Bool) : bulkOp o d (.damaged pkg tag) = twinDamage d tag (if pkg then 1 else 3) :=
  if_neg (by simp [hf, hp])

theorem bulkOp_active (o : Otp) (p : Package) (ok : Bool) : bulkOp o d (.active p ok) = joinActive o d p := if_neg (by simp [hf, hp])

theorem bulkOp_arm (o : Otp) (n : Nat) : bulkOp o d (.arm n) = twinArm d n := if_neg (by simp [hf, hp])

theorem bulkOp_enrollKeys (o : Otp) (ks : List (Nat × Nat × BitVec 256)) : bulkOp o d (.enrollKeys ks) = if d.twin.gotActive then
    ((d.storeKeys ks).set TWIN_SYNC_PHASE 3).modTwin (fun t => { t with gotKeys := true }) else d := if_neg (by simp [hf, hp])

theorem bulkOp_snapshot (o : Otp) : bulkOp o d (.snapshot []) = if d.twin.gotKeys then
    (d.set TWIN_SYNC_PHASE 4).modTwin (fun t => { t with gotSnapshot := true, deltas := 0, missing := 0 }) else d :=
  if_neg (by simp [hf, hp])

end follows

/-! ### Fence states, TEC and REC (R190) -/

theorem bitOf_mod_word (x : Nat) {i : Nat} (h : i < 32) : bitOf (x % 2 ^ 32) i = bitOf x i := by
  rw [bitOf_eq_testBit, bitOf_eq_testBit, Nat.testBit_mod_two_pow, decide_eq_true h, Bool.true_and]

section confine
variable (d : Dev) (c t r fence : Nat)

/-- The counters, the state and the fences of the channel, before the fences of nodes follow. -/
def confined (d : Dev) (c t r fence : Nat) : Dev :=
  (((((d.set (CHS_TEC_TEC c) (min t 511)).set (CHS_REC_REC c) (min r 255)).set (CHS_TEC_STATE c) (confState t r)).setB (CHS_TEC_WARN c)
    (96 ≤ t || 96 ≤ r))).setW (CHS_FENCE c) (putBit fence 0 false)

theorem chs_keys_ne (c : Nat) : CHS_TEC c ≠ CHS_REC c ∧ CHS_TEC c ≠ CHS_FENCE c ∧ CHS_REC c ≠ CHS_FENCE c ∧ CHS_REC c ≠ CHS_TEC c
    ∧ ∀ a, CHS_TEC c ≠ CHS_NODE c a ∧ CHS_REC c ≠ CHS_NODE c a ∧ CHS_FENCE c ≠ CHS_NODE c a := by
  simp only [CHS_TEC, CHS_REC, CHS_FENCE, CHS_NODE, rkey]
  refine ⟨?_, ?_, ?_, ?_, fun a => ⟨?_, ?_, ?_⟩⟩ <;> omega

theorem twinConfine_same {β : Type} (g : Dev → β) (hset : ∀ (d : Dev) a x, g (d.set (CHS_NODE_FENCED c a) x) = g d)
    (hchan : ∀ (d : Dev) f, g (d.modChan c f) = g d) : g (twinConfine d c t r fence []) = g (confined d c t r fence) := by
  unfold twinConfine
  extract_lets was d1 d2 d3 d4
  refine forEach_same g _ _ (fun e a => ?_) d4
  split
  · rfl
  · exact (hchan _ _).trans (hset _ _ _)

theorem confState_lt (t r : Nat) : confState t r < 4 := by
  unfold confState
  split
  · omega
  · split <;> omega

theorem confined_fields : (confined d c t r fence).get (CHS_TEC_TEC c) = min t 511 ∧ (confined d c t r fence).get (CHS_REC_REC c) = min r 255
    ∧ (confined d c t r fence).get (CHS_TEC_STATE c) = confState t r
    ∧ ∀ a, 1 ≤ a → a < 32 → fenced (confined d c t r fence) c a = bitOf fence a := by
  obtain ⟨htr, htf, hrf, hrt, -⟩ := chs_keys_ne c
  refine ⟨?_, ?_, ?_, fun a h1 h32 => ?_⟩
  · rw [confined, get_of_getW (getW_setW_ne _ htf _), setB_eq_set, get_set_apart _ _ _ _ rfl (by simp [Fld.apart, CHS_TEC_WARN, CHS_TEC_TEC]),
      get_set_apart _ _ _ _ rfl (by simp [Fld.apart, CHS_TEC_STATE, CHS_TEC_TEC]), get_of_getW (getW_set_ne _ _ _ htr), get_set_same _ _ _ rfl]
    exact Nat.mod_eq_of_lt (Nat.lt_of_le_of_lt (Nat.min_le_right t 511) (show 511 < 2 ^ 9 by decide))
  · rw [confined, get_of_getW (getW_setW_ne _ hrf _), setB_eq_set, get_of_getW (getW_set_ne _ _ _ hrt), get_of_getW (getW_set_ne _ _ _ hrt),
      get_set_same _ _ _ rfl]
    exact Nat.mod_eq_of_lt (Nat.lt_of_le_of_lt (Nat.min_le_right r 255) (show 255 < 2 ^ 8 by decide))
  · rw [confined, get_of_getW (getW_setW_ne _ htf _), setB_eq_set, get_set_apart _ _ _ _ rfl (by simp [Fld.apart, CHS_TEC_WARN, CHS_TEC_STATE]),
      get_set_same _ _ _ rfl]
    exact Nat.mod_eq_of_lt (confState_lt t r)
  · rw [fenced, confined, getW_setW_same, bitOf_mod_word _ h32, bitOf_putBit, if_neg (by omega)]

theorem twinConfine_fields : (twinConfine d c t r fence []).mem = d.mem ∧ (twinConfine d c t r fence []).twin = d.twin
    ∧ (twinConfine d c t r fence []).get (CHS_TEC_TEC c) = min t 511 ∧ (twinConfine d c t r fence []).get (CHS_REC_REC c) = min r 255
    ∧ (twinConfine d c t r fence []).get (CHS_TEC_STATE c) = confState t r
    ∧ ∀ a, 1 ≤ a → a < 32 → fenced (twinConfine d c t r fence []) c a = bitOf fence a := by
  obtain ⟨-, -, -, -, hnode⟩ := chs_keys_ne c
  obtain ⟨htec, hrec, hstate, hfence⟩ := confined_fields d c t r fence
  refine ⟨?_, ?_, ?_, ?_, ?_, fun a h1 h32 => ?_⟩
  · rw [twinConfine_same d c t r fence Dev.mem (fun _ _ _ => rfl) (fun _ _ => rfl)]
    rfl
  · rw [twinConfine_same d c t r fence Dev.twin (fun _ _ _ => rfl) (fun _ _ => rfl)]
    rfl
  · rw [twinConfine_same d c t r fence (Dev.get · (CHS_TEC_TEC c)) (fun e a x => get_of_getW (getW_set_ne e _ x (hnode a).1)) (fun _ _ => rfl), htec]
  · rw [twinConfine_same d c t r fence (Dev.get · (CHS_REC_REC c)) (fun e a x => get_of_getW (getW_set_ne e _ x (hnode a).2.1)) (fun _ _ => rfl), hrec]
  · rw [twinConfine_same d c t r fence (Dev.get · (CHS_TEC_STATE c)) (fun e a x => get_of_getW (getW_set_ne e _ x (hnode a).1)) (fun _ _ => rfl), hstate]
  · rw [twinConfine_same d c t r fence (fenced · c a) (fun e b x => congrArg (bitOf · a) (getW_set_ne e _ x (hnode b).2.2)) (fun _ _ => rfl),
      hfence a h1 h32]

end confine

/-! ### Epoch keys (R245, R446) -/

theorem twinKey_isSome (was : List (Option EpKey)) (k : Option (Nat × BitVec 256)) : (twinKey was k).isSome = k.isSome := by
  rw [twinKey, Option.isSome_map]

/-- The channel with the head's epoch keys and their state. -/
def keysTaken (old cur next : Option (Nat × BitVec 256)) (ep : EpochWire) (x : Chan) : Chan :=
  { x with old := twinKey [x.old, x.cur, x.next] old, cur := twinKey [x.old, x.cur, x.next] cur,
           next := twinKey [x.old, x.cur, x.next] next, epWant := ep.want, epStart := ep.start,
           epDeadline := ep.deadline, epLast := ep.last }

theorem twinKeys_fields {d : Dev} {c : Nat} (hc : c < d.chans.length) (old cur next : Option (Nat × BitVec 256)) (ep : EpochWire) :
    (twinKeys d c old cur next ep).mem = d.mem ∧ (twinKeys d c old cur next ep).twin = d.twin
    ∧ (twinKeys d c old cur next ep).chan c = keysTaken old cur next ep (d.chan c)
    ∧ (twinKeys d c old cur next ep).get (CHX_CONFIRM_MASK c) = ep.confirm / 2 % 2 ^ 31
    ∧ ∀ b, b ≠ c → (twinKeys d c old cur next ep).chan b = d.chan b := by
  have hdef : twinKeys d c old cur next ep = ((((d.set (CHX_EPSTAT_POSTP c) ep.postp).set (CHX_EPSTAT_ACT c) ep.last)).set (CHX_CONFIRM_MASK c)
      (ep.confirm / 2)).modChan c (keysTaken old cur next ep) := rfl
  rw [hdef]
  refine ⟨?_, rfl, ?_, ?_, fun b hb => ?_⟩
  · rw [modChan_mem, set_mem, set_mem, set_mem]
  · exact chan_modChan_same (((d.set (CHX_EPSTAT_POSTP c) ep.postp).set (CHX_EPSTAT_ACT c) ep.last).set (CHX_CONFIRM_MASK c) (ep.confirm / 2)) c
      (keysTaken old cur next ep) hc
  · rw [get_modChan, get_set_same _ _ _ rfl]
    rfl
  · rw [chan_modChan_ne _ hb, chan_set, chan_set, chan_set]

/-! ### Commit points (R446, R456) -/

/-- What a commit DELTA that counts `q` messages notes. -/
def commitNoted (d : Dev) (q : Nat) (h : Option (BitVec 384)) : Dev :=
  d.modTwin (fun t => { t with missing := q - t.deltas, deltas := t.deltas - q, commitOk := false,
                               headDigest := match h with | some x => some x | none => t.headDigest })

theorem twinCommit_eq (d : Dev) (q : Nat) (h : Option (BitVec 384)) :
    twinCommit d q h = if q - d.twin.deltas = 0 then commitDone (commitNoted d q h) else commitNoted d q h := rfl

theorem synced_fields (d : Dev) : (synced d).mem = d.mem ∧ (synced d).twin = d.twin ∧ (synced d).get TWIN_STAT_ROLE = 2
    ∧ (synced d).get TWIN_SYNC_PHASE = 5 ∧ (synced d).get TWIN_SYNC_PCT = 100 ∧ (synced d).bit (PG_IST 0x70) 3 = true
    ∧ (synced d).get TWIN_CNT_JOINS = min (d.get TWIN_CNT_JOINS + 1) (fldTop TWIN_CNT_JOINS) := by
  refine ⟨rfl, rfl, ?_, ?_, ?_, ?_, ?_⟩
  · rw [synced, get_of_getW (getW_ist_ne _ (by decide)), get_of_getW (getW_inc_ne _ _ (by decide)), get_set_same _ _ _ rfl]
    rfl
  · rw [synced, get_of_getW (getW_ist_ne _ (by decide)), get_of_getW (getW_inc_ne _ _ (by decide)), get_of_getW (getW_set_ne _ _ _ (by decide)),
      get_set_apart _ _ _ _ rfl (by decide), get_set_same _ _ _ rfl]
    rfl
  · rw [synced, get_of_getW (getW_ist_ne _ (by decide)), get_of_getW (getW_inc_ne _ _ (by decide)), get_of_getW (getW_set_ne _ _ _ (by decide)),
      get_set_same _ _ _ rfl]
    rfl
  · rw [synced]
    exact bit_ist_on _ (by decide)
  · rw [synced, get_of_getW (getW_ist_ne _ (by decide)), get_inc_same _ _ rfl, get_of_getW (getW_set_ne _ _ _ (by decide)),
      get_of_getW (getW_set_ne _ _ _ (by decide)), get_of_getW (getW_set_ne _ _ _ (by decide))]

theorem commitDone_syncs {d : Dev} (hg : d.twin.gotSnapshot = true) (hp : d.get TWIN_SYNC_PHASE = 4) :
    commitDone d = synced (d.modTwin (fun t => { t with commitOk := true })) := if_pos ⟨hg, hp⟩

/-! ### ARM at the head (R447) -/

theorem twinArm_fields {d : Dev} (n : Nat) (h : stagedSt d = 4) : (twinArm d n).mem = d.mem ∧ stagedSt (twinArm d n) = 5
    ∧ armTick (twinArm d n) = n % 2 ^ 48 := by
  have harm : twinArm d n = (((d.set CFG_STAT_STAGED 5).setW CFG_ARMTICKLO (n % 2 ^ 32)).setW CFG_ARMTICKHI (n / 2 ^ 32 % 2 ^ 16)).ist 0x60 3 :=
    if_pos h
  have hhi : (twinArm d n).getW CFG_ARMTICKHI = n / 2 ^ 32 % 2 ^ 16 := by
    rw [harm, getW_ist_ne _ (by decide), getW_setW_same]
    omega
  have hlo : (twinArm d n).getW CFG_ARMTICKLO = n % 2 ^ 32 := by
    rw [harm, getW_ist_ne _ (by decide), getW_setW_ne _ (by decide), getW_setW_same]
    omega
  refine ⟨?_, ?_, ?_⟩
  · rw [harm]
    rfl
  · rw [stagedSt, harm, get_of_getW (getW_ist_ne _ (by decide)), get_of_getW (getW_setW_ne _ (by decide) _), get_of_getW (getW_setW_ne _ (by decide) _),
      get_set_same _ _ _ rfl]
    rfl
  · rw [armTick, hhi, hlo]
    omega

/-! ### The clauses -/

section joining
variable {s : State} (hp : s.dev.powered = true) (hf : follows s.dev = true)
include hp hf

theorem confine_applied {c t r fence : Nat} (hph : s.dev.get TWIN_SYNC_PHASE ≠ 0) (hg : s.dev.twin.gotSnapshot = true)
    (hm : s.dev.twin.missing = 0) (hc : s.dev.hasChan c = true) :
    ∃ u, exec (.delta (.confine c t r fence [])) s = .next u ∧ u.otp = s.otp ∧ u.pending = s.pending ∧ u.dev.mem = s.dev.mem
      ∧ u.dev.get (CHS_TEC_TEC c) = min t 511 ∧ u.dev.get (CHS_REC_REC c) = min r 255
      ∧ u.dev.get (CHS_TEC_STATE c) = confState t r
      ∧ (∀ a, 1 ≤ a → a < 32 → fenced u.dev c a = bitOf fence a) := by
  obtain ⟨hmem, htwin, hrest⟩ := twinConfine_fields s.dev c t r fence
  have happ : applyDelta s.dev (.confine c t r fence []) = twinConfine s.dev c t r fence [] := if_pos hc
  have hmiss : (applyDelta s.dev (.confine c t r fence [])).twin.missing = 0 := by rw [happ, htwin, hm]
  have hdelta := deltaOp_applies hf hph hg hmiss rfl
  rw [happ] at hdelta
  generalize twinConfine s.dev c t r fence [] = e at *
  exact ⟨_, next_put hp hdelta rfl, put_otp s _, put_pending s _, hmem, hrest⟩

theorem keys_applied {c : Nat} {old cur next : Option (Nat × BitVec 256)} {ep : EpochWire} (hph : s.dev.get TWIN_SYNC_PHASE ≠ 0)
    (hg : s.dev.twin.gotSnapshot = true) (hm : s.dev.twin.missing = 0) (hc : s.dev.hasChan c = true) (hlen : c < s.dev.chans.length) :
    ∃ u, exec (.delta (.keys c old cur next ep)) s = .next u ∧ u.otp = s.otp ∧ u.pending = s.pending ∧ u.dev.mem = s.dev.mem
      ∧ (u.dev.chan c).epStart = ep.start ∧ (u.dev.chan c).epDeadline = ep.deadline ∧ (u.dev.chan c).epLast = ep.last
      ∧ ((u.dev.chan c).old.isSome = old.isSome ∧ (u.dev.chan c).cur.isSome = cur.isSome ∧ (u.dev.chan c).next.isSome = next.isSome)
      ∧ u.dev.get (CHX_CONFIRM_MASK c) = ep.confirm / 2 % 2 ^ 31 ∧ (∀ b, b ≠ c → u.dev.chan b = s.dev.chan b) := by
  obtain ⟨hmem, htwin, hchan, hmask, hothers⟩ := twinKeys_fields hlen old cur next ep
  have happ : applyDelta s.dev (.keys c old cur next ep) = twinKeys s.dev c old cur next ep := if_pos hc
  have hmiss : (applyDelta s.dev (.keys c old cur next ep)).twin.missing = 0 := by rw [happ, htwin, hm]
  have hdelta := deltaOp_applies hf hph hg hmiss rfl
  rw [happ] at hdelta
  generalize twinKeys s.dev c old cur next ep = e at *
  refine ⟨s.put (e.modTwin (fun t => { t with deltas := t.deltas + 1 })), next_put hp hdelta rfl, put_otp s _, put_pending s _, hmem, ?_⟩
  have hown : ((s.put (e.modTwin (fun t => { t with deltas := t.deltas + 1 }))).dev.chan c) = keysTaken old cur next ep (s.dev.chan c) := hchan
  rw [hown]
  exact ⟨rfl, rfl, rfl, ⟨twinKey_isSome _ _, twinKey_isSome _ _, twinKey_isSome _ _⟩, hmask, hothers⟩

theorem commit_synchronises {n q : Nat} {h : Option (BitVec 384)} (hph : s.dev.get TWIN_SYNC_PHASE = 4)
    (hg : s.dev.twin.gotSnapshot = true) (hq : q ≤ s.dev.twin.deltas) :
    ∃ t, exec (.delta (.commit n q h)) s = .next t ∧ t.otp = s.otp ∧ t.pending = s.pending ∧ t.dev.mem = s.dev.mem
      ∧ t.dev.get TWIN_STAT_ROLE = 2 ∧ t.dev.get TWIN_SYNC_PHASE = 5 ∧ t.dev.get TWIN_SYNC_PCT = 100
      ∧ t.dev.twin.commitOk = true ∧ t.dev.bit (PG_IST 0x70) 3 = true
      ∧ t.dev.get TWIN_CNT_JOINS = min (s.dev.get TWIN_CNT_JOINS + 1) (fldTop TWIN_CNT_JOINS) := by
  have hcommit : deltaOp s.dev (.commit n q h) = synced ((commitNoted s.dev q h).modTwin (fun t => { t with commitOk := true })) := by
    rw [deltaOp_commit hf (by omega) hg, twinCommit_eq, if_pos (by omega)]
    exact commitDone_syncs hg hph
  obtain ⟨hmem, htwin, hrole, hphase, hpct, hist, hjoins⟩ := synced_fields ((commitNoted s.dev q h).modTwin (fun t => { t with commitOk := true }))
  exact ⟨_, next_put hp hcommit rfl, put_otp s _, put_pending s _, hmem, hrole, hphase, hpct, congrArg TwinSt.commitOk htwin, hist, hjoins⟩

theorem commit_waits {n q : Nat} {h : Option (BitVec 384)} (hph : s.dev.get TWIN_SYNC_PHASE ≠ 0)
    (hg : s.dev.twin.gotSnapshot = true) (hq : s.dev.twin.deltas < q) :
    ∃ t, exec (.delta (.commit n q h)) s = .next t ∧ t.otp = s.otp ∧ t.pending = s.pending ∧ t.dev.regs = s.dev.regs
      ∧ t.dev.mem = s.dev.mem ∧ t.dev.twin.missing = q - s.dev.twin.deltas ∧ t.dev.twin.commitOk = false := by
  have hcommit : deltaOp s.dev (.commit n q h) = commitNoted s.dev q h := by
    rw [deltaOp_commit hf hph hg, twinCommit_eq, if_neg (by omega)]
  exact ⟨_, next_put hp hcommit rfl, put_otp s _, put_pending s _, rfl, rfl, rfl, rfl⟩

/-- The head's ACTIVE package that the part holds already changes no package. -/
theorem active_held {p : Package} {ok : Bool} (hph : s.dev.get TWIN_SYNC_PHASE ≠ 0)
    (hd : s.dev.flash.active.map (fun x => x.digest) = some p.digest) :
    ∃ t, exec (.bulk (.active p ok)) s = .next t ∧ t.otp = s.otp ∧ t.pending = s.pending ∧ t.dev.mem = s.dev.mem
      ∧ t.dev.twin.gotActive = true ∧ t.dev.twin.headDigest = some p.digest ∧ t.dev.flash = s.dev.flash := by
  have hjoin : bulkOp s.otp s.dev (.active p ok)
      = (s.dev.modTwin (fun t => { t with gotActive := true, headDigest := some p.digest })).set TWIN_SYNC_PCT 50 :=
    (bulkOp_active hf hph s.otp p ok).trans (if_pos hd)
  exact ⟨_, next_put hp hjoin rfl, put_otp s _, put_pending s _, rfl, rfl, rfl, rfl⟩

theorem keys_come {ks : List (Nat × Nat × BitVec 256)} (hph : s.dev.get TWIN_SYNC_PHASE ≠ 0) (hg : s.dev.twin.gotActive = true) :
    ∃ t, exec (.bulk (.enrollKeys ks)) s = .next t ∧ t.otp = s.otp ∧ t.pending = s.pending
      ∧ t.dev.mem = s.dev.mem ∧ t.dev.sec.vault = ks ∧ t.dev.twin.gotKeys = true ∧ t.dev.get TWIN_SYNC_PHASE = 3 := by
  refine ⟨_, next_put hp ((bulkOp_enrollKeys hf hph s.otp ks).trans (if_pos hg)) rfl, put_otp s _, put_pending s _, rfl, rfl, rfl, ?_⟩
  exact (get_set_same _ _ _ rfl).trans rfl

theorem snapshot_comes (hph : s.dev.get TWIN_SYNC_PHASE ≠ 0) (hg : s.dev.twin.gotKeys = true) :
    ∃ t, exec (.bulk (.snapshot [])) s = .next t ∧ t.otp = s.otp ∧ t.pending = s.pending
      ∧ t.dev.mem = s.dev.mem ∧ t.dev.twin.gotSnapshot = true ∧ t.dev.get TWIN_SYNC_PHASE = 4 := by
  refine ⟨_, next_put hp ((bulkOp_snapshot hf hph s.otp).trans (if_pos hg)) rfl, put_otp s _, put_pending s _, rfl, rfl, ?_⟩
  exact (get_set_same _ _ _ rfl).trans rfl

end joining

/-- Settles O60: the pairing, and what a part that joins takes in each phase. -/
theorem partnersPairAndSynchronise : Obligations.PartnersPairAndSynchronise := by
  unfold Obligations.PartnersPairAndSynchronise
  refine ⟨?_, ?_, ?_, ?_, ?_, ?_, ?_, ?_, ?_, ?_, ?_, ?_, ?_, ?_, ?_, ?_, ?_, ?_, ?_⟩
  · intro s hp hl
    exact ⟨next_put hp (if_neg (by simp [hl])) rfl, next_self (if_pos hl) rfl⟩
  · intro s hp hl
    exact ⟨s.put (twinDown s.dev), next_put hp rfl rfl, put_otp s _, put_pending s _, twinDown_fields hl⟩
  · intro s hl
    exact next_self (if_pos hl) rfl
  · intro s m hp hw
    exact next_put hp (if_pos hw) rfl
  · intro s m hp hw hsig hpeer
    have hpair : pairOp s.dev m = pairDone s.dev m := by
      unfold pairOp
      rw [if_neg (by simp [hw]), if_pos ⟨hsig, hpeer⟩]
    exact ⟨_, next_put hp hpair rfl, put_otp s _, put_pending s _, pairDone_fields s.dev m⟩
  · intro s m hp hw hno
    have hpair : pairOp s.dev m = raise s.dev 0x70 3 := by
      unfold pairOp
      rw [if_neg (by simp [hw]), if_neg]
      rintro ⟨hsig, hpeer⟩
      rcases hno with h | ⟨hne, hother⟩
      · simp [hsig] at h
      · rcases hpeer with h | ⟨hnone, hhead⟩
        · exact hne h
        · rcases hother with h | h
          · exact h hnone
          · simp [hhead] at h
    exact next_put hp hpair rfl
  · intro s h
    exact ⟨fun m => next_self (if_pos h) rfl, fun m => next_self (if_pos h) rfl⟩
  · intro s tag hp hf hph
    exact ⟨next_put hp (deltaOp_damaged hf hph tag) rfl, next_put hp (bulkOp_damaged hf hph s.otp true tag) rfl,
      next_put hp (bulkOp_damaged hf hph s.otp false tag) rfl⟩
  · intro s k q hp hf hph hg hm
    exact next_put hp (deltaOp_applies (m := .opSeq k q) hf hph hg hm rfl) rfl
  · intro s c t r fence hp hf hph hg hm hc
    exact confine_applied hp hf hph hg hm hc
  · intro s c old cur next ep hp hf hph hg hm hc hlen
    exact keys_applied hp hf hph hg hm hc hlen
  · intro s n q h hp hf hph hg hq
    exact commit_synchronises hp hf hph hg hq
  · intro s n q h hp hf hph hg hq
    exact commit_waits hp hf hph hg hq
  · intro s p ok hp hf hph hd
    exact active_held hp hf hph hd
  · intro s ks hp hf hph
    exact ⟨keys_come hp hf hph, fun hg => next_self ((bulkOp_enrollKeys hf hph s.otp ks).trans (if_neg (by simp [hg]))) rfl,
      fun hg => next_self ((bulkOp_snapshot hf hph s.otp).trans (if_neg (by simp [hg]))) rfl, snapshot_comes hp hf hph⟩
  · intro s n hp hf hph hst
    exact ⟨_, next_put hp (bulkOp_arm hf hph s.otp n) rfl, put_otp s _, put_pending s _, twinArm_fields n hst⟩
  · intro s hp hl
    exact next_put hp (if_pos hl) rfl
  · intro s hp hf h1 h4
    exact next_put hp (if_pos ⟨hf, h1, h4⟩) rfl
  · intro s h
    refine next_self (if_neg ?_) rfl
    rintro ⟨hf, h1, h4⟩
    rcases h with h | h | h
    · simp [hf] at h
    · omega
    · omega

end Sys2Proof.Machine
end
